-- ==== Sys2Proof/Word.lean ====
section
/-!
DEFINITION. The plain data types that every other file shares: bytes, FP32 bit patterns, the sorted
association list in which sparse storage is held, and the 8-bit status space of R18 and R414.
-/

namespace Sys2Proof

/-- One byte. -/
abbrev Byte := BitVec 8

/-- An IEEE 754 binary32 bit pattern (R82, code 0x01; REAL32 of the object dictionary). -/
abbrev F32 := BitVec 32

/-- Sparse storage: key and value pairs, keys strictly rising. A key that is not listed reads as the
default that the storage's own read function names. -/
abbrev Tab (α : Type) := List (Nat × α)

/-- The status codes that commands, fabric NACKs and dictionary refusals share (R18, R414). -/
inductive Status where
  | ok | zeroWork | outOfRange | quireViolation | unmapped | forbidden | absentUnit
  | eccRecovered | eccLost | isolated | notReady | malformed
  | shed | waitTimeout | stateTorn | roundClosed | remoteTimeout | hopLimit | hostAbort | journalFault
  deriving DecidableEq, Repr

/-- The three variants of R1. -/
inductive Variant where
  | tmn5800 | tmn5830 | tmn5840
  deriving DecidableEq, Repr

end Sys2Proof
end

