-- ==== Sys2Proof/Syntax.lean ====
section
/-!
DEFINITION. The commands the block takes, one constructor per row of spec/opcode_table.json, and the plain
data their operands are made of. Every event whose instant the spec uses carries `dt`, the TB counts
(3.6 GHz, R20) that pass between the command before it and this one; a tile command carries `cycles`,
the ACLK cycles it took (the CYCLES field of R74), because timing itself is not modelled.
-/

namespace Sys2Proof

/-- The two paths of the dictionary server: the CoE mailbox and the PCIe mailbox (R323, R328). -/
inductive Path where
  | coe | pcie
  deriving DecidableEq, Repr

/-- A block behind an isolation wrapper (R374), as the unit kinds of R416 number them. -/
inductive Block where
  | tile (p : Nat)            -- physical tile
  | stack (i : Nat)           -- HBM stack Hi
  | segment (d c : Nat)       -- BN segment of column c on die d
  | laneGroup (g : Nat)       -- bridge lane group
  | port (k : Nat)            -- optical port
  | core (c : Nat)            -- control core
  | network (d : Nat)         -- control and signal networks of die d
  | hostPort                  -- the PCI Express port
  | ecatController            -- the EtherCAT controller
  deriving DecidableEq, Repr

/-- A clock domain of R372. -/
inductive Domain where
  | tile (p : Nat) | segment (d c : Nat) | cnSn (d : Nat) | hbmController (i : Nat) | hbmPhy (i : Nat)
  | opticalTx (k : Nat) | opticalRx (k : Nat) | bridge (d : Nat) | pcie (i : Nat)
  | ecat | control | timebase | security
  deriving DecidableEq, Repr

/-- A packet of the fabric: the header fields of R279 and the payload. The meanings of the packet rows check HCRC; what
comes in place of a packet, with no header to read, is the row PACKET_CORRUPT. -/
structure Packet where
  op : Nat
  channel : Nat
  first : Bool
  last : Bool
  dstRack : Nat
  dstPackage : Nat
  srcRack : Nat
  srcPackage : Nat
  srcTile : Nat
  length : Nat
  hops : Nat
  linkNak : Bool
  addr : Nat
  flag : Nat
  reserved : Nat
  addend : Nat
  kslice : Nat
  e2eSeq : Nat
  status : Nat
  linkSeq : Nat
  ackSeq : Nat
  creditChannel : Nat
  creditCount : Nat
  hcrc : Nat
  payload : List Byte
  deriving DecidableEq, Repr

/-- The stream of packets that E2E_SEQ numbers: one source tile and channel toward this package (R292). -/
structure SrcId where
  rack : Nat
  package : Nat
  tile : Nat
  channel : Nat
  deriving DecidableEq, Repr

/-- What a built-in self-test found (R389, R391, R393): the failed blocks, VDD_CORE per die in mV, whether
each die's clock held 2.4 GHz within 1 %, and how long the test took. -/
structure BistFinding where
  failedTiles : List Nat
  failedCores : List Nat
  failedStacks : List Nat
  failedGroups : List Nat
  failedSegments : List Nat     -- 12 × die + column
  failedPorts : List Nat
  vddCore : List Nat            -- mV, die 0 then die 1
  clockOk : List Bool           -- per die
  durationMs : Nat
  deriving DecidableEq, Repr

/-- A read that the part itself has outstanding at the host (R322). -/
inductive HostRead where
  | ring (r : Nat)              -- the oldest descriptor in flight of an ingest ring
  | moveOf (tile : Nat)         -- a MOVE from SPACE 2 of a logical tile (R318)
  | command                     -- the running host command
  deriving DecidableEq, Repr

/-- One dictionary access (R326, R327, R338): a write, an entry description (`describe` without `write`), or a read;
`write` and `describe` together stand for a mailbox entry whose OP is not listed. -/
structure Access where
  write : Bool
  describe : Bool
  complete : Bool
  index : Nat
  sub : Nat
  data : List Byte
  deriving DecidableEq, Repr

/-- What debug level 1 opens at the control cores (R405): halt, resume, and access to their memory. -/
inductive DebugOp where
  | halt (core : Nat)
  | resume (core : Nat)
  | read (addr n : Nat)
  | write (addr : Nat) (data : List Byte)
  deriving DecidableEq, Repr

/-- The fields of the function's configuration space that the spec names (R302, R303, R306, R308, R321, R322). -/
inductive ConfigField where
  | identity                  -- Vendor ID, and Device ID above it
  | command                   -- bit 1: memory space enable
  | classCode
  | bar (n : Nat)             -- the attribute bits of BAR n
  | maxPayload                -- 0 to 2: 128, 256, 512 bytes
  | maxRead                   -- 0 to 5: 128 to 4,096 bytes
  | aerSeverity               -- the severity of each uncorrectable error
  | bar2Size                  -- size of BAR2, log2 of MiB
  | msix                      -- bit 14: function mask
  | power                     -- bit 3: No_Soft_Reset; bits 1 to 0: the power state
  deriving DecidableEq, Repr

/-- A configuration request: the field, and the value of a write. -/
structure ConfigAccess where
  field : ConfigField
  write : Option Nat
  deriving DecidableEq, Repr

/-- The target of a REGISTER_WRITE: a dictionary access by SDO, whole or (`more`) the first part of a segmented
download; a BAR write; the EtherCAT controller's own registers, whose writes read an SII word (R333) or open a port whose
link comes up (R345); a read of SM3 (R331); the level of TRST_N (R437); an upset of the shared SRAM (R347); the
interrupt-controller window, which control cores write and read (R353); the test port's access to the cores (R405); a field of the configuration space (R302 to R308, R321, R322). Those that the
table has no row of their own for are here (log 158). -/
inductive RegTarget where
  | sdo (a : Access) (more : Bool)
  | bar (bar offset size : Nat) (value : Nat)
  | siiRead (word : Nat)
  | linkUp (port : Nat)
  | inputsRead
  | trst (high : Bool)
  | sramUpset (addr : Nat) (double : Bool)
  | window (offset value : Nat)
  | windowRead (offset : Nat)
  | debug (op : DebugOp)
  | config (a : ConfigAccess)
  deriving DecidableEq, Repr

/-- The mailbox as the MainDevice has set it in the sync managers: start and length of SM0 and of SM1 (R331). -/
structure MailboxCfg where
  sm0 : Nat
  sm0Len : Nat
  sm1 : Nat
  sm1Len : Nat
  deriving DecidableEq, Repr

/-- The cycle that the MainDevice has set, and where SYNC1 lies after SYNC0, both in ns (R333, R335); where SM2 and SM3
start, and whether both work in three-buffer mode (R331). -/
structure CycleCfg where
  sync0Ns : Nat
  sync1Ns : Nat
  sm2 : Nat
  sm3 : Nat
  threeBuffer : Bool
  deriving DecidableEq, Repr

/-- What CONTROL carries (R288): the bring-up exchange, a spare switch, or a step record. -/
inductive ControlMsg where
  | identity (rack package role : Nat) (variant : Variant)
  | spareSwitch (lane : Nat)
  | stepRecord (rack package step : Nat) (saturated : Bool) (maxima : List (Nat × F32 × Nat))
  deriving DecidableEq, Repr

/-- A request of SDO Information (R331). -/
inductive SdoInfo where
  | objectList | object (index : Nat) | entry (index sub : Nat)
  deriving DecidableEq, Repr

/-- A mailbox protocol that R331 does not support. -/
inductive MailboxKind where
  | eoe | soe | aoe | voe
  deriving DecidableEq, Repr

/-- The MSI-X mask written by the host: one vector's mask bit, or the function mask (R321). -/
inductive MsixMask where
  | vector (v : Nat) | function
  deriving DecidableEq, Repr

/-- The commands: one constructor per row of spec/opcode_table.json, in the table's order. -/
inductive Instr where
  -- timebase, line and takes
  | sync0 (dt : Nat) (dcTime : Nat)
  | processDataUpdate (dt : Nat) (data : List Byte)
  | advPulse (dt : Nat) (width : Nat)
  | advSilence (dt : Nat)
  | slate (dt : Nat) (width : Nat)
  | earlyClose (dt : Nat)
  | selfSlate (dt : Nat)
  | randomTableFillDone (phys : Nat)
  | reelPlacement (dt : Nat)
  | dailiesSwitch (dt : Nat)
  | cueFire (dt : Nat)
  -- tile commands
  | streamFetch (tile : Nat)
  | move (tile cycles : Nat)
  | fold (tile cycles : Nat)
  | mma (tile : Nat)
  | smma (tile : Nat)
  | runFormation (tile : Nat)
  | runComplete (tile cycles : Nat)
  | drainConvert (tile cycles : Nat)
  | drainBias (tile cycles : Nat)
  | drainReluDerivative (tile cycles : Nat)
  | drainGeluDerivative (tile cycles : Nat)
  | drainSiluDerivative (tile cycles : Nat)
  | drainAdamw (tile cycles : Nat)
  | drainSgdMomentum (tile cycles : Nat)
  | add (tile cycles : Nat)
  | mul (tile cycles : Nat)
  | fma (tile cycles : Nat)
  | affine (tile cycles : Nat)
  | relu (tile cycles : Nat)
  | gelu (tile cycles : Nat)
  | silu (tile cycles : Nat)
  | softmax (tile cycles : Nat)
  | sum (tile cycles : Nat)
  | amax (tile cycles : Nat)
  | topk (tile cycles : Nat)
  | layernorm (tile cycles : Nat)
  | rmsnorm (tile cycles : Nat)
  | quantise (tile cycles : Nat)
  | sample (tile cycles : Nat)
  | gather (tile cycles : Nat)
  | scatterAdd (tile cycles : Nat)
  | predict (tile cycles : Nat)
  | predictAudit (tile cycles : Nat)
  | trim (tile cycles : Nat)
  | tipin (tile cycles : Nat)
  | scan (tile cycles : Nat)
  | check (tile cycles : Nat)
  | routeSelect (tile cycles : Nat)
  | routeDispatch (tile cycles : Nat)
  | routeCombine (tile cycles : Nat)
  | randRaw (tile cycles : Nat)
  | randUniform (tile cycles : Nat)
  | randBernoulli (tile cycles : Nat)
  | randNormal (tile cycles : Nat)
  | signalAdd (tile cycles : Nat)
  | remoteSignal (tile cycles : Nat)
  | remoteFence (tile cycles : Nat)
  | armCue (tile cycles : Nat)
  | wait (tile cycles : Nat)
  | waitTimeout (tile cycles : Nat)
  | snFlagAdd (die : Nat)
  | put (tile cycles : Nat)
  | putWithSignal (tile cycles : Nat)
  | get (tile cycles : Nat)
  | acc (tile cycles : Nat)
  | replayInPlace (tile : Nat)
  -- fabric
  | packetPut (port : Nat) (pkt : Packet)
  | packetPutSignal (port : Nat) (pkt : Packet)
  | packetGetReq (port : Nat) (pkt : Packet)
  | packetSignal (port : Nat) (pkt : Packet)
  | packetAcc (port : Nat) (pkt : Packet)
  | packetResponse (port : Nat) (pkt : Packet)
  | packetGetData (port : Nat) (pkt : Packet)
  | packetControl (port : Nat) (pkt : Packet) (msg : ControlMsg)
  | packetIdle (port : Nat) (pkt : Packet)
  | packetCorrupt (port : Nat)
  | roundCombine (tile : Nat)
  | reorderHoldExpiry (dt : Nat) (src : SrcId)
  | remoteTimeout (dt : Nat) (tile : Nat)
  | reissue (dt : Nat) (tile : Nat)
  | wavelengthFail (port lane : Nat)
  | peerSilence (dt : Nat) (port : Nat)
  | laserLow (dt : Nat) (input : Nat)
  | laserRestored (dt : Nat) (input : Nat)
  | bringupRetry (dt : Nat) (port : Nat)
  | fabricUpTimeout (dt : Nat)
  -- steps
  | stepFinal
  | stepRecordLapse (dt : Nat) (rack package : Nat)
  | skipVerdict
  -- memory and networks
  | patrolScrub (burst : Nat)
  | stackLost (stack : Nat)
  | segmentFailed (die column : Nat)
  | bridgeLaneFail (group direction : Nat)
  | arbCommit (path : Path) (value : Nat)
  | arbCommitInstant (dt : Nat)
  -- fences and control complex
  | blockFence (block : Block)
  | sequencerStall (dt : Nat) (phys : Nat)
  | cnRequestTimeout (dt : Nat) (block : Block)
  | blockSelfTestDone (block : Block) (passed : Bool)
  | coreWatchdogExpiry (core : Nat)
  | deviceWatchdogExpiry (dt : Nat)
  | raise (source : Nat)
  | coalesceTimeRelease (dt : Nat) (group : Nat)
  | pendClear (group bits : Nat)
  | eoi (core : Nat)
  | hostEventsClear (path : Path) (group bits : Nat)
  | msixUnmask (which : MsixMask)
  -- PCI Express
  | configRequest
  | functionLevelReset (dt : Nat)
  | d3hotEntry
  | d0Return
  | linkDegrade (width : Nat)
  | malformedTlp
  | poisonedWrite
  | unexpectedCompletion
  | completionTimeout (read : HostRead)
  | bar2Read (offset size : Nat)
  | bar2Write (offset : Nat) (data : List Byte)
  | ingestTailWrite (ring value : Nat)
  | ingestEnableWrite (ring : Nat) (enable : Bool)
  | ingestDescriptor (ring : Nat) (desc : BitVec 256)
  | ingestComplete (ring : Nat) (data : List Byte)
  | answerPublish (dt : Nat)
  | loadReel
  | saveContext
  | restoreContext
  | writeFirmware (data : List Byte)
  | attest
  | bootOtherOnce
  | doorbell (tag : Nat)
  -- dictionary
  | registerWrite (target : RegTarget)
  | takeControlWrite (path : Path) (value : Nat)
  | combinationModeWrite (path : Path) (value : Nat)
  | positionSourceWrite (path : Path) (value : Nat)
  | tableLoad (path : Path)
  | tableClear (path : Path)
  | tableEntryWrite (path : Path) (high : Bool) (value : Nat)
  | fabricIdentityWrite (path : Path) (index sub value : Nat)
  | duplexSizeWrite (path : Path) (value : Nat)
  | resetCommand (path : Path) (value : Nat)
  | dictionaryResetStart (dt : Nat)
  | causeHistoryClear (path : Path) (value : Nat)
  | enterStandby (path : Path)
  | standbyEntry (dt : Nat)
  | leaveStandby (path : Path)
  | standbyExit (dt : Nat)
  | compactNow (path : Path)
  | journalErase (path : Path)
  | clearUser (path : Path) (value : Nat)
  | journalRecordDurable (dt : Nat) (bad : List (BitVec 256))
  | compaction (dt : Nat) (ok : Bool)
  | regionEraseDone (dt : Nat)
  | journalRestore (dt : Nat)
  | sdoDownloadSegment (data : List Byte) (last : Bool)
  | sdoInformation (req : SdoInfo)
  | sdoBlockTransfer
  | unsupportedMailbox (kind : MailboxKind)
  -- EtherCAT
  | initToPreop (mailbox : MailboxCfg)
  | preopToSafeop (sm2Len sm3Len : Nat) (cycle : CycleCfg)
  | safeopToOp
  | initToBoot
  | alStateFall (target : Nat)
  | syncError (dt : Nat)
  | sm2Watchdog (dt : Nat)
  | foeWrite (name : List Byte) (password : Nat)
  | foeData (data : List Byte) (last programmed : Bool)
  | foeRead
  | siiWrite (word value : Nat)
  -- reset, clocks, boot and self-test
  | pwrGoodFall (dt : Nat)
  | pwrGoodRise (dt : Nat)
  | rstNAssert (dt : Nat)
  | rstNRise (dt : Nat)
  | perstNAssert (dt : Nat)
  | perstNRise (dt : Nat)
  | cfgSenseSample (dt ohms : Nat)
  | clockGood (dt : Nat) (domain : Domain)
  | clockGoodTimeout (dt : Nat) (domain : Domain)
  | bootVerify (dt : Nat)
  | bistComplete (dt : Nat) (found : BistFinding)
  | tempSample (dt : Nat) (raw : List Nat)     -- the 16 raw die readings, then the stacks' reported temperatures
  | thermalRelease (dt : Nat) (raw : List Nat)
  | blockIdle (block : Block)
  -- JTAG
  | extest
  | idcode
  | samplePreload
  | dbgChallenge
  | dbgResponse (level : Nat) (keys sigEd sigMl : List Byte)
  | dbgStatus
  | scanEnable (readbackFails : Option Nat)
  | bypass (code : Nat)
  -- completions and remaining accesses
  | hostCommandComplete
  | tableLoadComplete
  | sdoUpload (complete : Bool) (index sub : Nat)
  | barRead (bar offset size : Nat)
  | errorCompletion (read : HostRead)
  | alwaysOnSupplyLoss
  | coreUncorrectableError (core : Nat)
  | sync0Absence (dt : Nat)
  deriving DecidableEq, Repr

end Sys2Proof
end

