-- ==== Sys2Proof/Decode.lean ====
section
/-!
DEFINITION. What a word of the opcode table spells. No row of spec/opcode_table.json gives bits (its "fields"
are empty and it has no "fixed"), so no word spells a command. The encodings the spec does give (the 64-byte
command record of R66 to R73, the fabric header of R279, a cue entry of R37, a descriptor of R97) are data in
the state, and are decoded in Machine/Operands.lean.
-/

namespace Sys2Proof

/-- The command that a word of the table spells: none, since the table gives no row any bits. -/
def decodeTableWord (_nbits _w : Nat) : Option Instr := none

end Sys2Proof
end

