-- ==== Sys2Proof/Config.lean ====
section
/-!
DEFINITION. What the spec leaves open. Every constant below is opaque: nothing in Lean can evaluate it or prove a
value of it, so a theorem holds for every value it may have. Each is named in an assumption log entry.
-/

namespace Sys2Proof.Config

open Sys2Proof

/-- A value the spec leaves undefined, one per index; the step supplies the index from `State.free` (log 4). -/
opaque freeValue : Nat → BitVec 64

/-- What a tile-store byte reads that nothing has written since its tile's last reset: by generation, physical
tile and address (R444, log 5). -/
opaque unspecifiedByte : Nat → Nat → Nat → Byte

/-- The same for a pair of the accumulator memory, by generation, physical tile and pair (R444, log 5). -/
opaque unspecifiedPair : Nat → Nat → Nat → BitVec 64

/-- The same for a running element of V24 to V31 (R444, log 5). -/
opaque unspecifiedReg : Nat → Nat → Nat → F32

/-- The same for a word of the random table before its first fill, by generation, physical tile and word (R213, log 162). -/
opaque unspecifiedWord : Nat → Nat → Nat → BitVec 64

/-- The payload bytes of a CONTROL packet, whose layout the spec does not state (R279, log 41). -/
opaque controlPayload : ControlMsg → List Byte

/-- What a byte of host memory holds that the part reads, by the index of the read and the address (log 11). -/
opaque hostByte : Nat → Nat → Byte

/-- LAYERNORM of one element: the row, epsilon, the gain and bias elements, and the element's position. The spec
gives no steps or roundings for it (log 12). -/
opaque layerNorm : List F32 → F32 → F32 → F32 → Nat → F32

/-- RMSNORM of one element, as `layerNorm` without mean and bias (log 12). -/
opaque rmsNorm : List F32 → F32 → F32 → Nat → F32

/-- The PRIORITY and TARGET that firmware gives a source before it enables interrupts (R354, log 13). -/
opaque firmwareSrcCfg : Nat → BitVec 32

/-- What the ACLK of a logical tile is taken from, by TB_COUNT and logical tile: R55 gives only its bound (log 136). -/
opaque aclk : Nat → Nat → Nat

/-- Where in the 125 µs of free run its latch comes (R335, log 152). -/
opaque freeRunPhase : Nat

/-- The firmware that a slot holds as shipped; every code ships with firmware in both slots (R440, log 1). -/
opaque shippedSlot : Nat → List Byte

/-- Where in the shared SRAM the body of an image is copied; the spec does not say (R396, log 186). -/
opaque bodyBase : Nat

/-- The text of 0x100A for a FIRMWARE_VERSION; the spec gives no form for it (R330, log 47). -/
opaque softwareVersion : Nat → List Byte

end Sys2Proof.Config
end

