-- ==== Sys2Proof/Machine/State.lean ====
section
/-!
DEFINITION. The state of the part as plain data: every register, FIFO, buffer, counter, mode and pin the
spec names, the queue of waiting commands, and the state right after reset.
Dictionary objects have one home, `State.objs`, keyed by index × 256 + subindex; an object that is not
listed reads as the Default column of its table row (Machine/Objects.lean), so `objs` is empty at reset.
-/

namespace Sys2Proof.Machine

/-- Why the machine stops. No meaning of this model raises one: every command of the table has an effect the
spec describes in every state (a request the spec refuses is answered with a status, which is a next state). -/
inductive Fault where
  /-- Kept for a command with no defined effect; raised by no meaning (safe: nothing stops on it). -/
  | noEffectDefined
  deriving DecidableEq, Repr

/-- Why a command has no meaning here. -/
inductive Refusal where
  /-- Raised only by an arm of `exec` whose command has no meaning yet (safe: nothing is claimed of it). -/
  | notModelled (mnemonic : String)
  deriving DecidableEq, Repr

/-! ## What leaves the part -/

/-- What the part drives onto its boundary, in the order in which it does so. -/
inductive Out where
  | hostWrite (addr : Nat) (data : List Byte)      -- memory write TLP
  | hostRead (addr len : Nat)                      -- memory read request
  | msix (vector : Nat)                            -- MSI-X message (R321)
  | completion (data : List Byte)                  -- completion with data
  | completerAbort | unsupportedRequest | requestRetry | configAccepted
  | configData (value : Nat)                       -- completion of a configuration read
  | aer (kind : Nat) (fatal : Bool)                -- AER report; kinds as DETAIL of 0x210 (R419), 6 completer abort
  | sdoOk | sdoData (data : List Byte) | sdoAbort (code : Nat) | sdoContinue
  | sdoObjectList (indices : List Nat) | sdoDescription (fields : List Nat)
  | mailboxUnsupported
  | siiData (word value : Nat)                     -- an SII read (R333)
  | processInputs (data : List Byte)               -- the newest buffer of SM3, as the MainDevice reads it (R331)
  | windowData (offset value : Nat)                -- a core's read of the interrupt-controller window (R353)
  | alStatus (state code : Nat)
  | foeAck | foeError (code : Nat)
  | packet (port : Nat) (pkt : Packet)
  | control (port : Nat) (pkt : Packet) (msg : ControlMsg)
  | tdo (data : List Byte)
  deriving DecidableEq, Repr

/-! ## Identity and fuses (class F) -/

/-- What manufacture fixed: the variant (R1), identity (R329), factory region (R340, R346) and fuses (R394). -/
structure Part where
  variant : Variant
  siliconRev : Nat
  serial : Nat
  hardwareVersion : List Byte
  factoryCrcOk : Bool
  factoryDate : Nat
  factoryCal : Tab Nat            -- key n × 256 + subindex, value in the quantity's raw encoding (R345)
  factoryBist : BistFinding       -- R391
  sii : Tab Nat                   -- SII image words (R331)
  factoryDigest : BitVec 384      -- SHA3-384 of the factory region (R403)
  endorsement : List Byte         -- 64 + 3,309 bytes (R402)
  deviceSecret : BitVec 256
  keyDigests : List (BitVec 384)
  keyRevoked : BitVec 4
  svnFloor : Nat                  -- blown bits of the thermometer code, 0 to 64
  debugDigest : BitVec 384
  debugDisable : Bool
  locked : Bool
  tripThreshold : Nat
  tripRelease : Nat
  deriving DecidableEq, Repr

/-! ## Timebase and takes -/

/-- The timebase unit (R20, R21) and line position (R23 to R28, R32, R33). -/
structure TimeSt where
  running : Bool                  -- the timebase domain is released
  tb : Nat                        -- TB_COUNT
  dcActive : Bool                 -- disciplined by distributed clocks
  slewLeft : Int                  -- counts still to be slewed (R21)
  slewPhase : Nat                 -- counts since the slewing last earned one (R21), below 1,024
  period : Nat                    -- P in TB counts
  advSeen : Bool                  -- an ADV pulse has been accepted since the restore
  lastAdv : Nat                   -- timestamp of the last accepted ADV pulse
  anchor : Nat                    -- take opening or re-anchoring
  advSinceAnchor : Nat
  silenceRaised : Bool            -- R32: once per silence
  advApplied : Option Nat         -- timestamp of an ADV pulse applied ahead of a slate with the same one (R35)
  lastSlate : Option Nat          -- timestamp of the last accepted slate
  lotLatched : Option Nat         -- last latched PLANT_LOT_COUNT
  plantWritten : Bool             -- an RxPDO update arrived since the last latch
  plantValid : Bool               -- a PLANT_POSITION has been latched in this take
  plantPrev : Nat                 -- previous latched PLANT_POSITION of the take (raw)
  plantWraps : Nat                -- times 65,536 wafers to add (R25)
  plantBase : Option Nat          -- plant position at which the take opened, once known (R27)
  lotWords : List Nat             -- PLANT_LOT_COUNT, LOT_ID and PLANT_WORD 1 to 48 at the last latch (R337)
  plantPos : Nat                  -- unsaturated position of the last latch, 16.16
  plantAdvance : Nat              -- advance per cycle between the last two latches
  plantTb : Nat                   -- TB_COUNT of the last latch
  plantCycle : Nat                -- TB counts between the last two latches
  plantHeld : Nat                 -- position already shown in this take; never falls
  plantLimitTb : Nat              -- TB_COUNT at which the rate limit last let the integer part rise
  plantLost : Bool                -- process-data source lost (R28)
  deriving DecidableEq, Repr

/-- One armed cue (R38): the 16-byte entry and the order of its arming. -/
structure ArmedCue where
  entry : BitVec 128
  order : Nat
  ofNewReel : Bool                -- armed for a reel whose activation is not finished (R60)
  deriving DecidableEq, Repr

/-- A take's answers: the wafer list that is still to publish and what the records must carry (R52, R53). -/
structure TakeAnswers where
  take : Nat
  wafers : List Nat               -- every WAFER_INDEX ingested, in ingest order (R315)
  toPublish : List Nat            -- those not yet published
  selfSlated : Bool
  lateAnchored : Bool
  closed : Bool
  valid : Bool                    -- cleared by a failure (R411)
  faultMasked : Bool              -- R408
  deriving DecidableEq, Repr

/-- The open take, the governor and the counts that belong to the take (R33 to R48, R361). -/
structure TakeSt where
  opened : Bool                   -- a take has opened since reset
  openTb : Nat
  closedTb : Option Nat           -- close timestamp of the take that closed last (R408)
  closedTake : Nat                -- its number
  selfSlated : Bool
  lateAnchored : Bool
  lotId : Nat                     -- LOT_ID of the take's lot block (R337, R361)
  slates : Nat                    -- accepted slates within the open take
  inForce : Tab Nat               -- values in force of the objects that take force at take openings
  cues : List ArmedCue            -- armed and unfired, in arming order, at most 1,024
  cueOrder : Nat
  heldCues : List ArmedCue        -- fired cues of a reel whose activation is not finished
  margin : Option Int             -- DL − F of the last forecast of the open take, 16.16
  levelOpen : Nat
  forecastMiss : Bool
  overrun : Bool
  prefetchCues : Nat
  setFlagCues : Nat
  cuesDiscarded : Nat
  faultsMasked : Nat
  roleMigrations : Nat
  correctable : Nat
  published : Nat
  publishedInvalid : Nat
  latePublished : Nat
  failed : Bool                   -- a failure of R411 has occurred in the open take
  answers : List TakeAnswers      -- oldest take first; the open take last
  maskReports : List (Nat × Nat × Nat)  -- TENSOR_ID, present, NPOS (R150)
  trimRan : Bool
  tipinShed : List Nat            -- policy classes
  tipinRan : List Nat
  audited : Tab Nat               -- per predictor (R154)
  misses : Tab Nat
  dispatchNacks : Nat
  eccCorrected : Nat
  eccFromPartner : Nat
  eccLost : Nat
  fabric : Tab Nat                -- fabric counters of the take, by subindex of 0x2600
  replayedInPlace : List (Nat × Nat)   -- logical tile, command: one replay in place per take (R409)
  deriving DecidableEq, Repr

/-! ## Reels and tiles -/

/-- One phase entry of a reel (R443). -/
structure PhaseEntry where
  code : Nat
  reserved : Nat
  slack : Nat
  deriving DecidableEq, Repr

/-- A loaded reel: where its image lies in HBM and what the loader read of it (R58, R443). -/
structure Reel where
  base : Nat
  length : Nat
  repro : Bool
  modelId : Nat
  tileBudget : Nat
  dx0Share : Nat
  phases : List PhaseEntry
  cues : List (BitVec 128)
  streams : List (Nat × Nat)      -- OFFSET, RECORD_COUNT; entry l × PHASE_COUNT + j
  reservations : List (BitVec 128) -- the reservation table: four reserved cycle counts of each record, in stream order
  descriptorCount : Nat
  descriptorTable : Nat
  seed : BitVec 64
  crc : BitVec 32
  measurement : BitVec 384
  deriving DecidableEq, Repr

/-- The reels (R60). -/
structure ReelSt where
  active : Option Reel
  staged : Option Reel
  activating : Option Reel        -- an activation that has not finished step 3
  activatedTb : Nat               -- TB_COUNT at which the active reel became active (R168)
  deriving DecidableEq, Repr

/-- What the array did for one command of a run, before the run completes (R122). -/
structure ArrayDone where
  status : Status
  count0 : Nat
  count1 : Nat
  rejected : Nat
  oor : Nat
  deriving DecidableEq, Repr

/-- Where a queued command stands. -/
inductive EntryState where
  | queued                          -- fetched, not started
  | inRun (done : Option ArrayDone) -- member of the array's run (R121)
  | issued                          -- at the SN hub (WAIT) or with the fabric port (remote operations)
  deriving DecidableEq, Repr

/-- One place of the 64-record command queue (R61). -/
structure QEntry where
  id : Nat
  record : BitVec 512
  pos : Nat                       -- its place in the tile's history
  step : Nat                      -- step counter at its start (R199)
  isReplay : Bool
  applied : Option Status         -- replay of a command applied before the fence, with its status (R181)
  sigmas : Int × Int              -- σ of A and of B, as a member of a run read them at its start (R87)
  st : EntryState
  deriving DecidableEq, Repr

/-- A command fetched since the reel became active, kept for the replay rules (R57, R180, R181, R409). -/
structure HistEntry where
  phase : Nat                     -- phase entry of the reel
  idx : Nat                       -- record index in its stream
  record : BitVec 512
  step : Option Nat               -- step counter when it first issued (R180)
  status : Option Status          -- status of its last completion
  done : Bool                     -- it has completed since the last restart that repeats it (R57)
  deriving DecidableEq, Repr

/-- A started stream of a logical tile: the next record to fetch and the number of records. -/
structure Stream where
  phase : Nat
  next : Nat
  count : Nat
  deriving DecidableEq, Repr

/-- An operation of a tile's fabric port (R291), kept until its command completes. -/
structure RemoteOp where
  entry : Nat                     -- id of the queue entry it belongs to
  pos : Nat                       -- place of its command in the tile's history
  dst : Nat                       -- 64 × rack + package
  own : Bool                      -- carried out inside the part (R262)
  channel : Nat
  firstSeq : Nat
  lastSeq : Nat
  packets : List Packet
  issuedTb : Nat
  sent : Bool                     -- it has its numbers
  left : Nat                      -- how many of its packets have left the port (R293)
  base : Status                   -- what reading LOCAL gave
  answer : Option Status
  reissuing : Bool                -- answered ISOLATED and sent again (R413)
  isDispatch : Bool
  getLocal : Option Nat           -- descriptor index of a GET's LOCAL
  deriving DecidableEq, Repr

/-- A logical tile: everything that belongs to the logical number (R57, R61, R72, R74, R267). -/
structure LogTile where
  phys : Option Nat
  queue : List QEntry
  nextId : Nat
  streams : List Stream
  hist : List HistEntry           -- in queue order
  replays : List HistEntry        -- commands to fetch again before the streams (R57)
  restartAt : Option Nat          -- unplaced: where in the history the replay will start
  lastDie : Nat                   -- die of the tile that held it last (R57)
  slackUsed : Tab Nat             -- replay cycles of the take by phase entry (R410)
  replayTo : Option Nat           -- last place of the history whose repetition is a replay (R180)
  run : Option (List Nat)         -- ids of the run's members
  staged : Option (List Nat)      -- ids of a run whose staging goes on while the last block of `run` streams (R121)
  ring : Tab (BitVec 256)         -- completion ring by place 0 to 255
  writeIndex : Nat
  flags : Tab Nat                 -- SN flags, 32-bit counters
  stepCtr : Nat
  stepLevel : Nat
  ops : List RemoteOp
  seqs : Tab Nat                  -- next E2E_SEQ by 4 × (64 × rack + package) + channel
  phaseCycles : Tab Nat           -- cycles of the take by phase code
  completed : Nat                 -- commands completed in the take
  inPlace : Bool                  -- the last restart was a replay in place (R409)
  replayPending : Option Nat      -- history place from which a replay in place will start (R409)
  eccFaults : List (Nat × Option Nat)  -- failed commands that a replay must mask, each with the take of its fault (R408, R409)
  deriving DecidableEq, Repr

/-- What the words of a tile's random table are (R213, R406). -/
inductive TableFill
  | unfilled                      -- nothing since the tile's reset
  | filled (seed : BitVec 64)
  | zeroed                        -- step 3 of R406
  deriving DecidableEq, Repr

/-- A physical tile: what lies behind its isolation wrapper (R55, R374). -/
structure PhysTile where
  epoch : Nat                     -- generation of its unspecified contents (R444)
  store : Tab Byte                -- tile store bytes that have been written
  am : Tab (BitVec 64)            -- AM pairs by (slot × 64 + row) × 64 + column; value in bits 31..0, error above
  occupied : Tab Nat              -- occupied stack levels of a reproducible slot, bit per level (R191)
  vregs : Tab F32                 -- V24 to V31, running element 0 to 1,023 (R78)
  vgen : Nat                      -- generation of the unspecified contents of V24 to V31
  filling : Bool                  -- a random-table fill runs (R214)
  tableFill : TableFill           -- the words the random table holds
  parityErrors : List Nat         -- table words with a parity error (R216)
  storeErrors : List Nat          -- tile-store bytes with a correctable error (R407)
  amErrors : List Nat             -- pairs of the accumulator memory with a correctable error (R407)
  fences : Nat                    -- since the last reset (R375)
  fenced : Bool
  unusable : Bool
  sleeping : Bool
  waking : Bool                   -- asleep with its power and clock coming up (R381)
  idle : Bool
  conv : Tab Nat                  -- (class × 17 + format slot) × 3 + kind; kinds 0 saturations, 1 vanishes, 2 converted
  quireViolations : Nat
  indexOor : Nat
  tokensDropped : Nat
  choicesDropped : Nat
  tokensSkipped : Nat
  deriving DecidableEq, Repr

/-! ## Memory, networks, routing -/

/-- HBM (R251 to R259), the bulk network's segments (R264), the bridge (R265) and the SN hubs (R267). -/
structure MemSt where
  hbm : Tab Byte                  -- unlisted bytes read zero (R389)
  badBursts : Tab Nat             -- burst number to 1 correctable, 2 uncorrectable
  patrolFound : List Nat          -- bursts that the patrol scrub could not correct (R258)
  failedSegments : List Nat       -- 12 × die + column
  sparedLanes : List Nat          -- 2 × group + direction
  closedGroups : List Nat
  snQueue : List (Nat × Nat × Nat)  -- additions on their way to the hub: logical tile, flag, addend
  commitAt : Option Nat           -- instant of a pending arbiter commit (R274)
  commitValues : Tab Nat          -- shadow priorities the commit copied
  deriving DecidableEq, Repr

/-- The destination table (R239 to R242): staged and in force, entries 0 to 4,095 experts, 4,096 to 5,119 layers. -/
structure RouteSt where
  staged : Tab (BitVec 128)
  inForce : Tab (BitVec 128)
  loading : Option (Status × Tab (BitVec 128))  -- a running load: its status and the checked image
  restart : Bool                  -- the load starts again from the image (R350)
  loadAddr : Nat                  -- where the image of the last load lies
  deriving DecidableEq, Repr

/-- One version of the step-dependent values (R200). -/
structure Version where
  step : Nat
  lossScale : Int
  sigma : Tab Int
  deriving DecidableEq, Repr

/-- A member's part of a step: the record of R199 as it was received. -/
structure StepRecord where
  member : Nat                    -- 64 × rack + package
  step : Nat
  saturated : Bool
  maxima : List (Nat × F32 × Nat) -- scale entry, magnitude, ELEM_TYPE
  deriving DecidableEq, Repr

/-- Steps, scales and loss scale (R199 to R208). -/
structure StepSt where
  participants : List Nat
  nextFinal : Nat                 -- the step that becomes final next
  versions : List Version         -- newest first
  exact : Tab Int                 -- σ of exact entries
  history : Tab (List F32)        -- amax histories, newest first
  format : Tab Nat                -- ELEM_TYPE of the last delivery of a final step per entry, or as written
  shown : Tab Nat                 -- ELEM_TYPE of the last delivery per entry, or as written (R212)
  deliveries : List (Nat × Nat × F32 × Nat)  -- step, entry, magnitude, ELEM_TYPE
  saturated : List Nat            -- steps with a class-2 saturation on this package
  ownSentTb : Tab Nat             -- step to TB_COUNT at which its own part became final
  records : List StepRecord
  lapsed : List (Nat × Nat)       -- member, step
  skips : Tab Nat                 -- step to its skip verdict, 1 SATURATED (R208)
  deriving DecidableEq, Repr

/-! ## Fabric -/

/-- Who presents a packet at an optical injection arbiter: its place in requester order (own-die tiles 0 to 95, own-die
optical ports 96 to 111, the control complex 112) and its requester class (R271, log 168). -/
structure Via where
  requester : Nat
  cls : Nat
  deriving DecidableEq, Repr

/-- A packet at a transmitting port, with what a CONTROL packet says. -/
structure TxEntry where
  pkt : Packet
  msg : Option ControlMsg
  via : Via
  deriving DecidableEq, Repr

/-- A packet that arrived ahead of a missing number, with who presents its answer. -/
structure Arrived where
  pkt : Packet
  via : Via
  deriving DecidableEq, Repr

/-- One optical port (R276 to R282, R287, R288, R299, R301). -/
structure Port where
  state : Nat                     -- STATE of PORT_STATUS
  rxSpare : Option Nat            -- received wavelength that λ8 replaces
  txSpare : Option Nat            -- transmitted wavelength that λ8 replaces
  peerRack : Nat
  peerPackage : Nat
  peerRole : Nat
  txSeq : Nat                     -- next LINK_SEQ sent
  rxSeq : Nat                     -- next LINK_SEQ expected
  replayBuffer : List TxEntry     -- sent and unacknowledged, at most 2,048
  txQueue : List TxEntry          -- waiting for a credit or for the replay buffer
  owners : List Nat               -- per channel, the most recent owner of its injection arbiter (R272)
  credits : List Nat              -- per channel
  owed : List Nat                 -- buffers freed here and not yet returned, per channel
  waited : List Nat               -- packets of higher channels that passed a waiting channel
  replays : Nat                   -- replays in a row of the oldest packet
  nakWanted : Bool                -- discarding until the replay arrives
  unusable : Bool                 -- failed BIST (R389) or marked unusable
  dead : Bool                     -- laser input low: held down until restored
  deriving DecidableEq, Repr

/-- An operation whose packets are arriving at its destination. -/
structure OpTrack where
  inOp : Bool
  first : Nat                     -- E2E_SEQ of its first packet
  refusal : Option Status         -- it was refused; its later packets are discarded
  worst : Status
  record : Option Nat             -- staging record of the contribution under way (R296)
  deriving DecidableEq, Repr

/-- The destination's view of one E2E stream (R292, R293). -/
structure RxStream where
  src : SrcId
  next : Nat
  refused : List Nat
  held : List Arrived
  holdTb : Option Nat
  cur : OpTrack                   -- the operation arriving in order
  re : OpTrack                    -- the re-issued operation arriving (R413)
  deriving DecidableEq, Repr

/-- The operation that a stream passing this package is in: the number of its last packet, whether more are to come,
and how it was refused here, if it was (R297). -/
structure TransitTrack where
  src : SrcId
  dst : Nat
  seq : Nat
  inOp : Bool
  status : Option Status
  deriving DecidableEq, Repr

/-- A claimed staging record of a reduction round (R296). -/
structure StageRec where
  kslice : Nat
  rack : Nat
  package : Nat
  tile : Nat
  complete : Bool
  deriving DecidableEq, Repr

/-- The staging records of a round, by the tile and address of its result buffer. -/
structure Round where
  tile : Nat
  addr : Nat
  recs : List StageRec
  deriving DecidableEq, Repr

/-- The optical fabric. -/
structure FabricSt where
  enabled : Bool                  -- ports enabled after the restore (R299)
  enabledTb : Nat
  ports : Tab Port
  rx : List RxStream
  transit : List TransitTrack
  rounds : List Round
  ready : List (Nat × Nat)        -- rounds whose contributions have all arrived: tile, address
  deriving DecidableEq, Repr

/-! ## Host interface -/

/-- An ingest descriptor in flight (R313): its bits and its ring index. -/
structure InFlight where
  desc : BitVec 256
  index : Nat
  verdict : Status                -- OK, ZERO_WORK, or the status with which it will end
  deriving DecidableEq, Repr

/-- One ingest ring block (R312). -/
structure Ring where
  base : Nat
  sizeLog2 : Nat
  enable : Bool
  tail : Nat
  head : Nat
  status : Nat
  headWb : Nat
  inFlight : List InFlight
  deriving DecidableEq, Repr

/-- The answer ring block (R316). -/
structure AnswerRing where
  base : Nat
  sizeLog2 : Nat
  enable : Bool
  writeIndex : Nat
  readIndex : Nat
  overflows : Nat
  indexWb : Nat
  deriving DecidableEq, Repr

/-- The host command block (R319) and what the running command will report. -/
structure CmdBlock where
  busy : Bool
  status : Nat
  addr : Nat
  space : Nat
  length : Nat
  resultLength : Nat
  result : Option (Status × Nat)  -- status and RESULT_LENGTH that completion will set
  waiting : Option (Nat × Nat × Nat)  -- CMD, address and length of a command whose data comes from the host
  data : List Byte                -- what the host holds at its address, as far as the sender gives it
  deriving DecidableEq, Repr

/-- The PCI Express function (R302 to R322). -/
structure HostSt where
  linkWidth : Nat
  widest : Nat                    -- the widest width at which the link may train before the next reset (R305)
  linkLost : Bool                 -- the link could not train at any width (R412)
  d3hot : Bool
  windowBase : Nat
  bar2Log2 : Nat                  -- BAR2 size, log2 bytes
  memSpace : Bool                 -- memory space enabled (R322)
  maxPayload : Nat                -- 0 to 2: 128, 256, 512 bytes (R302)
  maxRead : Nat                   -- 0 to 5: 128 to 4,096 bytes (R302)
  aerSeverity : Nat               -- AER uncorrectable severity, 1 fatal (R322)
  rings : Tab Ring
  answers : AnswerRing
  segments : Tab (BitVec 64)      -- as written
  segmentsInForce : Tab (BitVec 64)
  cmd : CmdBlock
  msixTable : Tab Nat             -- table bytes as 32-bit words by word number
  unmaskedVectors : List Nat      -- vectors whose mask bit is clear
  functionMask : Bool
  msixPending : List Nat
  activation : Tab Byte           -- bytes this part has written to the host activation store (R317)
  deriving DecidableEq, Repr

/-- The BAR4 mailbox (R338). -/
structure MailboxSt where
  request : Tab Byte
  response : Tab Byte
  doneTag : Nat
  busy : Bool
  status : Nat
  deriving DecidableEq, Repr

/-- Work of the dictionary server: the accesses of one request and the answers so far (R328, R339). -/
structure Job where
  path : Path
  tag : Nat
  todo : List Access
  answers : List (Access × Status × List Byte)
  deriving DecidableEq, Repr

/-- The dictionary server (R328). -/
structure ServerSt where
  jobs : List Job                 -- the first one is being served
  kWrite : Option (List (Nat × Nat))  -- values of a write whose journal record is not yet durable: key, value
  halted : Bool                   -- reset command answered (R369)
  haltedTb : Nat
  deriving DecidableEq, Repr

/-! ## EtherCAT, journal, interrupts, log -/

/-- The EtherCAT SubDevice controller (R331 to R336). -/
structure EcatSt where
  released : Bool
  al : Nat                        -- 1 INIT, 2 PREOP, 3 BOOT, 4 SAFEOP, 8 OP
  alCode : Nat
  alError : Bool
  sm2Valid : Bool                 -- one valid SM2 buffer since entering SAFEOP
  sync0At : Option Nat            -- TB_COUNT of the last SYNC0 event in OP
  sync1Ns : Nat                   -- SYNC1 after SYNC0 in ns, as the MainDevice sets distributed clocks (R335)
  sync1At : Option Nat            -- TB_COUNT of the SYNC1 event that is still to come
  segment : Option Access         -- a segmented download under way
  foe : Option Nat                -- bytes received of an open FoE write
  foeHeld : List (List Byte × Bool × Bool)  -- data held until the restore (R377): bytes, start of a write, programmed
  rxBuffer : List Byte            -- the newest complete buffer of SM2 (R331, R333)
  txImage : List Byte             -- the newest complete buffer of SM3: the input image of the last latch (R335, R336)
  deriving DecidableEq, Repr

/-- The continuity journal (R340 to R343). -/
structure JournalSt where
  j0 : Tab (BitVec 256)           -- programmed slots; an unlisted slot is erased (all ones)
  j1 : Tab (BitVec 256)
  lastSeq : Nat
  nextSlot : Nat
  erase0 : Nat                    -- ERASE_COUNT
  erase1 : Nat
  erased0 : Bool                  -- fully erased
  erased1 : Bool
  compacting : Bool
  worn : Bool                     -- a write failed three times in the active region
  fwRecords : Tab Nat             -- firmware's own records in force, by index × 256 + subindex
  clearing : Bool                 -- the group pending is CLEAR_USER's
  deriving DecidableEq, Repr

/-- One core's interrupt block (R355) and its role state (R347, R348). -/
structure CoreSt where
  running : Nat
  stack : List Nat                -- oldest first
  underflows : Nat
  roles : List Nat
  condition : Nat                 -- 0 running, 1 fenced, 2 unusable
  fences : Nat
  halted : Bool                   -- by debug level 1 (R405)
  deriving DecidableEq, Repr

/-- The interrupt controller (R352 to R359). -/
structure IntrSt where
  pend : Tab Nat                  -- 32 bits per group
  srcCfg : Tab Nat                -- PRIORITY and TARGET per source
  cores : Tab CoreSt
  counts : Tab Nat                -- raises since the last release, per group
  first : Tab Nat                 -- TB_COUNT of the first of them
  sram : Tab Byte                 -- the 8 MiB of shared SRAM (R347): the bytes that are known (log 161)
  sramErrors : Tab Bool           -- bytes of it with an error, and whether it is a double-bit one (R347)
  migrations : Nat                -- role migrations since reset, shown by the dailies (R361)
  deriving DecidableEq, Repr

/-- An event detected before the journal restore (R417). -/
structure EarlyEvent where
  code : Nat
  unit : Nat
  status : Nat
  detail : Nat
  tb : Nat
  repeats : Nat
  raised : Bool                   -- its source was raised at once (R352)
  deriving DecidableEq, Repr

/-! ## Reset, power, security -/

/-- Reset, clocks and power (R364 to R393): the always-on domain and the progress of the start-up timeline. -/
structure ResetSt where
  pwrGood : Bool                  -- pin levels; true is high
  rstN : Bool
  perstN : Bool
  asserted : Nat                  -- reset sources asserted, in the layout of R367
  lastCauses : Nat
  causeHistory : Nat
  resetCount : Nat
  ready : Bool
  cfgSampled : Bool
  cfgCode : Nat
  cfgFault : Bool
  fwRunning : Bool                -- firmware verified and the control complex released
  recovery : Bool                 -- recovery service of R399
  bistDone : Bool
  restored : Bool                 -- the continuity journal is restored
  domains : List Domain           -- released domains
  failedDomains : List Domain     -- no clock-good 10 ms after release (R373)
  bistFound : Option BistFinding  -- result waiting for the restore (R391)
  bistInForce : BistFinding
  laneFences : Tab Nat            -- fences since reset of blocks that are not tiles or cores
  unusableBlocks : List Block     -- blocks other than tiles and cores marked unusable
  fencedBlocks : List Block
  idleBlocks : List Block
  rawTemps : List Nat             -- last raw sample, 16 sensors (two's complement, 16 bits)
  hotSample : Bool                -- the last sample was at or above TRIP_THRESHOLD
  thermTrip : Bool                -- THERM_TRIP_N driven low
  alert : Bool                    -- ALERT_N driven low
  deriving DecidableEq, Repr

/-- The fields of the fuse block that the security domain takes in, once per reset (R394). -/
structure Fuses where
  deviceSecret : BitVec 256
  keyDigests : List (BitVec 384)
  keyRevoked : BitVec 4
  svnFloor : Nat
  debugDigest : BitVec 384
  debugDisable : Bool
  deriving DecidableEq, Repr

/-- The security domain, the firmware slots and the test port (R394 to R406). -/
structure SecSt where
  fuses : Option Fuses            -- what this boot has read of the fuse block (R394)
  slotA : Tab Byte                -- unlisted bytes are erased, 0xFF
  slotB : Tab Byte
  resultA : Nat                   -- R397
  resultB : Nat
  otherOnce : Option Nat          -- latch of BOOT_OTHER_ONCE: the slot to try first
  header : List Byte              -- 128 header bytes of the running image
  identity : Bool                 -- identity keys exist
  debugLevel : Nat
  debugFailures : Nat
  challenge : Option (BitVec 256)
  fuseLatch : Bool                -- fuse reading blocked (R406)
  zeroised : Bool
  scanEnabled : Bool
  scanFailStep : Nat              -- 0 none
  trstN : Bool                    -- the level of TRST_N (R437)
  jtagIr : Nat
  heldForScan : Bool              -- every other domain held in reset by step 1 of R406
  contextMeasurement : BitVec 384
  deriving DecidableEq, Repr

/-- The whole part. -/
structure State where
  part : Part
  objs : Tab Nat                  -- the object dictionary (R323), values that differ from their default
  time : TimeSt
  take : TakeSt
  reels : ReelSt
  phys : Tab PhysTile
  tiles : Tab LogTile
  mem : MemSt
  route : RouteSt
  steps : StepSt
  fabric : FabricSt
  host : HostSt
  mailbox : MailboxSt
  server : ServerSt
  ecat : EcatSt
  journal : JournalSt
  intr : IntrSt
  early : List EarlyEvent         -- events before the restore (R417)
  dailies : List (Tab Nat)        -- frozen sets not yet switched, oldest first (R362)
  rst : ResetSt
  sec : SecSt
  free : Nat                      -- the model's own: which free value is used next
  out : List Out                  -- the model's own: what has left the part, oldest first
  pending : List Instr            -- the model's own: commands waiting, first in, first out
  deriving DecidableEq, Repr

/-! ## Reset -/

/-- A finding with no failed block at the nominal VDD_CORE of R424. -/
def BistFinding.clean : BistFinding :=
  { failedTiles := [], failedCores := [], failedStacks := [], failedGroups := [], failedSegments := [],
    failedPorts := [], vddCore := [760, 760], clockOk := [true, true], durationMs := 0 }

/-- The part that `State.reset` describes: a TMN-5800 whose per-part values are zero (DESIGN CHOICE, log 1). -/
def Part.shipped : Part :=
  { variant := .tmn5800, siliconRev := 0, serial := 0, hardwareVersion := [], factoryCrcOk := true,
    factoryDate := 0, factoryCal := [], factoryBist := BistFinding.clean, sii := [], factoryDigest := 0,
    endorsement := [], deviceSecret := 0, keyDigests := [0, 0, 0, 0], keyRevoked := 0, svnFloor := 0,
    debugDigest := 0, debugDisable := false, locked := true, tripThreshold := 1680, tripRelease := 1440 }

/-- The timebase at reset: held at 0, free running, no pulse seen. -/
def TimeSt.reset : TimeSt :=
  { running := false, tb := 0, dcActive := false, slewLeft := 0, slewPhase := 0, period := 0, advSeen := false,
    lastAdv := 0, anchor := 0, advSinceAnchor := 0, silenceRaised := false, advApplied := none, lastSlate := none,
    lotLatched := none,
    plantWritten := false, plantValid := false, plantPrev := 0, plantWraps := 0, plantBase := none, lotWords := [], plantPos := 0,
    plantAdvance := 0, plantTb := 0, plantCycle := 0, plantHeld := 0, plantLimitTb := 0, plantLost := false }

/-- No take open, nothing armed, nothing counted. -/
def TakeSt.reset : TakeSt :=
  { opened := false, openTb := 0, closedTb := none, closedTake := 0, selfSlated := false, lateAnchored := false, lotId := 0, slates := 0, inForce := [],
    cues := [], cueOrder := 0, heldCues := [], margin := none, levelOpen := 0, forecastMiss := false,
    overrun := false, prefetchCues := 0, setFlagCues := 0, cuesDiscarded := 0, faultsMasked := 0,
    roleMigrations := 0, correctable := 0, published := 0, publishedInvalid := 0, latePublished := 0,
    failed := false, answers := [], maskReports := [], trimRan := false, tipinShed := [], tipinRan := [],
    audited := [], misses := [], dispatchNacks := 0, eccCorrected := 0, eccFromPartner := 0, eccLost := 0,
    fabric := [], replayedInPlace := [] }

/-- No reel is staged or active after a reset (R365). -/
def ReelSt.reset : ReelSt := { active := none, staged := none, activating := none, activatedTb := 0 }

/-- HBM reads as zero, with nothing failed and nothing in flight. -/
def MemSt.reset : MemSt :=
  { hbm := [], badBursts := [], patrolFound := [], failedSegments := [], sparedLanes := [], closedGroups := [], snQueue := [],
    commitAt := none, commitValues := [] }

/-- Both destination tables are empty (R242). -/
def RouteSt.reset : RouteSt := { staged := [], inForce := [], loading := none, restart := false, loadAddr := 0 }

/-- No step, no version, empty histories (R386). -/
def StepSt.reset : StepSt :=
  { participants := [], nextFinal := 0, versions := [], exact := [], history := [], format := [], shown := [],
    deliveries := [], saturated := [], ownSentTb := [], records := [], lapsed := [], skips := [] }

/-- Every port is dark from reset (R299). -/
def FabricSt.reset : FabricSt := { enabled := false, enabledTb := 0, ports := [], rx := [], transit := [], rounds := [], ready := [] }

/-- A ring block at its reset fields (R312). -/
def Ring.reset : Ring :=
  { base := 0, sizeLog2 := 4, enable := false, tail := 0, head := 0, status := 0, headWb := 0, inFlight := [] }

/-- The answer ring block at its reset fields (R316). -/
def AnswerRing.reset : AnswerRing :=
  { base := 0, sizeLog2 := 4, enable := false, writeIndex := 0, readIndex := 0, overflows := 0, indexWb := 0 }

/-- The host command block at its reset fields (R319). -/
def CmdBlock.reset : CmdBlock :=
  { busy := false, status := 0, addr := 0, space := 1, length := 0, resultLength := 0, result := none,
    waiting := none, data := [] }

/-- The function after reset: x16, D0, BAR2 of 1 GiB (R308), every vector masked (log 6), and the configuration space at
the values PCI Express gives it (log 159). -/
def HostSt.reset : HostSt :=
  { linkWidth := 16, widest := 16, linkLost := false, d3hot := false, windowBase := 0, bar2Log2 := 30, memSpace := false, maxPayload := 0, maxRead := 2,
    aerSeverity := 0x462030, rings := [], answers := AnswerRing.reset,
    segments := [], segmentsInForce := [], cmd := CmdBlock.reset, msixTable := [], unmaskedVectors := [],
    functionMask := false, msixPending := [], activation := [] }

/-- The mailbox at its reset fields (R338). -/
def MailboxSt.reset : MailboxSt := { request := [], response := [], doneTag := 0, busy := false, status := 0 }

/-- An idle server. -/
def ServerSt.reset : ServerSt := { jobs := [], kWrite := none, halted := false, haltedTb := 0 }

/-- The controller in reset, in INIT once it is released (R376). -/
def EcatSt.reset : EcatSt :=
  { released := false, al := 1, alCode := 0, alError := false, sm2Valid := false,
    sync0At := none, sync1Ns := 0, sync1At := none, segment := none, foe := none, foeHeld := [], rxBuffer := [], txImage := [] }

/-- A factory-fresh journal: both regions erased (R324). -/
def JournalSt.fresh : JournalSt :=
  { j0 := [], j1 := [], lastSeq := 0, nextSlot := 0, erase0 := 0, erase1 := 0, erased0 := true, erased1 := true,
    compacting := false, worn := false, fwRecords := [], clearing := false }

/-- No source pending or configured; each core idle, on the role of R347. -/
def IntrSt.reset : IntrSt :=
  { pend := [], srcCfg := [], cores := [], counts := [], first := [], sram := [],
    sramErrors := [], migrations := 0 }

/-- Right after a plain power-up: the power-on source has just been released and nothing of R376 has happened. -/
def ResetSt.powerUp : ResetSt :=
  { pwrGood := true, rstN := true, perstN := true, asserted := 0, lastCauses := 1, causeHistory := 1,
    resetCount := 1, ready := false, cfgSampled := false, cfgCode := 0, cfgFault := false, fwRunning := false,
    recovery := false, bistDone := false, restored := false, domains := [], failedDomains := [],
    bistFound := none, bistInForce := BistFinding.clean, laneFences := [], unusableBlocks := [],
    fencedBlocks := [], idleBlocks := [], rawTemps := [], hotSample := false, thermTrip := false, alert := false }

/-- A slot with the firmware that the part ships with (R440, log 1). -/
def shippedSlot (i : Nat) : Tab Byte :=
  (((Config.shippedSlot i).take 0x1000000).zipIdx.map (fun b => (b.2, b.1))).filter (fun b => b.2 != 0xFF)

/-- The security domain after power-up: nothing unlocked, no slot attempted, TRST_N at the level of its pull-down (R437). -/
def SecSt.powerUp : SecSt :=
  { fuses := none, slotA := shippedSlot 0, slotB := shippedSlot 1, resultA := 1, resultB := 1, otherOnce := none, header := [], identity := false,
    debugLevel := 0, debugFailures := 0, challenge := none, fuseLatch := false, zeroised := false,
    scanEnabled := false, scanFailStep := 0, trstN := false, jtagIr := 1, heldForScan := false, contextMeasurement := 0 }

/-- The part right after reset: the last reset source of a plain power-up has just been released (R365, R376).
Objects are at their defaults, TB_COUNT at 0, no reel, HBM zero, ports dark, no command waiting. -/
def State.reset : State :=
  { part := Part.shipped, objs := [], time := TimeSt.reset, take := TakeSt.reset, reels := ReelSt.reset,
    phys := [], tiles := [], mem := MemSt.reset, route := RouteSt.reset, steps := StepSt.reset,
    fabric := FabricSt.reset, host := HostSt.reset, mailbox := MailboxSt.reset, server := ServerSt.reset,
    ecat := EcatSt.reset, journal := JournalSt.fresh, intr := IntrSt.reset, early := [], dailies := [],
    rst := ResetSt.powerUp, sec := SecSt.powerUp, free := 0, out := [], pending := [] }

end Sys2Proof.Machine
end

