-- ==== Sys2Proof/Machine/Tab.lean ====
section
/-!
DEFINITION. Sparse storage: reading and writing the sorted association lists of State, keeping their keys
strictly rising. `Tab.store` also keeps an entry out of the list when it equals what an unlisted key reads as,
so that equal storages are equal data.
-/

namespace Sys2Proof.Machine

open Sys2Proof

/-- The listed value of a key. -/
def Tab.look {α : Type} : Tab α → Nat → Option α
  | [], _ => none
  | (k, v) :: t, i => if k = i then some v else Tab.look t i

/-- The value of a key, `d` where it is not listed. -/
def Tab.read {α : Type} (t : Tab α) (d : α) (i : Nat) : α := (Tab.look t i).getD d

/-- Put a value at a key, in order. -/
def Tab.put {α : Type} : Tab α → Nat → α → Tab α
  | [], i, v => [(i, v)]
  | (k, w) :: t, i, v =>
    if i < k then (i, v) :: (k, w) :: t
    else if k = i then (i, v) :: t
    else (k, w) :: Tab.put t i v

/-- Take a key off the list. -/
def Tab.del {α : Type} : Tab α → Nat → Tab α
  | [], _ => []
  | (k, w) :: t, i => if k = i then Tab.del t i else (k, w) :: Tab.del t i

/-- Write a value at a key of a storage whose unlisted keys read `d`. -/
def Tab.store {α : Type} [DecidableEq α] (t : Tab α) (d : α) (i : Nat) (v : α) : Tab α :=
  if v = d then Tab.del t i else Tab.put t i v

/-- Change the value of a key by a function. -/
def Tab.modify {α : Type} (t : Tab α) (d : α) (i : Nat) (f : α → α) : Tab α :=
  Tab.put t i (f (Tab.read t d i))

/-- The listed keys, rising. -/
def Tab.keys {α : Type} (t : Tab α) : List Nat := t.map (fun p => p.1)

/-- Every key of the list is above `lo`. -/
def Tab.above {α : Type} (lo : Nat) : Tab α → Bool
  | [] => true
  | (k, _) :: t => decide (lo < k) && Tab.above k t

/-- Strictly rising keys. -/
def Tab.wf {α : Type} : Tab α → Bool
  | [] => true
  | (k, _) :: t => Tab.above k t

/-- No entry equals what an unlisted key reads as. -/
def Tab.sparse {α : Type} [DecidableEq α] (d : α) (t : Tab α) : Bool := t.all (fun p => decide (p.2 ≠ d))

/-- Write consecutive values from a key on, the unlisted ones reading `d`. -/
def Tab.storeList {α : Type} [DecidableEq α] (t : Tab α) (d : α) (i : Nat) : List α → Tab α
  | [] => t
  | v :: vs => Tab.storeList (Tab.store t d i v) d (i + 1) vs

/-- Put consecutive values from a key on. -/
def Tab.putList {α : Type} (t : Tab α) (i : Nat) : List α → Tab α
  | [] => t
  | v :: vs => Tab.putList (Tab.put t i v) (i + 1) vs

/-- The values of `n` consecutive keys. -/
def Tab.readList {α : Type} (t : Tab α) (d : Nat → α) (i n : Nat) : List α :=
  (List.range n).map (fun j => Tab.read t (d (i + j)) (i + j))

/-- The values of `n` consecutive keys from `i` on, walking a sorted list once. -/
def Tab.dense {α : Type} (d : Nat → α) : Tab α → Nat → Nat → List α
  | _, _, 0 => []
  | [], i, n + 1 => d i :: Tab.dense d [] (i + 1) n
  | (k, v) :: t, i, n + 1 =>
    if k = i then v :: Tab.dense d t (i + 1) n else d i :: Tab.dense d ((k, v) :: t) (i + 1) n

/-- The entries with keys in [lo, hi). -/
def Tab.within {α : Type} (t : Tab α) (lo hi : Nat) : Tab α := t.filter (fun p => decide (lo ≤ p.1 ∧ p.1 < hi))

/-- Put consecutive values from a key on in place of every entry there. -/
def Tab.splice {α : Type} (t : Tab α) (lo : Nat) (vs : List α) : Tab α :=
  t.filter (fun p => decide (p.1 < lo)) ++ (vs.zipIdx.map (fun q => (lo + q.2, q.1))) ++
    t.filter (fun p => decide (lo + vs.length ≤ p.1))

/-! ## Numbers and bytes -/

/-- Bits `lo` to `hi` of a number. -/
def bitsOf (x hi lo : Nat) : Nat := (x >>> lo) % 2 ^ (hi + 1 - lo)

/-- One bit of a number. -/
def bitAt (x i : Nat) : Bool := decide ((x >>> i) % 2 = 1)

/-- Replace bits `lo` to `hi` of a number. -/
def setBits (x hi lo v : Nat) : Nat :=
  x - (bitsOf x hi lo <<< lo) + ((v % 2 ^ (hi + 1 - lo)) <<< lo)

/-- The number that little-endian bytes spell. -/
def leNat : List Byte → Nat
  | [] => 0
  | b :: bs => b.toNat + 256 * leNat bs

/-- The `n` little-endian bytes of a number. -/
def leBytes : Nat → Nat → List Byte
  | 0, _ => []
  | n + 1, x => BitVec.ofNat 8 x :: leBytes n (x / 256)

/-- The value of `n` bytes read as two's complement. -/
def signedOf (bits x : Nat) : Int := if x % 2 ^ bits < 2 ^ (bits - 1) then (x % 2 ^ bits : Nat) else ((x % 2 ^ bits : Nat) : Int) - (2 ^ bits : Nat)

/-- The two's complement encoding of an integer. -/
def unsignedOf (bits : Nat) (i : Int) : Nat := (i % ((2 ^ bits : Nat) : Int)).toNat

/-- The ceiling of a quotient. -/
def ceilDiv (a b : Nat) : Nat := (a + b - 1) / b

/-- Saturating addition of an n-bit count. -/
def satAdd (bits a b : Nat) : Nat := min (a + b) (2 ^ bits - 1)

/-- Keep an integer in a range. -/
def clampInt (lo hi x : Int) : Int := max lo (min hi x)

/-- The smallest member of a list, `none` for an empty list. -/
def listMin? : List Nat → Option Nat
  | [] => none
  | a :: as => match listMin? as with
    | none => some a
    | some b => some (min a b)

/-- The largest of a list and a floor. -/
def listMax (floor : Nat) (l : List Nat) : Nat := l.foldl max floor

/-- Sum of a list. -/
def listSum (l : List Nat) : Nat := l.foldl (fun a b => a + b) 0

/-- Product of a list. -/
def listProd (l : List Nat) : Nat := l.foldl (fun a b => a * b) 1

/-- Put `x` in a list without repeats. -/
def insertOnce {α : Type} [DecidableEq α] (l : List α) (x : α) : List α := if x ∈ l then l else l ++ [x]

end Sys2Proof.Machine
end

