-- ==== Sys2Proof/Machine/Objects.lean ====
section
/-!
DEFINITION. The object dictionary's table (R323): every object's index, subindices, type, access right, default
and retention class, from the object tables of the rules each row names. Defaults that the tables give as
"per part", "from image", "fused" or "sampled" are views over other state (Machine/Ops.lean) and stand as 0 here.
-/

namespace Sys2Proof.Machine

open Sys2Proof

/-- The CoE basic data types (R323). -/
inductive ObjType where
  | boolean | i8 | i16 | i32 | u8 | u16 | u32 | u64 | real32 | string
  deriving DecidableEq, Repr

/-- Access rights. -/
inductive ObjAccess where
  | ro | rw | wo
  deriving DecidableEq, Repr

/-- Retention classes (R324). -/
inductive ObjClass where
  | k | v | f
  deriving DecidableEq, Repr

/-- One row of an object table. -/
structure ObjRow where
  idxLo : Nat
  idxHi : Nat
  subLo : Nat
  subHi : Nat
  name : String
  type : ObjType
  access : ObjAccess
  default : Nat
  cls : ObjClass
  deriving DecidableEq, Repr

/-- The width of a type in bits; a string has its own length. -/
def ObjType.bits : ObjType → Nat
  | .boolean => 8
  | .i8 => 8
  | .i16 => 16
  | .i32 => 32
  | .u8 => 8
  | .u16 => 16
  | .u32 => 32
  | .u64 => 64
  | .real32 => 32
  | .string => 0

/-- The bytes a value of the type takes. -/
def ObjType.bytes (t : ObjType) : Nat := t.bits / 8

/-- Whether the type is signed. -/
def ObjType.signed : ObjType → Bool
  | .i8 => true
  | .i16 => true
  | .i32 => true
  | _ => false

/-- Rows from index 0x1000 on. -/
def objRows0 : List ObjRow :=
  [⟨0x1000, 0x1000, 0x00, 0x00, "Device type", .u32, .ro, 0, .f⟩,
   ⟨0x1008, 0x1008, 0x00, 0x00, "Device name", .string, .ro, 0, .f⟩,
   ⟨0x1009, 0x1009, 0x00, 0x00, "Hardware version", .string, .ro, 0, .f⟩,
   ⟨0x100A, 0x100A, 0x00, 0x00, "Software version", .string, .ro, 0, .v⟩,
   ⟨0x1018, 0x1018, 0x00, 0x00, "Highest subindex", .u8, .ro, 4, .f⟩,
   ⟨0x1018, 0x1018, 0x01, 0x04, "Identity", .u32, .ro, 0, .f⟩,
   ⟨0x10F1, 0x10F1, 0x00, 0x00, "Highest subindex", .u8, .ro, 2, .f⟩,
   ⟨0x10F1, 0x10F1, 0x02, 0x02, "SYNC_ERROR_LIMIT", .u16, .rw, 4, .k⟩,
   ⟨0x1600, 0x1600, 0x00, 0x00, "RxPDO entries", .u8, .rw, 2, .k⟩,
   ⟨0x1600, 0x1600, 0x01, 0x01, "RxPDO mapping", .u32, .rw, 0x70000120, .k⟩,
   ⟨0x1600, 0x1600, 0x02, 0x02, "RxPDO mapping", .u32, .rw, 0x70000220, .k⟩,
   ⟨0x1600, 0x1600, 0x03, 0x20, "RxPDO mapping", .u32, .rw, 0, .k⟩,
   ⟨0x1A00, 0x1A00, 0x00, 0x00, "TxPDO entries", .u8, .rw, 0xc, .k⟩,
   ⟨0x1A00, 0x1A00, 0x01, 0x01, "TxPDO mapping", .u32, .rw, 0x61000120, .k⟩,
   ⟨0x1A00, 0x1A00, 0x02, 0x02, "TxPDO mapping", .u32, .rw, 0x61000210, .k⟩,
   ⟨0x1A00, 0x1A00, 0x03, 0x03, "TxPDO mapping", .u32, .rw, 0x61000308, .k⟩,
   ⟨0x1A00, 0x1A00, 0x04, 0x04, "TxPDO mapping", .u32, .rw, 0x61000408, .k⟩,
   ⟨0x1A00, 0x1A00, 0x05, 0x05, "TxPDO mapping", .u32, .rw, 0x61000510, .k⟩,
   ⟨0x1A00, 0x1A00, 0x06, 0x06, "TxPDO mapping", .u32, .rw, 0x61000610, .k⟩,
   ⟨0x1A00, 0x1A00, 0x07, 0x07, "TxPDO mapping", .u32, .rw, 0x61000720, .k⟩,
   ⟨0x1A00, 0x1A00, 0x08, 0x08, "TxPDO mapping", .u32, .rw, 0x61000840, .k⟩,
   ⟨0x1A00, 0x1A00, 0x09, 0x09, "TxPDO mapping", .u32, .rw, 0x61000920, .k⟩,
   ⟨0x1A00, 0x1A00, 0x0A, 0x0A, "TxPDO mapping", .u32, .rw, 0x61000a20, .k⟩,
   ⟨0x1A00, 0x1A00, 0x0B, 0x0B, "TxPDO mapping", .u32, .rw, 0x21001020, .k⟩,
   ⟨0x1A00, 0x1A00, 0x0C, 0x0C, "TxPDO mapping", .u32, .rw, 0x21001120, .k⟩,
   ⟨0x1A00, 0x1A00, 0x0D, 0x40, "TxPDO mapping", .u32, .rw, 0, .k⟩,
   ⟨0x1A01, 0x1A03, 0x00, 0x00, "TxPDO entries", .u8, .rw, 0, .k⟩,
   ⟨0x1A01, 0x1A03, 0x01, 0x40, "TxPDO mapping", .u32, .rw, 0, .k⟩,
   ⟨0x1C00, 0x1C00, 0x00, 0x00, "Highest subindex", .u8, .ro, 4, .f⟩,
   ⟨0x1C00, 0x1C00, 0x01, 0x01, "SM types", .u8, .ro, 1, .f⟩,
   ⟨0x1C00, 0x1C00, 0x02, 0x02, "SM types", .u8, .ro, 2, .f⟩,
   ⟨0x1C00, 0x1C00, 0x03, 0x03, "SM types", .u8, .ro, 3, .f⟩,
   ⟨0x1C00, 0x1C00, 0x04, 0x04, "SM types", .u8, .ro, 4, .f⟩,
   ⟨0x1C12, 0x1C12, 0x00, 0x00, "RxPDO assign", .u8, .rw, 1, .k⟩,
   ⟨0x1C12, 0x1C12, 0x01, 0x01, "RxPDO assign", .u16, .rw, 0x1600, .k⟩,
   ⟨0x1C13, 0x1C13, 0x00, 0x00, "TxPDO assign", .u8, .rw, 1, .k⟩,
   ⟨0x1C13, 0x1C13, 0x01, 0x01, "TxPDO assign", .u16, .rw, 0x1a00, .k⟩,
   ⟨0x1C13, 0x1C13, 0x02, 0x04, "TxPDO assign", .u16, .rw, 0, .k⟩,
   ⟨0x1C32, 0x1C33, 0x00, 0x00, "Highest subindex", .u8, .ro, 0x20, .f⟩,
   ⟨0x1C32, 0x1C33, 0x01, 0x01, "SYNC_MODE", .u16, .rw, 0, .v⟩,
   ⟨0x1C32, 0x1C33, 0x02, 0x02, "CYCLE_TIME", .u32, .ro, 0, .v⟩,
   ⟨0x1C32, 0x1C33, 0x05, 0x05, "MIN_CYCLE_TIME", .u32, .ro, 0x1e848, .f⟩,
   ⟨0x1C32, 0x1C33, 0x0B, 0x0B, "SM_EVENTS_MISSED", .u16, .ro, 0, .v⟩,
   ⟨0x1C32, 0x1C33, 0x20, 0x20, "SYNC_ERROR", .boolean, .ro, 0, .v⟩,
   ⟨0x2000, 0x2000, 0x00, 0x00, "Highest subindex", .u8, .ro, 8, .f⟩,
   ⟨0x2000, 0x2000, 0x01, 0x01, "PCI_VENDOR_ID", .u16, .ro, 0x1d4e, .f⟩,
   ⟨0x2000, 0x2000, 0x02, 0x02, "ECAT_VENDOR_ID", .u32, .ro, 0xa3c, .f⟩,
   ⟨0x2000, 0x2000, 0x03, 0x03, "PART_NUMBER", .u16, .ro, 0, .f⟩,
   ⟨0x2000, 0x2000, 0x04, 0x04, "SILICON_REVISION", .u8, .ro, 0, .f⟩,
   ⟨0x2000, 0x2000, 0x05, 0x05, "SERIAL_NUMBER", .u64, .ro, 0, .f⟩]

/-- Rows from index 0x2000 on. -/
def objRows1 : List ObjRow :=
  [⟨0x2000, 0x2000, 0x06, 0x06, "FIRMWARE_VERSION", .u32, .ro, 0, .v⟩,
   ⟨0x2000, 0x2000, 0x07, 0x07, "BOOT_SLOT", .u8, .ro, 0, .v⟩,
   ⟨0x2000, 0x2000, 0x08, 0x08, "CFG_SENSE_CODE", .u8, .ro, 0, .v⟩,
   ⟨0x2001, 0x2001, 0x00, 0x00, "Highest subindex", .u8, .ro, 1, .f⟩,
   ⟨0x2001, 0x2001, 0x01, 0x01, "FEATURE_MAP", .u32, .ro, 0, .f⟩,
   ⟨0x2002, 0x2002, 0x00, 0x00, "Highest subindex", .u8, .ro, 2, .f⟩,
   ⟨0x2002, 0x2002, 0x01, 0x01, "COMBINATION_MODE", .u8, .rw, 0, .v⟩,
   ⟨0x2002, 0x2002, 0x02, 0x02, "MODE_IN_FORCE", .u8, .ro, 0, .v⟩,
   ⟨0x2003, 0x2003, 0x00, 0x00, "Highest subindex", .u8, .ro, 9, .f⟩,
   ⟨0x2003, 0x2003, 0x01, 0x01, "JOURNAL_STATE", .u8, .ro, 0, .v⟩,
   ⟨0x2003, 0x2003, 0x02, 0x02, "ACTIVE_REGION", .u8, .ro, 0, .v⟩,
   ⟨0x2003, 0x2003, 0x03, 0x03, "GENERATION", .u32, .ro, 0, .v⟩,
   ⟨0x2003, 0x2003, 0x04, 0x04, "FILL", .u32, .ro, 0, .v⟩,
   ⟨0x2003, 0x2003, 0x05, 0x05, "K_COUNT", .u16, .ro, 0, .v⟩,
   ⟨0x2003, 0x2003, 0x06, 0x06, "ERASE_CYCLES", .u32, .ro, 0, .v⟩,
   ⟨0x2003, 0x2003, 0x07, 0x07, "TORN_RECORDS", .u32, .ro, 0, .v⟩,
   ⟨0x2003, 0x2003, 0x08, 0x08, "JOURNAL_COMMAND", .u8, .wo, 0, .v⟩,
   ⟨0x2003, 0x2003, 0x09, 0x09, "COMMAND_STATUS", .u8, .ro, 0, .v⟩,
   ⟨0x2100, 0x2100, 0x00, 0x00, "Highest subindex", .u8, .ro, 0x1d, .f⟩,
   ⟨0x2100, 0x2100, 0x01, 0x01, "POSITION_SOURCE", .u8, .rw, 0, .k⟩,
   ⟨0x2100, 0x2100, 0x02, 0x02, "ADV_MIN_PERIOD_US", .u32, .rw, 0x186a0, .k⟩,
   ⟨0x2100, 0x2100, 0x03, 0x03, "ADV_NOMINAL_PERIOD_US", .u32, .rw, 0x3938700, .k⟩,
   ⟨0x2100, 0x2100, 0x04, 0x04, "ADV_SMOOTH_SHIFT", .u8, .rw, 3, .k⟩,
   ⟨0x2100, 0x2100, 0x05, 0x05, "SLATE_HOLDOFF_US", .u32, .rw, 0xf4240, .k⟩,
   ⟨0x2100, 0x2100, 0x06, 0x06, "ADV_SILENCE_PERIODS", .u8, .rw, 4, .k⟩,
   ⟨0x2100, 0x2100, 0x07, 0x07, "SLATE_EDGE", .u8, .rw, 0, .k⟩,
   ⟨0x2100, 0x2100, 0x10, 0x10, "TAKE_NUMBER", .u32, .ro, 0, .v⟩,
   ⟨0x2100, 0x2100, 0x11, 0x11, "POSITION", .u32, .ro, 0, .v⟩,
   ⟨0x2100, 0x2100, 0x12, 0x12, "ADV_PERIOD_US", .u32, .ro, 0x3938700, .v⟩,
   ⟨0x2100, 0x2100, 0x13, 0x13, "TB_COUNT", .u64, .ro, 0, .v⟩,
   ⟨0x2100, 0x2100, 0x14, 0x14, "SOURCE_IN_FORCE", .u8, .ro, 0, .v⟩,
   ⟨0x2100, 0x2100, 0x15, 0x15, "ADV_ACCEPTED", .u32, .ro, 0, .v⟩,
   ⟨0x2100, 0x2100, 0x16, 0x16, "ADV_STORM_COUNT", .u32, .ro, 0, .v⟩,
   ⟨0x2100, 0x2100, 0x17, 0x17, "SLATE_STORM_COUNT", .u32, .ro, 0, .v⟩,
   ⟨0x2100, 0x2100, 0x18, 0x18, "IGNORED_PULSES", .u32, .ro, 0, .v⟩,
   ⟨0x2100, 0x2100, 0x19, 0x19, "TB_STEPS", .u32, .ro, 0, .v⟩,
   ⟨0x2100, 0x2100, 0x1A, 0x1A, "CUES_LATE", .u32, .ro, 0, .v⟩,
   ⟨0x2100, 0x2100, 0x1B, 0x1B, "CUES_DISCARDED", .u32, .ro, 0, .v⟩,
   ⟨0x2100, 0x2100, 0x1C, 0x1C, "CUES_FAILED", .u32, .ro, 0, .v⟩,
   ⟨0x2100, 0x2100, 0x1D, 0x1D, "LAST_CUE_FAILURE", .u32, .ro, 0, .v⟩,
   ⟨0x2200, 0x2200, 0x00, 0x00, "Highest subindex", .u8, .ro, 0x17, .f⟩,
   ⟨0x2200, 0x2200, 0x01, 0x01, "TAKE_CONTROL", .u8, .rw, 0, .v⟩,
   ⟨0x2200, 0x2200, 0x02, 0x02, "NOMINAL_LENGTH", .u16, .rw, 0x19, .k⟩,
   ⟨0x2200, 0x2200, 0x03, 0x03, "EARLY_TOL", .u32, .rw, 0x20000, .k⟩,
   ⟨0x2200, 0x2200, 0x04, 0x04, "LATE_TOL", .u32, .rw, 0x20000, .k⟩,
   ⟨0x2200, 0x2200, 0x05, 0x05, "SHED_FLOOR", .u8, .rw, 0, .k⟩,
   ⟨0x2200, 0x2200, 0x06, 0x06, "SHED_CEILING", .u8, .rw, 3, .k⟩,
   ⟨0x2200, 0x2200, 0x07, 0x07, "TOKEN_SKIP_RATIO", .u8, .rw, 0x40, .k⟩,
   ⟨0x2200, 0x2200, 0x08, 0x08, "GOVERNOR_GUARD", .u32, .rw, 0x8000, .k⟩,
   ⟨0x2200, 0x2200, 0x09, 0x09, "RELAX_MARGIN", .u32, .rw, 0x10000, .k⟩]

/-- Rows from index 0x2200 on. -/
def objRows2 : List ObjRow :=
  [⟨0x2200, 0x2200, 0x10, 0x10, "TAKE_STATE", .u8, .ro, 0, .v⟩,
   ⟨0x2200, 0x2200, 0x11, 0x11, "SHED_LEVEL", .u8, .ro, 0, .v⟩,
   ⟨0x2200, 0x2200, 0x12, 0x12, "FORECAST", .u32, .ro, 0, .v⟩,
   ⟨0x2200, 0x2200, 0x13, 0x13, "DEADLINE", .u32, .ro, 0, .v⟩,
   ⟨0x2200, 0x2200, 0x14, 0x14, "EARLY_SLATES", .u32, .ro, 0, .v⟩,
   ⟨0x2200, 0x2200, 0x15, 0x15, "SELF_SLATES", .u32, .ro, 0, .v⟩,
   ⟨0x2200, 0x2200, 0x16, 0x16, "LATE_SLATES", .u32, .ro, 0, .v⟩,
   ⟨0x2200, 0x2200, 0x17, 0x17, "OVERRUNS", .u32, .ro, 0, .v⟩,
   ⟨0x2300, 0x2300, 0x00, 0x00, "Highest subindex", .u8, .ro, 0x18, .f⟩,
   ⟨0x2300, 0x2300, 0x01, 0x01, "LOSS_SCALE_INIT", .i8, .rw, 0x10, .k⟩,
   ⟨0x2300, 0x2300, 0x02, 0x02, "LOSS_SCALE_MIN", .i8, .rw, 0xf0, .k⟩,
   ⟨0x2300, 0x2300, 0x03, 0x03, "LOSS_SCALE_MAX", .i8, .rw, 0x20, .k⟩,
   ⟨0x2300, 0x2300, 0x04, 0x04, "GROWTH_INTERVAL", .u32, .rw, 0x3e8, .k⟩,
   ⟨0x2300, 0x2300, 0x05, 0x05, "SATURATION_ACTION", .u8, .rw, 0, .k⟩,
   ⟨0x2300, 0x2300, 0x06, 0x06, "AMAX_HISTORY_LEN", .u8, .rw, 0x10, .k⟩,
   ⟨0x2300, 0x2300, 0x07, 0x07, "SCALE_MARGIN", .u8, .rw, 0, .k⟩,
   ⟨0x2300, 0x2300, 0x10, 0x10, "LOSS_SCALE", .i8, .rw, 0x10, .v⟩,
   ⟨0x2300, 0x2300, 0x11, 0x11, "CLEAN_STEPS", .u32, .rw, 0, .v⟩,
   ⟨0x2300, 0x2300, 0x12, 0x12, "FINAL_STEP", .u32, .ro, 0xffffffff, .v⟩,
   ⟨0x2300, 0x2300, 0x13, 0x13, "SATURATED_STEPS", .u32, .ro, 0, .v⟩,
   ⟨0x2300, 0x2300, 0x14, 0x14, "SKIPPED_STEPS", .u32, .ro, 0, .v⟩,
   ⟨0x2300, 0x2300, 0x15, 0x15, "LATE_SATURATIONS", .u32, .ro, 0, .v⟩,
   ⟨0x2300, 0x2300, 0x16, 0x16, "FLOOR_EVENTS", .u32, .ro, 0, .v⟩,
   ⟨0x2300, 0x2300, 0x17, 0x17, "STEP_RECORD_TIMEOUT_US", .u32, .rw, 0x186a0, .k⟩,
   ⟨0x2300, 0x2300, 0x18, 0x18, "LAPSED_RECORDS", .u32, .ro, 0, .v⟩,
   ⟨0x2320, 0x2323, 0x00, 0x00, "Highest subindex", .u8, .ro, 0x30, .f⟩,
   ⟨0x2320, 0x2323, 0x01, 0x10, "SATURATIONS", .u64, .ro, 0, .v⟩,
   ⟨0x2320, 0x2323, 0x11, 0x20, "VANISHES", .u64, .ro, 0, .v⟩,
   ⟨0x2320, 0x2323, 0x21, 0x30, "CONVERTED", .u64, .ro, 0, .v⟩,
   ⟨0x2341, 0x2341, 0x00, 0x00, "Highest subindex", .u8, .ro, 0x4f, .f⟩,
   ⟨0x2341, 0x2341, 0x01, 0x01, "ENTRY_SELECT", .u16, .rw, 0, .v⟩,
   ⟨0x2341, 0x2341, 0x02, 0x02, "SIGMA", .i8, .ro, 0, .v⟩,
   ⟨0x2341, 0x2341, 0x03, 0x03, "ENTRY_FORMAT", .u8, .rw, 0, .v⟩,
   ⟨0x2341, 0x2341, 0x04, 0x04, "HISTORY_FILL", .u8, .rw, 0, .v⟩,
   ⟨0x2341, 0x2341, 0x10, 0x4F, "HISTORY", .real32, .rw, 0, .v⟩,
   ⟨0x2400, 0x2400, 0x00, 0x00, "Highest subindex", .u8, .ro, 1, .f⟩,
   ⟨0x2400, 0x2400, 0x01, 0x01, "SCHEDULE_COUNT", .u32, .rw, 0, .v⟩,
   ⟨0x2410, 0x241F, 0x00, 0x00, "Highest subindex", .u8, .ro, 0xc, .f⟩,
   ⟨0x2410, 0x241F, 0x01, 0x01, "TARGET_DENSITY", .u16, .rw, 0x4000, .k⟩,
   ⟨0x2410, 0x241F, 0x02, 0x02, "DENSITY_STEP", .u16, .rw, 0x400, .k⟩,
   ⟨0x2410, 0x241F, 0x03, 0x03, "EXCHANGE_START", .u16, .rw, 0x1000, .k⟩,
   ⟨0x2410, 0x241F, 0x04, 0x04, "EXCHANGE_END", .u16, .rw, 0, .k⟩,
   ⟨0x2410, 0x241F, 0x05, 0x05, "EXCHANGE_TAKES", .u32, .rw, 0x3e8, .k⟩,
   ⟨0x2410, 0x241F, 0x06, 0x06, "INIT_AMPLITUDE", .real32, .rw, 0x3c23d70a, .k⟩,
   ⟨0x2410, 0x241F, 0x07, 0x07, "DEFERRAL_LIMIT", .u8, .rw, 4, .k⟩,
   ⟨0x2410, 0x241F, 0x08, 0x08, "GOAL", .u16, .ro, 0xffff, .v⟩,
   ⟨0x2410, 0x241F, 0x09, 0x09, "TRIM_DENSITY", .u16, .ro, 0xffff, .v⟩,
   ⟨0x2410, 0x241F, 0x0A, 0x0A, "REGROW_DENSITY", .u16, .ro, 0, .v⟩,
   ⟨0x2410, 0x241F, 0x0B, 0x0B, "DEFERRED_TAKES", .u8, .ro, 0, .v⟩,
   ⟨0x2410, 0x241F, 0x0C, 0x0C, "MEASURED_DENSITY", .u16, .rw, 0xffff, .v⟩]

/-- Rows from index 0x2480 on. -/
def objRows3 : List ObjRow :=
  [⟨0x2480, 0x2480, 0x00, 0x00, "Highest subindex", .u8, .ro, 7, .f⟩,
   ⟨0x2480, 0x2480, 0x01, 0x01, "AUDIT_RATE", .u16, .rw, 0x400, .k⟩,
   ⟨0x2480, 0x2480, 0x02, 0x02, "MISS_TARGET", .u16, .rw, 0x148, .k⟩,
   ⟨0x2480, 0x2480, 0x03, 0x03, "MARGIN_STEP", .real32, .rw, 0x3d4ccccd, .k⟩,
   ⟨0x2480, 0x2480, 0x04, 0x04, "MARGIN_MIN", .real32, .rw, 0, .k⟩,
   ⟨0x2480, 0x2480, 0x05, 0x05, "MARGIN_MAX", .real32, .rw, 0x40800000, .k⟩,
   ⟨0x2480, 0x2480, 0x06, 0x06, "AUDIT_MIN_SAMPLES", .u32, .rw, 0x1000, .k⟩,
   ⟨0x2480, 0x2480, 0x07, 0x07, "MARGIN_INIT", .real32, .rw, 0x3e800000, .k⟩,
   ⟨0x2481, 0x2481, 0x00, 0x00, "Highest subindex", .u8, .ro, 0x40, .f⟩,
   ⟨0x2481, 0x2481, 0x01, 0x40, "PREDICTOR_MARGIN", .real32, .rw, 0x3e800000, .v⟩,
   ⟨0x2482, 0x2482, 0x00, 0x00, "Highest subindex", .u8, .ro, 0x40, .f⟩,
   ⟨0x2482, 0x2482, 0x01, 0x40, "AUDITED", .u32, .ro, 0, .v⟩,
   ⟨0x2483, 0x2483, 0x00, 0x00, "Highest subindex", .u8, .ro, 0x40, .f⟩,
   ⟨0x2483, 0x2483, 0x01, 0x40, "MISSES", .u32, .ro, 0, .v⟩,
   ⟨0x2500, 0x2500, 0x00, 0x00, "Highest subindex", .u8, .ro, 0x13, .f⟩,
   ⟨0x2500, 0x2500, 0x01, 0x01, "TABLE_ADDR", .u64, .rw, 0, .v⟩,
   ⟨0x2500, 0x2500, 0x02, 0x02, "TABLE_COMMAND", .u8, .wo, 0, .v⟩,
   ⟨0x2500, 0x2500, 0x03, 0x03, "TABLE_STATUS", .u8, .ro, 0, .v⟩,
   ⟨0x2500, 0x2500, 0x04, 0x04, "TABLE_GENERATION", .u32, .ro, 0, .v⟩,
   ⟨0x2500, 0x2500, 0x05, 0x05, "ENTRY_SELECT", .u16, .rw, 0, .v⟩,
   ⟨0x2500, 0x2500, 0x06, 0x06, "ENTRY_LOW", .u64, .rw, 0, .v⟩,
   ⟨0x2500, 0x2500, 0x07, 0x07, "ENTRY_HIGH", .u64, .rw, 0, .v⟩,
   ⟨0x2500, 0x2500, 0x10, 0x10, "TOKENS_DROPPED", .u32, .ro, 0, .v⟩,
   ⟨0x2500, 0x2500, 0x11, 0x11, "CHOICES_DROPPED", .u32, .ro, 0, .v⟩,
   ⟨0x2500, 0x2500, 0x12, 0x12, "TOKENS_SKIPPED", .u32, .ro, 0, .v⟩,
   ⟨0x2500, 0x2500, 0x13, 0x13, "DISPATCH_NACKS", .u32, .ro, 0, .v⟩,
   ⟨0x2600, 0x2600, 0x00, 0x00, "Highest subindex", .u8, .ro, 0x12, .f⟩,
   ⟨0x2600, 0x2600, 0x01, 0x01, "OWN_RACK", .u8, .rw, 0, .k⟩,
   ⟨0x2600, 0x2600, 0x02, 0x02, "OWN_PACKAGE", .u8, .rw, 0, .k⟩,
   ⟨0x2600, 0x2600, 0x03, 0x03, "HOP_LIMIT", .u8, .rw, 8, .k⟩,
   ⟨0x2600, 0x2600, 0x04, 0x04, "RESPONSE_TIMEOUT_US", .u32, .rw, 0x3e8, .k⟩,
   ⟨0x2600, 0x2600, 0x05, 0x05, "REORDER_HOLD_US", .u16, .rw, 0x32, .k⟩,
   ⟨0x2600, 0x2600, 0x06, 0x06, "REMOTE_HBM_BASE", .u64, .rw, 0, .k⟩,
   ⟨0x2600, 0x2600, 0x07, 0x07, "REMOTE_HBM_SIZE", .u64, .rw, 0, .k⟩,
   ⟨0x2600, 0x2600, 0x08, 0x08, "FABRIC_STATE", .u8, .ro, 0, .v⟩,
   ⟨0x2600, 0x2600, 0x09, 0x09, "PORTS_UP", .u32, .ro, 0, .v⟩,
   ⟨0x2600, 0x2600, 0x0A, 0x0A, "LASER_LOW", .u8, .ro, 0, .v⟩,
   ⟨0x2600, 0x2600, 0x0B, 0x0B, "WAVELENGTH_SWITCHES", .u32, .ro, 0, .v⟩,
   ⟨0x2600, 0x2600, 0x0C, 0x0C, "REROUTES", .u32, .ro, 0, .v⟩,
   ⟨0x2600, 0x2600, 0x0D, 0x0D, "LINK_REPLAYS", .u32, .ro, 0, .v⟩,
   ⟨0x2600, 0x2600, 0x0E, 0x0E, "NACKS_SENT", .u32, .ro, 0, .v⟩,
   ⟨0x2600, 0x2600, 0x0F, 0x0F, "NACKS_RECEIVED", .u32, .ro, 0, .v⟩,
   ⟨0x2600, 0x2600, 0x10, 0x10, "REMOTE_TIMEOUTS", .u32, .ro, 0, .v⟩,
   ⟨0x2600, 0x2600, 0x11, 0x11, "DUPLICATES_DISCARDED", .u32, .ro, 0, .v⟩,
   ⟨0x2600, 0x2600, 0x12, 0x12, "GROUP_SIZE", .u16, .ro, 1, .v⟩,
   ⟨0x2601, 0x2601, 0x00, 0x00, "Highest subindex", .u8, .ro, 0x20, .f⟩,
   ⟨0x2601, 0x2601, 0x01, 0x20, "PORT_ROLE", .u8, .rw, 0, .k⟩,
   ⟨0x2602, 0x2602, 0x00, 0x00, "Highest subindex", .u8, .ro, 0x40, .f⟩,
   ⟨0x2602, 0x2602, 0x01, 0x40, "RACK_ROUTE", .u32, .rw, 0, .k⟩,
   ⟨0x2603, 0x2603, 0x00, 0x00, "Highest subindex", .u8, .ro, 0x40, .f⟩]

/-- Rows from index 0x2603 on. -/
def objRows4 : List ObjRow :=
  [⟨0x2603, 0x2603, 0x01, 0x40, "PACKAGE_ROUTE", .u32, .rw, 0, .k⟩,
   ⟨0x2604, 0x2604, 0x00, 0x00, "Highest subindex", .u8, .ro, 0x80, .f⟩,
   ⟨0x2604, 0x2604, 0x01, 0x80, "GROUP_MEMBERS", .u32, .rw, 0, .k⟩,
   ⟨0x2605, 0x2605, 0x00, 0x00, "Highest subindex", .u8, .ro, 0x20, .f⟩,
   ⟨0x2605, 0x2605, 0x01, 0x20, "PORT_STATUS", .u32, .ro, 0, .v⟩,
   ⟨0x2700, 0x2700, 0x00, 0x00, "Highest subindex", .u8, .ro, 0xa, .f⟩,
   ⟨0x2700, 0x2700, 0x01, 0x01, "DEVICE_STATE", .u8, .ro, 0, .v⟩,
   ⟨0x2700, 0x2700, 0x02, 0x02, "POWER_REQUEST", .u8, .wo, 0, .v⟩,
   ⟨0x2700, 0x2700, 0x03, 0x03, "RESERVE_SLEEP", .u8, .rw, 0, .k⟩,
   ⟨0x2700, 0x2700, 0x04, 0x04, "ALERT_THRESHOLD", .i16, .rw, 0x5f0, .k⟩,
   ⟨0x2700, 0x2700, 0x05, 0x05, "TRIP_THRESHOLD", .i16, .ro, 0x690, .f⟩,
   ⟨0x2700, 0x2700, 0x06, 0x06, "TRIP_RELEASE", .i16, .ro, 0x5a0, .f⟩,
   ⟨0x2700, 0x2700, 0x07, 0x07, "MAX_TEMP", .i16, .ro, 0, .v⟩,
   ⟨0x2700, 0x2700, 0x08, 0x08, "ALERT_STATE", .u8, .ro, 0, .v⟩,
   ⟨0x2700, 0x2700, 0x09, 0x09, "USABLE_TILES", .u16, .ro, 0, .v⟩,
   ⟨0x2700, 0x2700, 0x0A, 0x0A, "STANDBY_ENTRIES", .u32, .ro, 0, .v⟩,
   ⟨0x2701, 0x2701, 0x00, 0x00, "Highest subindex", .u8, .ro, 0x10, .f⟩,
   ⟨0x2701, 0x2701, 0x01, 0x10, "DIE_TEMPERATURE", .i16, .ro, 0, .v⟩,
   ⟨0x2702, 0x2702, 0x00, 0x00, "Highest subindex", .u8, .ro, 8, .f⟩,
   ⟨0x2702, 0x2702, 0x01, 0x08, "STACK_TEMPERATURE", .i16, .ro, 0, .v⟩,
   ⟨0x2710, 0x2710, 0x00, 0x00, "Highest subindex", .u8, .ro, 0xd, .f⟩,
   ⟨0x2710, 0x2710, 0x01, 0x01, "BIST_STATUS", .u8, .ro, 0, .v⟩,
   ⟨0x2710, 0x2710, 0x02, 0x02, "VDD_CORE_DX0", .u16, .ro, 0, .v⟩,
   ⟨0x2710, 0x2710, 0x03, 0x03, "VDD_CORE_DX1", .u16, .ro, 0, .v⟩,
   ⟨0x2710, 0x2710, 0x04, 0x04, "FAILED_TILES_LOW", .u64, .ro, 0, .v⟩,
   ⟨0x2710, 0x2710, 0x05, 0x05, "FAILED_TILES_MID", .u64, .ro, 0, .v⟩,
   ⟨0x2710, 0x2710, 0x06, 0x06, "FAILED_TILES_HIGH", .u64, .ro, 0, .v⟩,
   ⟨0x2710, 0x2710, 0x07, 0x07, "FAILED_CORES_STACKS", .u32, .ro, 0, .v⟩,
   ⟨0x2710, 0x2710, 0x08, 0x08, "FAILED_SEGMENTS", .u32, .ro, 0, .v⟩,
   ⟨0x2710, 0x2710, 0x09, 0x09, "FAILED_PORTS", .u32, .ro, 0, .v⟩,
   ⟨0x2710, 0x2710, 0x0A, 0x0A, "UNUSABLE_TILES_LOW", .u64, .ro, 0, .v⟩,
   ⟨0x2710, 0x2710, 0x0B, 0x0B, "UNUSABLE_TILES_MID", .u64, .ro, 0, .v⟩,
   ⟨0x2710, 0x2710, 0x0C, 0x0C, "UNUSABLE_TILES_HIGH", .u64, .ro, 0, .v⟩,
   ⟨0x2710, 0x2710, 0x0D, 0x0D, "BIST_DURATION_MS", .u16, .ro, 0, .v⟩,
   ⟨0x2800, 0x2800, 0x00, 0x00, "Highest subindex", .u8, .ro, 0x30, .f⟩,
   ⟨0x2800, 0x2800, 0x01, 0x10, "COUNT_THRESHOLD", .u16, .rw, 1, .k⟩,
   ⟨0x2800, 0x2800, 0x11, 0x20, "TIME_THRESHOLD_US", .u16, .rw, 0, .k⟩,
   ⟨0x2800, 0x2800, 0x21, 0x30, "RELEASES", .u32, .ro, 0, .v⟩,
   ⟨0x2801, 0x2801, 0x00, 0x00, "Highest subindex", .u8, .ro, 0x10, .f⟩,
   ⟨0x2801, 0x2801, 0x01, 0x10, "HOST_EVENTS", .u32, .rw, 0, .v⟩,
   ⟨0x2A00, 0x2A00, 0x00, 0x00, "Highest subindex", .u8, .ro, 4, .f⟩,
   ⟨0x2A00, 0x2A00, 0x01, 0x01, "ARB_COMMIT", .u8, .wo, 0, .v⟩,
   ⟨0x2A00, 0x2A00, 0x02, 0x02, "COMMIT_COUNT", .u32, .ro, 0, .v⟩,
   ⟨0x2A00, 0x2A00, 0x03, 0x03, "COMMIT_PENDING", .u8, .ro, 0, .v⟩,
   ⟨0x2A00, 0x2A00, 0x04, 0x04, "SHADOW_DIFFERS", .u8, .ro, 0, .v⟩,
   ⟨0x2A01, 0x2A03, 0x00, 0x00, "Highest subindex", .u8, .ro, 7, .f⟩,
   ⟨0x2A01, 0x2A03, 0x01, 0x07, "SHADOW_PRIORITY", .u8, .rw, 8, .k⟩,
   ⟨0x2A11, 0x2A13, 0x00, 0x00, "Highest subindex", .u8, .ro, 7, .f⟩,
   ⟨0x2A11, 0x2A13, 0x01, 0x07, "PRIORITY_IN_FORCE", .u8, .ro, 8, .v⟩,
   ⟨0x2A20, 0x2A20, 0x00, 0x00, "Highest subindex", .u8, .ro, 6, .f⟩]

/-- Rows from index 0x2A20 on. -/
def objRows5 : List ObjRow :=
  [⟨0x2A20, 0x2A20, 0x01, 0x01, "STACKS_LOST", .u8, .ro, 0, .v⟩,
   ⟨0x2A20, 0x2A20, 0x02, 0x02, "DUPLEX_SIZE", .u16, .rw, 0x40, .k⟩,
   ⟨0x2A20, 0x2A20, 0x03, 0x03, "DUPLEX_DEGRADED", .u8, .ro, 0, .v⟩,
   ⟨0x2A20, 0x2A20, 0x04, 0x04, "ECC_CORRECTED", .u32, .ro, 0, .v⟩,
   ⟨0x2A20, 0x2A20, 0x05, 0x05, "ECC_FROM_PARTNER", .u32, .ro, 0, .v⟩,
   ⟨0x2A20, 0x2A20, 0x06, 0x06, "ECC_LOST_COUNT", .u32, .ro, 0, .v⟩,
   ⟨0x2C00, 0x2C00, 0x00, 0x00, "Highest subindex", .u8, .ro, 1, .f⟩,
   ⟨0x2C00, 0x2C00, 0x01, 0x01, "CLEAR_USER", .u8, .wo, 0, .v⟩,
   ⟨0x2C01, 0x2C01, 0x00, 0x00, "Highest subindex", .u8, .ro, 1, .f⟩,
   ⟨0x2C01, 0x2C01, 0x01, 0x01, "TIMEBASE_TRIM", .i32, .rw, 0, .k⟩,
   ⟨0x2C02, 0x2C02, 0x00, 0x00, "Highest subindex", .u8, .ro, 1, .f⟩,
   ⟨0x2C02, 0x2C02, 0x01, 0x01, "SLATE_IN_DELAY", .i16, .rw, 0, .k⟩,
   ⟨0x2C03, 0x2C03, 0x00, 0x00, "Highest subindex", .u8, .ro, 1, .f⟩,
   ⟨0x2C03, 0x2C03, 0x01, 0x01, "ADV_IN_DELAY", .i16, .rw, 0, .k⟩,
   ⟨0x2C04, 0x2C04, 0x00, 0x00, "Highest subindex", .u8, .ro, 0x10, .f⟩,
   ⟨0x2C04, 0x2C04, 0x01, 0x10, "DIE_TEMP_OFFSET", .i16, .rw, 0, .k⟩,
   ⟨0x2C05, 0x2C05, 0x00, 0x00, "Highest subindex", .u8, .ro, 0x10, .f⟩,
   ⟨0x2C05, 0x2C05, 0x01, 0x10, "DIE_TEMP_GAIN", .u16, .rw, 0x8000, .k⟩,
   ⟨0x2C06, 0x2C06, 0x00, 0x00, "Highest subindex", .u8, .ro, 2, .f⟩,
   ⟨0x2C06, 0x2C06, 0x01, 0x02, "MII_RX_DELAY", .u8, .rw, 0xff, .k⟩,
   ⟨0x2C81, 0x2C81, 0x00, 0x00, "Highest subindex", .u8, .ro, 1, .f⟩,
   ⟨0x2C81, 0x2C81, 0x01, 0x01, "TIMEBASE_TRIM", .i32, .ro, 0, .v⟩,
   ⟨0x2C82, 0x2C82, 0x00, 0x00, "Highest subindex", .u8, .ro, 1, .f⟩,
   ⟨0x2C82, 0x2C82, 0x01, 0x01, "SLATE_IN_DELAY", .i16, .ro, 0, .v⟩,
   ⟨0x2C83, 0x2C83, 0x00, 0x00, "Highest subindex", .u8, .ro, 1, .f⟩,
   ⟨0x2C83, 0x2C83, 0x01, 0x01, "ADV_IN_DELAY", .i16, .ro, 0, .v⟩,
   ⟨0x2C84, 0x2C84, 0x00, 0x00, "Highest subindex", .u8, .ro, 0x10, .f⟩,
   ⟨0x2C84, 0x2C84, 0x01, 0x10, "DIE_TEMP_OFFSET", .i16, .ro, 0, .v⟩,
   ⟨0x2C85, 0x2C85, 0x00, 0x00, "Highest subindex", .u8, .ro, 0x10, .f⟩,
   ⟨0x2C85, 0x2C85, 0x01, 0x10, "DIE_TEMP_GAIN", .u16, .ro, 0x8000, .v⟩,
   ⟨0x2C86, 0x2C86, 0x00, 0x00, "Highest subindex", .u8, .ro, 2, .f⟩,
   ⟨0x2C86, 0x2C86, 0x01, 0x02, "MII_RX_DELAY", .u8, .ro, 0, .v⟩,
   ⟨0x2E00, 0x2E00, 0x00, 0x00, "Highest subindex", .u8, .ro, 2, .f⟩,
   ⟨0x2E00, 0x2E00, 0x01, 0x01, "FACTORY_CAL_VALID", .u8, .ro, 0, .v⟩,
   ⟨0x2E00, 0x2E00, 0x02, 0x02, "FACTORY_CAL_DATE", .u32, .ro, 0, .f⟩,
   ⟨0x2E01, 0x2E01, 0x00, 0x00, "Highest subindex", .u8, .ro, 1, .f⟩,
   ⟨0x2E01, 0x2E01, 0x01, 0x01, "TIMEBASE_TRIM", .i32, .ro, 0, .f⟩,
   ⟨0x2E02, 0x2E02, 0x00, 0x00, "Highest subindex", .u8, .ro, 1, .f⟩,
   ⟨0x2E02, 0x2E02, 0x01, 0x01, "SLATE_IN_DELAY", .i16, .ro, 0, .f⟩,
   ⟨0x2E03, 0x2E03, 0x00, 0x00, "Highest subindex", .u8, .ro, 1, .f⟩,
   ⟨0x2E03, 0x2E03, 0x01, 0x01, "ADV_IN_DELAY", .i16, .ro, 0, .f⟩,
   ⟨0x2E04, 0x2E04, 0x00, 0x00, "Highest subindex", .u8, .ro, 0x10, .f⟩,
   ⟨0x2E04, 0x2E04, 0x01, 0x10, "DIE_TEMP_OFFSET", .i16, .ro, 0, .f⟩,
   ⟨0x2E05, 0x2E05, 0x00, 0x00, "Highest subindex", .u8, .ro, 0x10, .f⟩,
   ⟨0x2E05, 0x2E05, 0x01, 0x10, "DIE_TEMP_GAIN", .u16, .ro, 0x8000, .f⟩,
   ⟨0x2E06, 0x2E06, 0x00, 0x00, "Highest subindex", .u8, .ro, 2, .f⟩,
   ⟨0x2E06, 0x2E06, 0x01, 0x02, "MII_RX_DELAY", .u8, .ro, 0, .f⟩,
   ⟨0x2F00, 0x2F00, 0x00, 0x00, "Highest subindex", .u8, .ro, 7, .f⟩,
   ⟨0x2F00, 0x2F00, 0x01, 0x01, "RESET_COMMAND", .u32, .wo, 0, .v⟩,
   ⟨0x2F00, 0x2F00, 0x02, 0x02, "LAST_CAUSES", .u16, .ro, 0, .v⟩]

/-- Rows from index 0x2F00 on. -/
def objRows6 : List ObjRow :=
  [⟨0x2F00, 0x2F00, 0x03, 0x03, "CAUSE_HISTORY", .u16, .rw, 0, .v⟩,
   ⟨0x2F00, 0x2F00, 0x04, 0x04, "RESET_COUNT", .u32, .ro, 0, .v⟩,
   ⟨0x2F00, 0x2F00, 0x05, 0x05, "RESUME_MASK", .u16, .rw, 0, .k⟩,
   ⟨0x2F00, 0x2F00, 0x06, 0x06, "TAKES_RESUMED", .u8, .ro, 0, .v⟩,
   ⟨0x2F00, 0x2F00, 0x07, 0x07, "CFG_SENSE_FAULT", .u8, .ro, 0, .v⟩,
   ⟨0x3000, 0x3000, 0x00, 0x00, "Highest subindex", .u8, .ro, 0x17, .f⟩,
   ⟨0x3000, 0x3000, 0x01, 0x01, "DAILIES_GENERATION", .u32, .ro, 0, .v⟩,
   ⟨0x3000, 0x3000, 0x02, 0x02, "TAKE_NUMBER", .u32, .ro, 0, .v⟩,
   ⟨0x3000, 0x3000, 0x03, 0x03, "OPEN_TIMESTAMP", .u64, .ro, 0, .v⟩,
   ⟨0x3000, 0x3000, 0x04, 0x04, "CLOSE_TIMESTAMP", .u64, .ro, 0, .v⟩,
   ⟨0x3000, 0x3000, 0x05, 0x05, "CLOSE_KIND", .u8, .ro, 0, .v⟩,
   ⟨0x3000, 0x3000, 0x06, 0x06, "TAKE_FLAGS", .u8, .ro, 0, .v⟩,
   ⟨0x3000, 0x3000, 0x07, 0x07, "SHED_LEVEL_OPEN", .u8, .ro, 0, .v⟩,
   ⟨0x3000, 0x3000, 0x08, 0x08, "SHED_LEVEL_CLOSE", .u8, .ro, 0, .v⟩,
   ⟨0x3000, 0x3000, 0x09, 0x09, "LOT_ID", .u64, .ro, 0, .v⟩,
   ⟨0x3000, 0x3000, 0x0A, 0x0A, "WAFERS_INGESTED", .u16, .ro, 0, .v⟩,
   ⟨0x3000, 0x3000, 0x0B, 0x0B, "ANSWERS_PUBLISHED", .u16, .ro, 0, .v⟩,
   ⟨0x3000, 0x3000, 0x0C, 0x0C, "ANSWERS_INVALID", .u16, .ro, 0, .v⟩,
   ⟨0x3000, 0x3000, 0x0D, 0x0D, "LATE_PUBLISHED", .u16, .ro, 0, .v⟩,
   ⟨0x3000, 0x3000, 0x0E, 0x0E, "FAULTS_MASKED", .u16, .ro, 0, .v⟩,
   ⟨0x3000, 0x3000, 0x0F, 0x0F, "CORRECTABLE_ERRORS", .u32, .ro, 0, .v⟩,
   ⟨0x3000, 0x3000, 0x10, 0x10, "QUIRE_VIOLATIONS", .u32, .ro, 0, .v⟩,
   ⟨0x3000, 0x3000, 0x11, 0x11, "INDEX_OOR", .u32, .ro, 0, .v⟩,
   ⟨0x3000, 0x3000, 0x12, 0x12, "LAST_FORECAST", .u32, .ro, 0, .v⟩,
   ⟨0x3000, 0x3000, 0x13, 0x13, "DEADLINE", .u32, .ro, 0, .v⟩,
   ⟨0x3000, 0x3000, 0x14, 0x14, "ROLE_MIGRATIONS", .u8, .ro, 0, .v⟩,
   ⟨0x3000, 0x3000, 0x15, 0x15, "CUES_DISCARDED", .u16, .ro, 0, .v⟩,
   ⟨0x3000, 0x3000, 0x16, 0x16, "PREFETCH_CUES", .u16, .ro, 0, .v⟩,
   ⟨0x3000, 0x3000, 0x17, 0x17, "SET_FLAG_CUES", .u16, .ro, 0, .v⟩,
   ⟨0x3001, 0x3001, 0x00, 0x00, "Highest subindex", .u8, .ro, 0x80, .f⟩,
   ⟨0x3001, 0x3001, 0x01, 0x40, "SATURATION_SHARE", .u16, .ro, 0, .v⟩,
   ⟨0x3001, 0x3001, 0x41, 0x80, "VANISH_SHARE", .u16, .ro, 0, .v⟩,
   ⟨0x3002, 0x3002, 0x00, 0x00, "Highest subindex", .u8, .ro, 9, .f⟩,
   ⟨0x3002, 0x3002, 0x01, 0x08, "CORE_STATE", .u8, .ro, 0, .v⟩,
   ⟨0x3002, 0x3002, 0x09, 0x09, "ROLE_MIGRATIONS_TOTAL", .u32, .ro, 0, .v⟩,
   ⟨0x3100, 0x31BF, 0x00, 0x00, "Highest subindex", .u8, .ro, 9, .f⟩,
   ⟨0x3100, 0x31BF, 0x01, 0x06, "PHASE_CYCLES", .u64, .ro, 0, .v⟩,
   ⟨0x3100, 0x31BF, 0x07, 0x07, "PHYSICAL_TILE", .u16, .ro, 0, .v⟩,
   ⟨0x3100, 0x31BF, 0x08, 0x08, "COMMANDS_COMPLETED", .u32, .ro, 0, .v⟩,
   ⟨0x3100, 0x31BF, 0x09, 0x09, "MEAN_ACLK_MHZ", .u16, .ro, 0, .v⟩,
   ⟨0x4000, 0x4000, 0x00, 0x00, "Highest subindex", .u8, .ro, 4, .f⟩,
   ⟨0x4000, 0x4000, 0x01, 0x01, "NEXT_SEQ", .u32, .ro, 0, .v⟩,
   ⟨0x4000, 0x4000, 0x02, 0x02, "READ_SEQ", .u32, .rw, 0, .v⟩,
   ⟨0x4000, 0x4000, 0x03, 0x03, "OVERRUNS", .u32, .ro, 0, .v⟩,
   ⟨0x4000, 0x4000, 0x04, 0x04, "COALESCE_US", .u16, .rw, 0x3e8, .k⟩,
   ⟨0x4100, 0x41FF, 0x00, 0x00, "Highest subindex", .u8, .ro, 8, .f⟩,
   ⟨0x4100, 0x41FF, 0x01, 0x01, "SEQ", .u32, .ro, 0, .v⟩,
   ⟨0x4100, 0x41FF, 0x02, 0x02, "TIMESTAMP", .u64, .ro, 0, .v⟩,
   ⟨0x4100, 0x41FF, 0x03, 0x03, "TAKE_NUMBER", .u32, .ro, 0, .v⟩,
   ⟨0x4100, 0x41FF, 0x04, 0x04, "CODE", .u16, .ro, 0, .v⟩]

/-- Rows from index 0x4100 on. -/
def objRows7 : List ObjRow :=
  [⟨0x4100, 0x41FF, 0x05, 0x05, "STATUS", .u8, .ro, 0, .v⟩,
   ⟨0x4100, 0x41FF, 0x06, 0x06, "UNIT", .u16, .ro, 0, .v⟩,
   ⟨0x4100, 0x41FF, 0x07, 0x07, "DETAIL", .u32, .ro, 0, .v⟩,
   ⟨0x4100, 0x41FF, 0x08, 0x08, "REPEATS", .u16, .ro, 0, .v⟩,
   ⟨0x6000, 0x60FF, 0x00, 0x00, "Highest subindex", .u8, .ro, 0xa, .f⟩,
   ⟨0x6000, 0x60FF, 0x01, 0x01, "TAKE_NUMBER", .u32, .ro, 0, .v⟩,
   ⟨0x6000, 0x60FF, 0x02, 0x02, "WAFER_INDEX", .u16, .ro, 0, .v⟩,
   ⟨0x6000, 0x60FF, 0x03, 0x03, "FLAGS", .u8, .ro, 0, .v⟩,
   ⟨0x6000, 0x60FF, 0x04, 0x04, "VERDICT_CLASS", .u8, .ro, 0, .v⟩,
   ⟨0x6000, 0x60FF, 0x05, 0x05, "CONFIDENCE", .u16, .ro, 0, .v⟩,
   ⟨0x6000, 0x60FF, 0x06, 0x06, "MODEL_ID", .u16, .ro, 0, .v⟩,
   ⟨0x6000, 0x60FF, 0x07, 0x07, "POSITION", .u32, .ro, 0, .v⟩,
   ⟨0x6000, 0x60FF, 0x08, 0x08, "TIMESTAMP", .u64, .ro, 0, .v⟩,
   ⟨0x6000, 0x60FF, 0x09, 0x09, "RESULT_VALUE", .real32, .ro, 0, .v⟩,
   ⟨0x6000, 0x60FF, 0x0A, 0x0A, "CRC", .u32, .ro, 0, .v⟩,
   ⟨0x6100, 0x6100, 0x00, 0x00, "Highest subindex", .u8, .ro, 0xa, .f⟩,
   ⟨0x6100, 0x6100, 0x01, 0x01, "TAKE_NUMBER", .u32, .ro, 0, .v⟩,
   ⟨0x6100, 0x6100, 0x02, 0x02, "WAFER_INDEX", .u16, .ro, 0, .v⟩,
   ⟨0x6100, 0x6100, 0x03, 0x03, "FLAGS", .u8, .ro, 0, .v⟩,
   ⟨0x6100, 0x6100, 0x04, 0x04, "VERDICT_CLASS", .u8, .ro, 0, .v⟩,
   ⟨0x6100, 0x6100, 0x05, 0x05, "CONFIDENCE", .u16, .ro, 0, .v⟩,
   ⟨0x6100, 0x6100, 0x06, 0x06, "MODEL_ID", .u16, .ro, 0, .v⟩,
   ⟨0x6100, 0x6100, 0x07, 0x07, "POSITION", .u32, .ro, 0, .v⟩,
   ⟨0x6100, 0x6100, 0x08, 0x08, "TIMESTAMP", .u64, .ro, 0, .v⟩,
   ⟨0x6100, 0x6100, 0x09, 0x09, "RESULT_VALUE", .real32, .ro, 0, .v⟩,
   ⟨0x6100, 0x6100, 0x0A, 0x0A, "CRC", .u32, .ro, 0, .v⟩,
   ⟨0x7000, 0x7000, 0x00, 0x00, "Highest subindex", .u8, .ro, 0x10, .f⟩,
   ⟨0x7000, 0x7000, 0x01, 0x01, "PLANT_LOT_COUNT", .u32, .rw, 0, .v⟩,
   ⟨0x7000, 0x7000, 0x02, 0x02, "PLANT_POSITION", .u32, .rw, 0, .v⟩,
   ⟨0x7000, 0x7000, 0x03, 0x03, "LOT_ID", .u64, .rw, 0, .v⟩,
   ⟨0x7000, 0x7000, 0x10, 0x10, "LOT_BLOCK_ADDR", .u64, .rw, 0, .k⟩,
   ⟨0x7010, 0x7010, 0x00, 0x00, "Highest subindex", .u8, .ro, 0x30, .f⟩,
   ⟨0x7010, 0x7010, 0x01, 0x30, "PLANT_WORD", .u32, .rw, 0, .v⟩]

/-- Every row, in ascending index. -/
def objRows : List ObjRow :=
  objRows0 ++ objRows1 ++ objRows2 ++ objRows3 ++ objRows4 ++ objRows5 ++ objRows6 ++ objRows7

/-- The key of index:subindex. -/
def objKey (index sub : Nat) : Nat := index * 256 + sub

/-- Whether a row holds index:subindex. -/
def ObjRow.holds (r : ObjRow) (index sub : Nat) : Bool :=
  decide (r.idxLo ≤ index ∧ index ≤ r.idxHi ∧ r.subLo ≤ sub ∧ sub ≤ r.subHi)

/-- The row of index:subindex, if it is mapped. -/
def objRow (index sub : Nat) : Option ObjRow := objRows.find? (fun r => r.holds index sub)

/-- Whether an index is mapped. -/
def objIndexMapped (index : Nat) : Bool := objRows.any (fun r => decide (r.idxLo ≤ index ∧ index ≤ r.idxHi))

/-- The default of a key (0 for a key that is not mapped). -/
def objDefault (key : Nat) : Nat :=
  match objRow (key / 256) (key % 256) with
  | some r => r.default
  | none => 0

/-- The subindices an index defines, rising (R327). -/
def objSubs (index : Nat) : List Nat :=
  (List.range 256).filter (fun i => (objRow index i).isSome)

/-- The keys of one row. -/
def ObjRow.keys (r : ObjRow) : List Nat :=
  (List.range (r.idxHi + 1 - r.idxLo)).flatMap (fun i =>
    (List.range (r.subHi + 1 - r.subLo)).map (fun j => objKey (r.idxLo + i) (r.subLo + j)))

/-- Every key of class K, in ascending index:subindex (R341, R402). -/
def objKKeys : List Nat :=
  let all := (objRows.filter (fun r => decide (r.cls = .k))).flatMap ObjRow.keys
  (all.foldl (fun (t : Tab Unit) k => Tab.put t k ()) []).map (fun p => p.1)

/-- SYNC_ERROR_LIMIT (0x10F1:02, R330). -/
def Obj.syncErrorLimit : Nat := 0x10F102

/-- SYNC_MODE (0x1C32:01, first of 0x1C32 to 0x1C33, R330). -/
def Obj.syncMode : Nat := 0x1C3201

/-- CYCLE_TIME (0x1C32:02, first of 0x1C32 to 0x1C33, R330). -/
def Obj.cycleTime : Nat := 0x1C3202

/-- MIN_CYCLE_TIME (0x1C32:05, first of 0x1C32 to 0x1C33, R330). -/
def Obj.minCycleTime : Nat := 0x1C3205

/-- SM_EVENTS_MISSED (0x1C32:0B, first of 0x1C32 to 0x1C33, R330). -/
def Obj.smEventsMissed : Nat := 0x1C320B

/-- SYNC_ERROR (0x1C32:20, first of 0x1C32 to 0x1C33, R330). -/
def Obj.syncError : Nat := 0x1C3220

/-- PCI_VENDOR_ID (0x2000:01, R329). -/
def Obj.pciVendorId : Nat := 0x200001

/-- ECAT_VENDOR_ID (0x2000:02, R329). -/
def Obj.ecatVendorId : Nat := 0x200002

/-- PART_NUMBER (0x2000:03, R329). -/
def Obj.partNumber : Nat := 0x200003

/-- SILICON_REVISION (0x2000:04, R329). -/
def Obj.siliconRevision : Nat := 0x200004

/-- SERIAL_NUMBER (0x2000:05, R329). -/
def Obj.serialNumber : Nat := 0x200005

/-- FIRMWARE_VERSION (0x2000:06, R329). -/
def Obj.firmwareVersion : Nat := 0x200006

/-- BOOT_SLOT (0x2000:07, R329). -/
def Obj.bootSlot : Nat := 0x200007

/-- CFG_SENSE_CODE (0x2000:08, R329). -/
def Obj.cfgSenseCode : Nat := 0x200008

/-- FEATURE_MAP (0x2001:01, R3). -/
def Obj.featureMap : Nat := 0x200101

/-- COMBINATION_MODE (0x2002:01, R3). -/
def Obj.combinationMode : Nat := 0x200201

/-- MODE_IN_FORCE (0x2002:02, R3). -/
def Obj.modeInForce : Nat := 0x200202

/-- JOURNAL_STATE (0x2003:01, R329). -/
def Obj.journalState : Nat := 0x200301

/-- ACTIVE_REGION (0x2003:02, R329). -/
def Obj.activeRegion : Nat := 0x200302

/-- GENERATION (0x2003:03, R329). -/
def Obj.generation : Nat := 0x200303

/-- FILL (0x2003:04, R329). -/
def Obj.fill : Nat := 0x200304

/-- K_COUNT (0x2003:05, R329). -/
def Obj.kCount : Nat := 0x200305

/-- ERASE_CYCLES (0x2003:06, R329). -/
def Obj.eraseCycles : Nat := 0x200306

/-- TORN_RECORDS (0x2003:07, R329). -/
def Obj.tornRecords : Nat := 0x200307

/-- JOURNAL_COMMAND (0x2003:08, R329). -/
def Obj.journalCommand : Nat := 0x200308

/-- COMMAND_STATUS (0x2003:09, R329). -/
def Obj.commandStatus : Nat := 0x200309

/-- POSITION_SOURCE (0x2100:01, R31). -/
def Obj.positionSource : Nat := 0x210001

/-- ADV_MIN_PERIOD_US (0x2100:02, R31). -/
def Obj.advMinPeriodUs : Nat := 0x210002

/-- ADV_NOMINAL_PERIOD_US (0x2100:03, R31). -/
def Obj.advNominalPeriodUs : Nat := 0x210003

/-- ADV_SMOOTH_SHIFT (0x2100:04, R31). -/
def Obj.advSmoothShift : Nat := 0x210004

/-- SLATE_HOLDOFF_US (0x2100:05, R31). -/
def Obj.slateHoldoffUs : Nat := 0x210005

/-- ADV_SILENCE_PERIODS (0x2100:06, R31). -/
def Obj.advSilencePeriods : Nat := 0x210006

/-- SLATE_EDGE (0x2100:07, R31). -/
def Obj.slateEdge : Nat := 0x210007

/-- TAKE_NUMBER (0x2100:10, R31). -/
def Obj.lineTakeNumber : Nat := 0x210010

/-- TAKE_NUMBER (0x3000:02, R361). -/
def Obj.dailiesTakeNumber : Nat := 0x300002

/-- TAKE_NUMBER (0x4100:03, first of 0x4100 to 0x41FF, R415). -/
def Obj.entryTakeNumber : Nat := 0x410003

/-- POSITION (0x2100:11, R31). -/
def Obj.position : Nat := 0x210011

/-- ADV_PERIOD_US (0x2100:12, R31). -/
def Obj.advPeriodUs : Nat := 0x210012

/-- TB_COUNT (0x2100:13, R31). -/
def Obj.tbCount : Nat := 0x210013

/-- SOURCE_IN_FORCE (0x2100:14, R31). -/
def Obj.sourceInForce : Nat := 0x210014

/-- ADV_ACCEPTED (0x2100:15, R31). -/
def Obj.advAccepted : Nat := 0x210015

/-- ADV_STORM_COUNT (0x2100:16, R31). -/
def Obj.advStormCount : Nat := 0x210016

/-- SLATE_STORM_COUNT (0x2100:17, R31). -/
def Obj.slateStormCount : Nat := 0x210017

/-- IGNORED_PULSES (0x2100:18, R31). -/
def Obj.ignoredPulses : Nat := 0x210018

/-- TB_STEPS (0x2100:19, R31). -/
def Obj.tbSteps : Nat := 0x210019

/-- CUES_LATE (0x2100:1A, R31). -/
def Obj.cuesLate : Nat := 0x21001A

/-- CUES_DISCARDED (0x2100:1B, R31). -/
def Obj.lineCuesDiscarded : Nat := 0x21001B

/-- CUES_DISCARDED (0x3000:15, R361). -/
def Obj.dailiesCuesDiscarded : Nat := 0x300015

/-- CUES_FAILED (0x2100:1C, R31). -/
def Obj.cuesFailed : Nat := 0x21001C

/-- LAST_CUE_FAILURE (0x2100:1D, R31). -/
def Obj.lastCueFailure : Nat := 0x21001D

/-- TAKE_CONTROL (0x2200:01, R51). -/
def Obj.takeControl : Nat := 0x220001

/-- NOMINAL_LENGTH (0x2200:02, R51). -/
def Obj.nominalLength : Nat := 0x220002

/-- EARLY_TOL (0x2200:03, R51). -/
def Obj.earlyTol : Nat := 0x220003

/-- LATE_TOL (0x2200:04, R51). -/
def Obj.lateTol : Nat := 0x220004

/-- SHED_FLOOR (0x2200:05, R51). -/
def Obj.shedFloor : Nat := 0x220005

/-- SHED_CEILING (0x2200:06, R51). -/
def Obj.shedCeiling : Nat := 0x220006

/-- TOKEN_SKIP_RATIO (0x2200:07, R51). -/
def Obj.tokenSkipRatio : Nat := 0x220007

/-- GOVERNOR_GUARD (0x2200:08, R51). -/
def Obj.governorGuard : Nat := 0x220008

/-- RELAX_MARGIN (0x2200:09, R51). -/
def Obj.relaxMargin : Nat := 0x220009

/-- TAKE_STATE (0x2200:10, R51). -/
def Obj.takeState : Nat := 0x220010

/-- SHED_LEVEL (0x2200:11, R51). -/
def Obj.shedLevel : Nat := 0x220011

/-- FORECAST (0x2200:12, R51). -/
def Obj.forecast : Nat := 0x220012

/-- DEADLINE (0x2200:13, R51). -/
def Obj.takeDeadline : Nat := 0x220013

/-- DEADLINE (0x3000:13, R361). -/
def Obj.dailiesDeadline : Nat := 0x300013

/-- EARLY_SLATES (0x2200:14, R51). -/
def Obj.earlySlates : Nat := 0x220014

/-- SELF_SLATES (0x2200:15, R51). -/
def Obj.selfSlates : Nat := 0x220015

/-- LATE_SLATES (0x2200:16, R51). -/
def Obj.lateSlates : Nat := 0x220016

/-- OVERRUNS (0x2200:17, R51). -/
def Obj.takeOverruns : Nat := 0x220017

/-- OVERRUNS (0x4000:03, R415). -/
def Obj.logOverruns : Nat := 0x400003

/-- LOSS_SCALE_INIT (0x2300:01, R210). -/
def Obj.lossScaleInit : Nat := 0x230001

/-- LOSS_SCALE_MIN (0x2300:02, R210). -/
def Obj.lossScaleMin : Nat := 0x230002

/-- LOSS_SCALE_MAX (0x2300:03, R210). -/
def Obj.lossScaleMax : Nat := 0x230003

/-- GROWTH_INTERVAL (0x2300:04, R210). -/
def Obj.growthInterval : Nat := 0x230004

/-- SATURATION_ACTION (0x2300:05, R210). -/
def Obj.saturationAction : Nat := 0x230005

/-- AMAX_HISTORY_LEN (0x2300:06, R210). -/
def Obj.amaxHistoryLen : Nat := 0x230006

/-- SCALE_MARGIN (0x2300:07, R210). -/
def Obj.scaleMargin : Nat := 0x230007

/-- LOSS_SCALE (0x2300:10, R210). -/
def Obj.lossScale : Nat := 0x230010

/-- CLEAN_STEPS (0x2300:11, R210). -/
def Obj.cleanSteps : Nat := 0x230011

/-- FINAL_STEP (0x2300:12, R210). -/
def Obj.finalStep : Nat := 0x230012

/-- SATURATED_STEPS (0x2300:13, R210). -/
def Obj.saturatedSteps : Nat := 0x230013

/-- SKIPPED_STEPS (0x2300:14, R210). -/
def Obj.skippedSteps : Nat := 0x230014

/-- LATE_SATURATIONS (0x2300:15, R210). -/
def Obj.lateSaturations : Nat := 0x230015

/-- FLOOR_EVENTS (0x2300:16, R210). -/
def Obj.floorEvents : Nat := 0x230016

/-- STEP_RECORD_TIMEOUT_US (0x2300:17, R210). -/
def Obj.stepRecordTimeoutUs : Nat := 0x230017

/-- LAPSED_RECORDS (0x2300:18, R210). -/
def Obj.lapsedRecords : Nat := 0x230018

/-- SATURATIONS (0x2320:01, first of 0x2320 to 0x2323, first of subindices 0x01 to 0x10, R211). -/
def Obj.saturations : Nat := 0x232001

/-- VANISHES (0x2320:11, first of 0x2320 to 0x2323, first of subindices 0x11 to 0x20, R211). -/
def Obj.vanishes : Nat := 0x232011

/-- CONVERTED (0x2320:21, first of 0x2320 to 0x2323, first of subindices 0x21 to 0x30, R211). -/
def Obj.converted : Nat := 0x232021

/-- ENTRY_SELECT (0x2341:01, R212). -/
def Obj.scaleEntrySelect : Nat := 0x234101

/-- ENTRY_SELECT (0x2500:05, R243). -/
def Obj.tableEntrySelect : Nat := 0x250005

/-- SIGMA (0x2341:02, R212). -/
def Obj.sigma : Nat := 0x234102

/-- ENTRY_FORMAT (0x2341:03, R212). -/
def Obj.entryFormat : Nat := 0x234103

/-- HISTORY_FILL (0x2341:04, R212). -/
def Obj.historyFill : Nat := 0x234104

/-- HISTORY (0x2341:10, first of subindices 0x10 to 0x4F, R212). -/
def Obj.history : Nat := 0x234110

/-- SCHEDULE_COUNT (0x2400:01, R151). -/
def Obj.scheduleCount : Nat := 0x240001

/-- TARGET_DENSITY (0x2410:01, first of 0x2410 to 0x241F, R151). -/
def Obj.targetDensity : Nat := 0x241001

/-- DENSITY_STEP (0x2410:02, first of 0x2410 to 0x241F, R151). -/
def Obj.densityStep : Nat := 0x241002

/-- EXCHANGE_START (0x2410:03, first of 0x2410 to 0x241F, R151). -/
def Obj.exchangeStart : Nat := 0x241003

/-- EXCHANGE_END (0x2410:04, first of 0x2410 to 0x241F, R151). -/
def Obj.exchangeEnd : Nat := 0x241004

/-- EXCHANGE_TAKES (0x2410:05, first of 0x2410 to 0x241F, R151). -/
def Obj.exchangeTakes : Nat := 0x241005

/-- INIT_AMPLITUDE (0x2410:06, first of 0x2410 to 0x241F, R151). -/
def Obj.initAmplitude : Nat := 0x241006

/-- DEFERRAL_LIMIT (0x2410:07, first of 0x2410 to 0x241F, R151). -/
def Obj.deferralLimit : Nat := 0x241007

/-- GOAL (0x2410:08, first of 0x2410 to 0x241F, R151). -/
def Obj.goal : Nat := 0x241008

/-- TRIM_DENSITY (0x2410:09, first of 0x2410 to 0x241F, R151). -/
def Obj.trimDensity : Nat := 0x241009

/-- REGROW_DENSITY (0x2410:0A, first of 0x2410 to 0x241F, R151). -/
def Obj.regrowDensity : Nat := 0x24100A

/-- DEFERRED_TAKES (0x2410:0B, first of 0x2410 to 0x241F, R151). -/
def Obj.deferredTakes : Nat := 0x24100B

/-- MEASURED_DENSITY (0x2410:0C, first of 0x2410 to 0x241F, R151). -/
def Obj.measuredDensity : Nat := 0x24100C

/-- AUDIT_RATE (0x2480:01, R158). -/
def Obj.auditRate : Nat := 0x248001

/-- MISS_TARGET (0x2480:02, R158). -/
def Obj.missTarget : Nat := 0x248002

/-- MARGIN_STEP (0x2480:03, R158). -/
def Obj.marginStep : Nat := 0x248003

/-- MARGIN_MIN (0x2480:04, R158). -/
def Obj.marginMin : Nat := 0x248004

/-- MARGIN_MAX (0x2480:05, R158). -/
def Obj.marginMax : Nat := 0x248005

/-- AUDIT_MIN_SAMPLES (0x2480:06, R158). -/
def Obj.auditMinSamples : Nat := 0x248006

/-- MARGIN_INIT (0x2480:07, R158). -/
def Obj.marginInit : Nat := 0x248007

/-- PREDICTOR_MARGIN (0x2481:01, first of subindices 0x01 to 0x40, R158). -/
def Obj.predictorMargin : Nat := 0x248101

/-- AUDITED (0x2482:01, first of subindices 0x01 to 0x40, R158). -/
def Obj.audited : Nat := 0x248201

/-- MISSES (0x2483:01, first of subindices 0x01 to 0x40, R158). -/
def Obj.misses : Nat := 0x248301

/-- TABLE_ADDR (0x2500:01, R243). -/
def Obj.tableAddr : Nat := 0x250001

/-- TABLE_COMMAND (0x2500:02, R243). -/
def Obj.tableCommand : Nat := 0x250002

/-- TABLE_STATUS (0x2500:03, R243). -/
def Obj.tableStatus : Nat := 0x250003

/-- TABLE_GENERATION (0x2500:04, R243). -/
def Obj.tableGeneration : Nat := 0x250004

/-- ENTRY_LOW (0x2500:06, R243). -/
def Obj.entryLow : Nat := 0x250006

/-- ENTRY_HIGH (0x2500:07, R243). -/
def Obj.entryHigh : Nat := 0x250007

/-- TOKENS_DROPPED (0x2500:10, R243). -/
def Obj.tokensDropped : Nat := 0x250010

/-- CHOICES_DROPPED (0x2500:11, R243). -/
def Obj.choicesDropped : Nat := 0x250011

/-- TOKENS_SKIPPED (0x2500:12, R243). -/
def Obj.tokensSkipped : Nat := 0x250012

/-- DISPATCH_NACKS (0x2500:13, R243). -/
def Obj.dispatchNacks : Nat := 0x250013

/-- OWN_RACK (0x2600:01, R300). -/
def Obj.ownRack : Nat := 0x260001

/-- OWN_PACKAGE (0x2600:02, R300). -/
def Obj.ownPackage : Nat := 0x260002

/-- HOP_LIMIT (0x2600:03, R300). -/
def Obj.hopLimit : Nat := 0x260003

/-- RESPONSE_TIMEOUT_US (0x2600:04, R300). -/
def Obj.responseTimeoutUs : Nat := 0x260004

/-- REORDER_HOLD_US (0x2600:05, R300). -/
def Obj.reorderHoldUs : Nat := 0x260005

/-- REMOTE_HBM_BASE (0x2600:06, R300). -/
def Obj.remoteHbmBase : Nat := 0x260006

/-- REMOTE_HBM_SIZE (0x2600:07, R300). -/
def Obj.remoteHbmSize : Nat := 0x260007

/-- FABRIC_STATE (0x2600:08, R300). -/
def Obj.fabricState : Nat := 0x260008

/-- PORTS_UP (0x2600:09, R300). -/
def Obj.portsUp : Nat := 0x260009

/-- LASER_LOW (0x2600:0A, R300). -/
def Obj.laserLow : Nat := 0x26000A

/-- WAVELENGTH_SWITCHES (0x2600:0B, R300). -/
def Obj.wavelengthSwitches : Nat := 0x26000B

/-- REROUTES (0x2600:0C, R300). -/
def Obj.reroutes : Nat := 0x26000C

/-- LINK_REPLAYS (0x2600:0D, R300). -/
def Obj.linkReplays : Nat := 0x26000D

/-- NACKS_SENT (0x2600:0E, R300). -/
def Obj.nacksSent : Nat := 0x26000E

/-- NACKS_RECEIVED (0x2600:0F, R300). -/
def Obj.nacksReceived : Nat := 0x26000F

/-- REMOTE_TIMEOUTS (0x2600:10, R300). -/
def Obj.remoteTimeouts : Nat := 0x260010

/-- DUPLICATES_DISCARDED (0x2600:11, R300). -/
def Obj.duplicatesDiscarded : Nat := 0x260011

/-- GROUP_SIZE (0x2600:12, R300). -/
def Obj.groupSize : Nat := 0x260012

/-- PORT_ROLE (0x2601:01, first of subindices 0x01 to 0x20, R300). -/
def Obj.portRole : Nat := 0x260101

/-- RACK_ROUTE (0x2602:01, first of subindices 0x01 to 0x40, R300). -/
def Obj.rackRoute : Nat := 0x260201

/-- PACKAGE_ROUTE (0x2603:01, first of subindices 0x01 to 0x40, R300). -/
def Obj.packageRoute : Nat := 0x260301

/-- GROUP_MEMBERS (0x2604:01, first of subindices 0x01 to 0x80, R300). -/
def Obj.groupMembers : Nat := 0x260401

/-- PORT_STATUS (0x2605:01, first of subindices 0x01 to 0x20, R300). -/
def Obj.portStatus : Nat := 0x260501

/-- DEVICE_STATE (0x2700:01, R387). -/
def Obj.deviceState : Nat := 0x270001

/-- POWER_REQUEST (0x2700:02, R387). -/
def Obj.powerRequest : Nat := 0x270002

/-- RESERVE_SLEEP (0x2700:03, R387). -/
def Obj.reserveSleep : Nat := 0x270003

/-- ALERT_THRESHOLD (0x2700:04, R387). -/
def Obj.alertThreshold : Nat := 0x270004

/-- TRIP_THRESHOLD (0x2700:05, R387). -/
def Obj.tripThreshold : Nat := 0x270005

/-- TRIP_RELEASE (0x2700:06, R387). -/
def Obj.tripRelease : Nat := 0x270006

/-- MAX_TEMP (0x2700:07, R387). -/
def Obj.maxTemp : Nat := 0x270007

/-- ALERT_STATE (0x2700:08, R387). -/
def Obj.alertState : Nat := 0x270008

/-- USABLE_TILES (0x2700:09, R387). -/
def Obj.usableTiles : Nat := 0x270009

/-- STANDBY_ENTRIES (0x2700:0A, R387). -/
def Obj.standbyEntries : Nat := 0x27000A

/-- DIE_TEMPERATURE (0x2701:01, first of subindices 0x01 to 0x10, R388). -/
def Obj.dieTemperature : Nat := 0x270101

/-- STACK_TEMPERATURE (0x2702:01, first of subindices 0x01 to 0x08, R388). -/
def Obj.stackTemperature : Nat := 0x270201

/-- BIST_STATUS (0x2710:01, R393). -/
def Obj.bistStatus : Nat := 0x271001

/-- VDD_CORE_DX0 (0x2710:02, R393). -/
def Obj.vddCoreDx0 : Nat := 0x271002

/-- VDD_CORE_DX1 (0x2710:03, R393). -/
def Obj.vddCoreDx1 : Nat := 0x271003

/-- FAILED_TILES_LOW (0x2710:04, R393). -/
def Obj.failedTilesLow : Nat := 0x271004

/-- FAILED_TILES_MID (0x2710:05, R393). -/
def Obj.failedTilesMid : Nat := 0x271005

/-- FAILED_TILES_HIGH (0x2710:06, R393). -/
def Obj.failedTilesHigh : Nat := 0x271006

/-- FAILED_CORES_STACKS (0x2710:07, R393). -/
def Obj.failedCoresStacks : Nat := 0x271007

/-- FAILED_SEGMENTS (0x2710:08, R393). -/
def Obj.failedSegments : Nat := 0x271008

/-- FAILED_PORTS (0x2710:09, R393). -/
def Obj.failedPorts : Nat := 0x271009

/-- UNUSABLE_TILES_LOW (0x2710:0A, R393). -/
def Obj.unusableTilesLow : Nat := 0x27100A

/-- UNUSABLE_TILES_MID (0x2710:0B, R393). -/
def Obj.unusableTilesMid : Nat := 0x27100B

/-- UNUSABLE_TILES_HIGH (0x2710:0C, R393). -/
def Obj.unusableTilesHigh : Nat := 0x27100C

/-- BIST_DURATION_MS (0x2710:0D, R393). -/
def Obj.bistDurationMs : Nat := 0x27100D

/-- COUNT_THRESHOLD (0x2800:01, first of subindices 0x01 to 0x10, R360). -/
def Obj.countThreshold : Nat := 0x280001

/-- TIME_THRESHOLD_US (0x2800:11, first of subindices 0x11 to 0x20, R360). -/
def Obj.timeThresholdUs : Nat := 0x280011

/-- RELEASES (0x2800:21, first of subindices 0x21 to 0x30, R360). -/
def Obj.releases : Nat := 0x280021

/-- HOST_EVENTS (0x2801:01, first of subindices 0x01 to 0x10, R360). -/
def Obj.hostEvents : Nat := 0x280101

/-- ARB_COMMIT (0x2A00:01, R275). -/
def Obj.arbCommit : Nat := 0x2A0001

/-- COMMIT_COUNT (0x2A00:02, R275). -/
def Obj.commitCount : Nat := 0x2A0002

/-- COMMIT_PENDING (0x2A00:03, R275). -/
def Obj.commitPending : Nat := 0x2A0003

/-- SHADOW_DIFFERS (0x2A00:04, R275). -/
def Obj.shadowDiffers : Nat := 0x2A0004

/-- SHADOW_PRIORITY (0x2A01:01, first of 0x2A01 to 0x2A03, first of subindices 0x01 to 0x07, R275). -/
def Obj.shadowPriority : Nat := 0x2A0101

/-- PRIORITY_IN_FORCE (0x2A11:01, first of 0x2A11 to 0x2A13, first of subindices 0x01 to 0x07, R275). -/
def Obj.priorityInForce : Nat := 0x2A1101

/-- STACKS_LOST (0x2A20:01, R255). -/
def Obj.stacksLost : Nat := 0x2A2001

/-- DUPLEX_SIZE (0x2A20:02, R255). -/
def Obj.duplexSize : Nat := 0x2A2002

/-- DUPLEX_DEGRADED (0x2A20:03, R255). -/
def Obj.duplexDegraded : Nat := 0x2A2003

/-- ECC_CORRECTED (0x2A20:04, R255). -/
def Obj.eccCorrected : Nat := 0x2A2004

/-- ECC_FROM_PARTNER (0x2A20:05, R255). -/
def Obj.eccFromPartner : Nat := 0x2A2005

/-- ECC_LOST_COUNT (0x2A20:06, R255). -/
def Obj.eccLostCount : Nat := 0x2A2006

/-- CLEAR_USER (0x2C00:01, R345). -/
def Obj.clearUser : Nat := 0x2C0001

/-- TIMEBASE_TRIM (0x2C01:01, R345). -/
def Obj.userTimebaseTrim : Nat := 0x2C0101

/-- TIMEBASE_TRIM (0x2C81:01, R345). -/
def Obj.effTimebaseTrim : Nat := 0x2C8101

/-- TIMEBASE_TRIM (0x2E01:01, R345). -/
def Obj.factoryTimebaseTrim : Nat := 0x2E0101

/-- SLATE_IN_DELAY (0x2C02:01, R345). -/
def Obj.userSlateInDelay : Nat := 0x2C0201

/-- SLATE_IN_DELAY (0x2C82:01, R345). -/
def Obj.effSlateInDelay : Nat := 0x2C8201

/-- SLATE_IN_DELAY (0x2E02:01, R345). -/
def Obj.factorySlateInDelay : Nat := 0x2E0201

/-- ADV_IN_DELAY (0x2C03:01, R345). -/
def Obj.userAdvInDelay : Nat := 0x2C0301

/-- ADV_IN_DELAY (0x2C83:01, R345). -/
def Obj.effAdvInDelay : Nat := 0x2C8301

/-- ADV_IN_DELAY (0x2E03:01, R345). -/
def Obj.factoryAdvInDelay : Nat := 0x2E0301

/-- DIE_TEMP_OFFSET (0x2C04:01, first of subindices 0x01 to 0x10, R345). -/
def Obj.userDieTempOffset : Nat := 0x2C0401

/-- DIE_TEMP_OFFSET (0x2C84:01, first of subindices 0x01 to 0x10, R345). -/
def Obj.effDieTempOffset : Nat := 0x2C8401

/-- DIE_TEMP_OFFSET (0x2E04:01, first of subindices 0x01 to 0x10, R345). -/
def Obj.factoryDieTempOffset : Nat := 0x2E0401

/-- DIE_TEMP_GAIN (0x2C05:01, first of subindices 0x01 to 0x10, R345). -/
def Obj.userDieTempGain : Nat := 0x2C0501

/-- DIE_TEMP_GAIN (0x2C85:01, first of subindices 0x01 to 0x10, R345). -/
def Obj.effDieTempGain : Nat := 0x2C8501

/-- DIE_TEMP_GAIN (0x2E05:01, first of subindices 0x01 to 0x10, R345). -/
def Obj.factoryDieTempGain : Nat := 0x2E0501

/-- MII_RX_DELAY (0x2C06:01, first of subindices 0x01 to 0x02, R345). -/
def Obj.userMiiRxDelay : Nat := 0x2C0601

/-- MII_RX_DELAY (0x2C86:01, first of subindices 0x01 to 0x02, R345). -/
def Obj.effMiiRxDelay : Nat := 0x2C8601

/-- MII_RX_DELAY (0x2E06:01, first of subindices 0x01 to 0x02, R345). -/
def Obj.factoryMiiRxDelay : Nat := 0x2E0601

/-- FACTORY_CAL_VALID (0x2E00:01, R346). -/
def Obj.factoryCalValid : Nat := 0x2E0001

/-- FACTORY_CAL_DATE (0x2E00:02, R346). -/
def Obj.factoryCalDate : Nat := 0x2E0002

/-- RESET_COMMAND (0x2F00:01, R368). -/
def Obj.resetCommand : Nat := 0x2F0001

/-- LAST_CAUSES (0x2F00:02, R368). -/
def Obj.lastCauses : Nat := 0x2F0002

/-- CAUSE_HISTORY (0x2F00:03, R368). -/
def Obj.causeHistory : Nat := 0x2F0003

/-- RESET_COUNT (0x2F00:04, R368). -/
def Obj.resetCount : Nat := 0x2F0004

/-- RESUME_MASK (0x2F00:05, R368). -/
def Obj.resumeMask : Nat := 0x2F0005

/-- TAKES_RESUMED (0x2F00:06, R368). -/
def Obj.takesResumed : Nat := 0x2F0006

/-- CFG_SENSE_FAULT (0x2F00:07, R368). -/
def Obj.cfgSenseFault : Nat := 0x2F0007

/-- DAILIES_GENERATION (0x3000:01, R361). -/
def Obj.dailiesGeneration : Nat := 0x300001

/-- OPEN_TIMESTAMP (0x3000:03, R361). -/
def Obj.openTimestamp : Nat := 0x300003

/-- CLOSE_TIMESTAMP (0x3000:04, R361). -/
def Obj.closeTimestamp : Nat := 0x300004

/-- CLOSE_KIND (0x3000:05, R361). -/
def Obj.closeKind : Nat := 0x300005

/-- TAKE_FLAGS (0x3000:06, R361). -/
def Obj.takeFlags : Nat := 0x300006

/-- SHED_LEVEL_OPEN (0x3000:07, R361). -/
def Obj.shedLevelOpen : Nat := 0x300007

/-- SHED_LEVEL_CLOSE (0x3000:08, R361). -/
def Obj.shedLevelClose : Nat := 0x300008

/-- LOT_ID (0x3000:09, R361). -/
def Obj.dailiesLotId : Nat := 0x300009

/-- LOT_ID (0x7000:03, R337). -/
def Obj.plantLotId : Nat := 0x700003

/-- WAFERS_INGESTED (0x3000:0A, R361). -/
def Obj.wafersIngested : Nat := 0x30000A

/-- ANSWERS_PUBLISHED (0x3000:0B, R361). -/
def Obj.answersPublished : Nat := 0x30000B

/-- ANSWERS_INVALID (0x3000:0C, R361). -/
def Obj.answersInvalid : Nat := 0x30000C

/-- LATE_PUBLISHED (0x3000:0D, R361). -/
def Obj.latePublished : Nat := 0x30000D

/-- FAULTS_MASKED (0x3000:0E, R361). -/
def Obj.faultsMasked : Nat := 0x30000E

/-- CORRECTABLE_ERRORS (0x3000:0F, R361). -/
def Obj.correctableErrors : Nat := 0x30000F

/-- QUIRE_VIOLATIONS (0x3000:10, R361). -/
def Obj.quireViolations : Nat := 0x300010

/-- INDEX_OOR (0x3000:11, R361). -/
def Obj.indexOor : Nat := 0x300011

/-- LAST_FORECAST (0x3000:12, R361). -/
def Obj.lastForecast : Nat := 0x300012

/-- ROLE_MIGRATIONS (0x3000:14, R361). -/
def Obj.roleMigrations : Nat := 0x300014

/-- PREFETCH_CUES (0x3000:16, R361). -/
def Obj.prefetchCues : Nat := 0x300016

/-- SET_FLAG_CUES (0x3000:17, R361). -/
def Obj.setFlagCues : Nat := 0x300017

/-- SATURATION_SHARE (0x3001:01, first of subindices 0x01 to 0x40, R361). -/
def Obj.saturationShare : Nat := 0x300101

/-- VANISH_SHARE (0x3001:41, first of subindices 0x41 to 0x80, R361). -/
def Obj.vanishShare : Nat := 0x300141

/-- CORE_STATE (0x3002:01, first of subindices 0x01 to 0x08, R361). -/
def Obj.coreState : Nat := 0x300201

/-- ROLE_MIGRATIONS_TOTAL (0x3002:09, R361). -/
def Obj.roleMigrationsTotal : Nat := 0x300209

/-- PHASE_CYCLES (0x3100:01, first of 0x3100 to 0x31BF, first of subindices 0x01 to 0x06, R361). -/
def Obj.phaseCycles : Nat := 0x310001

/-- PHYSICAL_TILE (0x3100:07, first of 0x3100 to 0x31BF, R361). -/
def Obj.physicalTile : Nat := 0x310007

/-- COMMANDS_COMPLETED (0x3100:08, first of 0x3100 to 0x31BF, R361). -/
def Obj.commandsCompleted : Nat := 0x310008

/-- MEAN_ACLK_MHZ (0x3100:09, first of 0x3100 to 0x31BF, R361). -/
def Obj.meanAclkMhz : Nat := 0x310009

/-- NEXT_SEQ (0x4000:01, R415). -/
def Obj.nextSeq : Nat := 0x400001

/-- READ_SEQ (0x4000:02, R415). -/
def Obj.readSeq : Nat := 0x400002

/-- COALESCE_US (0x4000:04, R415). -/
def Obj.coalesceUs : Nat := 0x400004

/-- SEQ (0x4100:01, first of 0x4100 to 0x41FF, R415). -/
def Obj.seq : Nat := 0x410001

/-- TIMESTAMP (0x4100:02, first of 0x4100 to 0x41FF, R415). -/
def Obj.timestamp : Nat := 0x410002

/-- CODE (0x4100:04, first of 0x4100 to 0x41FF, R415). -/
def Obj.code : Nat := 0x410004

/-- STATUS (0x4100:05, first of 0x4100 to 0x41FF, R415). -/
def Obj.status : Nat := 0x410005

/-- UNIT (0x4100:06, first of 0x4100 to 0x41FF, R415). -/
def Obj.unit : Nat := 0x410006

/-- DETAIL (0x4100:07, first of 0x4100 to 0x41FF, R415). -/
def Obj.detail : Nat := 0x410007

/-- REPEATS (0x4100:08, first of 0x4100 to 0x41FF, R415). -/
def Obj.repeats : Nat := 0x410008

/-- PLANT_LOT_COUNT (0x7000:01, R337). -/
def Obj.plantLotCount : Nat := 0x700001

/-- PLANT_POSITION (0x7000:02, R337). -/
def Obj.plantPosition : Nat := 0x700002

/-- LOT_BLOCK_ADDR (0x7000:10, R337). -/
def Obj.lotBlockAddr : Nat := 0x700010

/-- PLANT_WORD (0x7010:01, first of subindices 0x01 to 0x30, R337). -/
def Obj.plantWord : Nat := 0x701001

end Sys2Proof.Machine
end

