-- ==== Sys2Proof/Machine/Ops.lean ====
section
/-!
DEFINITION. The named accesses to the state: objects, tiles, tile memories, outputs, free values, and the facts
that the variant fixes (R1, R2, R251).
-/

namespace Sys2Proof.Machine

open Sys2Proof

/-- The 8-bit code of a status (R18, R414). -/
def statusCode : Status → Nat
  | .ok => 0x00
  | .zeroWork => 0x01
  | .outOfRange => 0x04
  | .quireViolation => 0x05
  | .unmapped => 0x08
  | .forbidden => 0x09
  | .absentUnit => 0x0C
  | .eccRecovered => 0x10
  | .eccLost => 0x11
  | .isolated => 0x20
  | .notReady => 0x30
  | .malformed => 0x3F
  | .shed => 0x40
  | .waitTimeout => 0x41
  | .stateTorn => 0x42
  | .roundClosed => 0x43
  | .remoteTimeout => 0x44
  | .hopLimit => 0x45
  | .hostAbort => 0x46
  | .journalFault => 0x47

/-- Every status, in code order. -/
def allStatuses : List Status :=
  [.ok, .zeroWork, .outOfRange, .quireViolation, .unmapped, .forbidden, .absentUnit, .eccRecovered, .eccLost,
   .isolated, .notReady, .malformed, .shed, .waitTimeout, .stateTorn, .roundClosed, .remoteTimeout, .hopLimit,
   .hostAbort, .journalFault]

/-- The status of a code, if the tables list it. -/
def statusOfCode (c : Nat) : Option Status := allStatuses.find? (fun st => statusCode st == c)

end Sys2Proof.Machine

namespace Sys2Proof

/-! ## The variant (R1) -/

/-- Dies fitted. -/
def Variant.dies : Variant → Nat
  | .tmn5840 => 1
  | _ => 2

/-- Tiles built (R2). -/
def Variant.tiles (v : Variant) : Nat := v.dies * 96

/-- The minimum number of enabled tiles (R1). -/
def Variant.minTiles (v : Variant) : Nat := v.dies * 90

/-- Vector lanes enabled per tile. -/
def Variant.lanes : Variant → Nat
  | .tmn5840 => 64
  | _ => 128

/-- HBM stacks fitted. -/
def Variant.stacks : Variant → Nat
  | .tmn5840 => 4
  | _ => 8

/-- Optical ports fitted. -/
def Variant.ports : Variant → Nat
  | .tmn5800 => 32
  | .tmn5830 => 0
  | .tmn5840 => 16

/-- Whether the die-to-die bridge is fitted. -/
def Variant.hasBridge : Variant → Bool
  | .tmn5840 => false
  | _ => true

/-- The part number (R329). -/
def Variant.partNumber : Variant → Nat
  | .tmn5800 => 0x5800
  | .tmn5830 => 0x5830
  | .tmn5840 => 0x5840

/-- The bit of an HBM address that names its half (R251). -/
def Variant.halfBit : Variant → Nat
  | .tmn5840 => 38
  | _ => 39

/-- One past the last HBM address (R251). -/
def Variant.hbmEnd (v : Variant) : Nat := 2 ^ (v.halfBit + 1)

end Sys2Proof

namespace Sys2Proof.Machine

open Sys2Proof

/-- The die of a physical tile (R2). -/
def tileDie (p : Nat) : Nat := p / 96

/-! ## Objects -/

/-- The stored value of a key; a key that is not listed reads its default (R323). -/
def State.obj (s : State) (k : Nat) : Nat := (Tab.look s.objs k).getD (objDefault k)

/-- Store a value at a key. -/
def State.setObj (s : State) (k v : Nat) : State := { s with objs := Tab.store s.objs (objDefault k) k v }

/-- Add to a counter of a given width, wrapping. -/
def State.addObj (s : State) (k bits n : Nat) : State := s.setObj k ((s.obj k + n) % 2 ^ bits)

/-- Add one to a 32-bit counter. -/
def State.incObj (s : State) (k : Nat) : State := s.addObj k 32 1

/-- The value of a signed object of `bits` bits. -/
def State.objInt (s : State) (k bits : Nat) : Int := signedOf bits (s.obj k)

/-- Whether a take is open (TAKE_STATE, R51). -/
def State.takeOpen (s : State) : Bool := decide (s.obj Obj.takeState ≠ 0)

/-- TAKE_CONTROL is STOP and no take is open: the state that R79, R210, R212, R242, R255 and R342 ask for. -/
def State.stopped (s : State) : Bool := !s.takeOpen && decide (s.obj Obj.takeControl = 0)

/-- The objects whose written values take force at take openings only: 0x2100:01 to 07, 0x2200:02 to 09, 0x2300:01 to
07, 0x2410 to 0x241F, 0x2480 and 0x2481 (R43, R51, R149, R158, R210). -/
def forcedKey (k : Nat) : Bool :=
  decide (0x210001 ≤ k ∧ k ≤ 0x210007) || decide (0x220002 ≤ k ∧ k ≤ 0x220009) ||
    decide (0x230001 ≤ k ∧ k ≤ 0x230007) || decide (0x241000 ≤ k ∧ k < 0x242000) ||
    decide (0x248000 ≤ k ∧ k < 0x248200)

/-- The value that governs now of an object that takes force at take openings (R36, R43, R51, R149, R158, R210): the one
in force since the last opening, or since the restore before the first. A value of 0x2100 takes force at a close, so
with no take open the one last written governs (log 147). -/
def State.governs (s : State) (k : Nat) : Nat :=
  if !s.takeOpen && decide (k / 256 = 0x2100) then s.obj k else Tab.read s.take.inForce (objDefault k) k

/-- Whether FITTED mode governs (R6). -/
def State.fitted (s : State) : Bool := decide (s.obj Obj.modeInForce = 1)

/-- Every block but the always-on domain is held: a reset source is asserted (R365), or step 1 of R406 holds them. -/
def State.inReset (s : State) : Bool := decide (s.rst.asserted ≠ 0) || s.sec.heldForScan

/-- A block is fenced by its isolation wrapper, or out of service until the next reset (R375, R390). -/
def State.blockDown (s : State) (b : Block) : Bool := s.rst.fencedBlocks.contains b || s.rst.unusableBlocks.contains b

/-- A block at work is no longer Idle (R381). -/
def State.wakeBlock (s : State) (b : Block) : State :=
  if s.rst.idleBlocks.isEmpty then s else { s with rst := { s.rst with idleBlocks := s.rst.idleBlocks.filter (fun a => a != b) } }

/-- The link can carry traffic: PERST_N is high, both PCIe domains are released, which the host reference clock gates
(R304, R373), the port is not fenced (R375), and the link has trained at some width (R412). -/
def State.linkAlive (s : State) : Bool :=
  s.rst.perstN && s.rst.domains.contains (.pcie 0) && s.rst.domains.contains (.pcie 1) && !(s.blockDown .hostPort) &&
    !s.host.linkLost

/-- The part may issue DMA and MSI-X messages: the link carries traffic and the function is not in D3hot (R306). -/
def State.dmaOpen (s : State) : Bool := s.linkAlive && !s.host.d3hot

/-! ## Outputs and free values -/

/-- Drive something onto the boundary. -/
def State.emit (s : State) (o : Out) : State := { s with out := s.out ++ [o] }

/-- The next free value (log 4). -/
def State.freeNow (s : State) : BitVec 64 := Config.freeValue s.free

/-- Use up one free value. -/
def State.useFree (s : State) : State := { s with free := s.free + 1 }

/-! ## The shared SRAM of the control complex (R347) -/

/-- Bytes of the shared SRAM. -/
def sramBytes : Nat := 0x800000

/-- Write bytes of the shared SRAM; a write puts an error right. -/
def State.sramWrite (s : State) (a : Nat) (bs : List Byte) : State :=
  { s with intr := { s.intr with
      sram := bs.zipIdx.foldl (fun (t : Tab Byte) b => Tab.put t ((a + b.2) % sramBytes) b.1) s.intr.sram,
      sramErrors := s.intr.sramErrors.filter (fun e => decide (bs.length ≤ (e.1 + sramBytes - a) % sramBytes)) } }

/-! ## Tiles -/

/-- A logical tile with nothing in it. -/
def LogTile.fresh : LogTile :=
  { phys := none, queue := [], nextId := 0, streams := [], hist := [], replays := [], restartAt := none,
    lastDie := 0, slackUsed := [], replayTo := none, inPlace := false, run := none, staged := none, ring := [], writeIndex := 0,
    flags := [], stepCtr := 0, stepLevel := 0, ops := [], seqs := [], phaseCycles := [], completed := 0,
    replayPending := none, eccFaults := [] }

/-- A physical tile right after its reset. -/
def PhysTile.fresh : PhysTile :=
  { epoch := 0, store := [], am := [], occupied := [], vregs := [], vgen := 0, filling := false, tableFill := .unfilled,
    parityErrors := [], storeErrors := [], amErrors := [], fences := 0, fenced := false, unusable := false,
    sleeping := false, waking := false, idle := false,
    conv := [], quireViolations := 0, indexOor := 0, tokensDropped := 0, choicesDropped := 0,
    tokensSkipped := 0 }

/-- A logical tile. -/
def State.lt (s : State) (l : Nat) : LogTile := Tab.read s.tiles LogTile.fresh l

/-- Replace a logical tile. -/
def State.setLt (s : State) (l : Nat) (t : LogTile) : State := { s with tiles := Tab.put s.tiles l t }

/-- A physical tile. -/
def State.pt (s : State) (p : Nat) : PhysTile := Tab.read s.phys PhysTile.fresh p

/-- Replace a physical tile. -/
def State.setPt (s : State) (p : Nat) (t : PhysTile) : State := { s with phys := Tab.put s.phys p t }

/-- TILE_BUDGET of the active reel; 0 with none. -/
def State.budget (s : State) : Nat :=
  match s.reels.active with
  | some r => r.tileBudget
  | none => 0

/-- A tile of the variant that BIST found good (R389) and that no self-test has marked unusable (R375). -/
def State.tileUsable (s : State) (p : Nat) : Bool :=
  decide (p < s.part.variant.tiles) && !(s.rst.bistInForce.failedTiles.contains p) && !(s.pt p).unusable

/-- A usable tile that is not fenced: one that placement may use (R56; log 15 on a fenced tile). -/
def State.tilePlaceable (s : State) (p : Nat) : Bool := s.tileUsable p && !(s.pt p).fenced

/-- The tiles that placement may use, ascending. -/
def State.placeable (s : State) : List Nat := (List.range s.part.variant.tiles).filter s.tilePlaceable

/-- The logical tile that a physical tile holds. -/
def State.logicalOf (s : State) (p : Nat) : Option Nat :=
  (s.tiles.find? (fun e => e.2.phys == some p)).map (fun e => e.1)

/-- The reserve tiles of R56: placeable and without a logical number. -/
def State.reserve (s : State) : List Nat := s.placeable.filter (fun p => (s.logicalOf p).isNone)

/-- Count of enabled tiles (R56, R59). -/
def State.enabledTiles (s : State) : Nat := s.placeable.length

/-! ## Tile memories (R444) -/

/-- One tile-store byte. -/
def State.storeByte (s : State) (p a : Nat) : Byte :=
  (Tab.look (s.pt p).store a).getD (Config.unspecifiedByte (s.pt p).epoch p a)

/-- The errors that a write of `n` places from `a` leaves: what is written is right again (R407). -/
def clearErrors (errors : List Nat) (a n : Nat) : List Nat := errors.filter (fun e => decide (e < a) || decide (a + n ≤ e))

/-- Write consecutive tile-store bytes. -/
def State.storeWrite (s : State) (p a : Nat) (bs : List Byte) : State :=
  s.setPt p { s.pt p with store := Tab.putList (s.pt p).store a bs,
                          storeErrors := clearErrors (s.pt p).storeErrors a bs.length }

/-- The key of a pair: physical slot, row, column (R187). -/
def amKey (slot row col : Nat) : Nat := (slot * 64 + row) * 64 + col

/-- A pair of the accumulator memory: value and error (R187). -/
structure Pair where
  v : F32
  e : F32
  deriving DecidableEq, Repr

/-- The pair (+0, +0). -/
def Pair.zero : Pair := { v := 0, e := 0 }

/-- The 64 bits of a pair: value in bits 31 to 0, error above (R187). -/
def Pair.bits (x : Pair) : BitVec 64 := (x.e ++ x.v)

/-- The pair of 64 bits. -/
def Pair.ofBits (b : BitVec 64) : Pair := { v := b.setWidth 32, e := (b >>> 32).setWidth 32 }

/-- Read a pair of a physical slot. -/
def PhysTile.pair (t : PhysTile) (p slot row col : Nat) : Pair :=
  Pair.ofBits ((Tab.look t.am (amKey slot row col)).getD (Config.unspecifiedPair t.epoch p (amKey slot row col)))

/-- Write a pair of a physical slot. -/
def PhysTile.setPair (t : PhysTile) (slot row col : Nat) (x : Pair) : PhysTile :=
  { t with am := Tab.put t.am (amKey slot row col) x.bits, amErrors := clearErrors t.amErrors (amKey slot row col) 1 }

/-- The 4,096 pairs of a physical slot, rows first. -/
def PhysTile.slot (t : PhysTile) (p slot : Nat) : List Pair :=
  (Tab.dense (Config.unspecifiedPair t.epoch p) (Tab.within t.am (amKey slot 0 0) (amKey (slot + 1) 0 0))
    (amKey slot 0 0) 4096).map Pair.ofBits

/-- Write all pairs of a physical slot. -/
def PhysTile.setSlot (t : PhysTile) (slot : Nat) (pairs : List Pair) : PhysTile :=
  { t with am := Tab.splice t.am (amKey slot 0 0) (pairs.map Pair.bits),
           amErrors := clearErrors t.amErrors (amKey slot 0 0) pairs.length }

/-- A running element of V24 to V31 (R78). -/
def PhysTile.running (t : PhysTile) (p j : Nat) : F32 :=
  (Tab.look t.vregs j).getD (Config.unspecifiedReg t.epoch p (t.vgen * 1024 + j))

/-- Whether level `j` of a reproducible slot's stack is occupied (R191). -/
def PhysTile.levelOccupied (t : PhysTile) (slot level : Nat) : Bool := bitAt (Tab.read t.occupied 0 slot) level

/-- The local reset of a tile: its memories lose their contents (R375, R444), its unit state is as after reset. -/
def PhysTile.afterReset (t : PhysTile) : PhysTile :=
  { t with epoch := t.epoch + 1, store := [], am := [], occupied := [], vregs := [], filling := false,
           tableFill := .unfilled, parityErrors := [], storeErrors := [], amErrors := [] }

/-- A random table filled with a SEED (R214). -/
def PhysTile.fillTable (t : PhysTile) (seed : BitVec 64) : PhysTile :=
  { t with filling := false, tableFill := .filled seed, parityErrors := [] }

end Sys2Proof.Machine
end

