-- ==== Sys2Proof/Machine/Flags.lean ====
section
/-!
DEFINITION. Interrupt sources, coalescing and the event log (R352 to R359, R415 to R417), and the counts and
flags that faults and failures set (R408, R411).
-/

namespace Sys2Proof.Machine

open Sys2Proof

/-! ## Interrupts -/

/-- The pending bits of a group. -/
def State.pend (s : State) (g : Nat) : Nat := Tab.read s.intr.pend 0 g

/-- The bits of SRC_CFG that are not reserved (R354). -/
def srcCfgMask : Nat := 0xFF0F

/-- The reset configuration that firmware gives a source (R354, log 13). A core failure reaches every other healthy core
(R348), so its source targets all eight. -/
def firmwareCfg (src : Nat) : Nat :=
  ((Config.firmwareSrcCfg src).toNat &&& srcCfgMask) ||| (if src = 0x120 then 0xFF00 else 0)

/-- SRC_CFG of a source: what was written to it, else what firmware gave it once it runs, and 0 before. -/
def State.srcCfg (s : State) (src : Nat) : Nat :=
  match Tab.look s.intr.srcCfg src with
  | some v => v
  | none => if s.rst.fwRunning then firmwareCfg src else 0

/-- PRIORITY of a source. -/
def State.srcPriority (s : State) (src : Nat) : Nat := bitsOf (s.srcCfg src) 3 0

/-- Whether a source targets a core. -/
def State.srcTargets (s : State) (src c : Nat) : Bool := bitAt (s.srcCfg src) (8 + c)

/-- Whether a source's bit is pending. -/
def State.srcPending (s : State) (src : Nat) : Bool := bitAt (s.pend (src / 32)) (src % 32)

/-- A core block right after reset, with the role of R347. -/
def CoreSt.fresh (c : Nat) : CoreSt :=
  { running := 0, stack := [], underflows := 0, roles := if c < 7 then [c] else [], condition := 0, fences := 0,
    halted := false }

/-- A core's block. -/
def State.core (s : State) (c : Nat) : CoreSt := Tab.read s.intr.cores (CoreSt.fresh c) c

/-- Replace a core's block. -/
def State.setCore (s : State) (c : Nat) (k : CoreSt) : State :=
  { s with intr := { s.intr with cores := Tab.put s.intr.cores c k } }

/-- The highest PRIORITY among the pending sources that target a core, 0 with none (R356). -/
def State.topPriority (s : State) (c : Nat) : Nat :=
  listMax 0 (((List.range 512).filter (fun src => s.srcPending src && s.srcTargets src c)).map s.srcPriority)

/-- R356: interrupt a core if a pending source exceeds its running priority and its stack has room. A fenced or
unusable core is not interrupted: its stack was discarded (R357, DEDUCED, log 125). -/
def State.interruptCore (s : State) (c : Nat) : State :=
  let k := s.core c
  let p := s.topPriority c
  let taken := decide (k.condition = 0) && decide (k.running < p) && decide (k.stack.length < 8)
  let cores := if taken then Tab.put s.intr.cores c { k with stack := k.stack ++ [k.running], running := p } else s.intr.cores
  let a := { s with intr := { s.intr with cores := cores } }
  if taken then a.wakeBlock (.core c) else a

/-- R356 at every core. -/
def State.interruptCores (s : State) : State := (List.range 8).foldl (fun t c => t.interruptCore c) s

/-- Whether a vector may be sent now: unmasked, function unmasked, not in D3hot (R306, R321). -/
def State.vectorOpen (s : State) (v : Nat) : Bool :=
  s.host.unmaskedVectors.contains v && !s.host.functionMask && s.dmaOpen

/-- R321: send a vector, or set its pending bit while it is masked or the function is in D3hot. -/
def State.sendVector (s : State) (v : Nat) : State :=
  if s.vectorOpen v then s.emit (.msix v)
  else { s with host := { s.host with msixPending := insertOnce s.host.msixPending v } }

/-- R359: the condition on which a group releases. -/
def State.releaseDue (s : State) (g : Nat) : Bool :=
  let n := Tab.read s.intr.counts 0 g
  let c := s.obj (Obj.countThreshold + g)
  let t := s.obj (Obj.timeThresholdUs + g)
  let past := s.time.tb - Tab.read s.intr.first 0 g
  decide (1 ≤ n) && ((decide (0 < c) && decide (c ≤ n)) || (decide (0 < t) && decide (t * 3600 ≤ past)) ||
    (decide (c = 0) && decide (t = 0)))

/-- R359: release a group if a condition holds: n becomes 0, vector g is sent, RELEASES increments. -/
def State.testRelease (s : State) (g : Nat) : State :=
  if s.releaseDue g then
    ({ s with intr := { s.intr with counts := Tab.store s.intr.counts 0 g 0 } }.sendVector g).incObj (Obj.releases + g)
  else s

/-- Set a source's bit in PEND and in HOST_EVENTS and count the raise (R352). -/
def State.setPending (s : State) (src : Nat) : State :=
  let g := src / 32
  let bit := 2 ^ (src % 32)
  let n := Tab.read s.intr.counts 0 g
  let s1 := s.setObj (Obj.hostEvents + g) (s.obj (Obj.hostEvents + g) ||| bit)
  { s1 with intr := { s1.intr with
      pend := Tab.store s1.intr.pend 0 g (s1.pend g ||| bit),
      counts := Tab.store s1.intr.counts 0 g (n + 1),
      first := if n = 0 then Tab.store s1.intr.first 0 g s1.time.tb else s1.intr.first } }

/-- The sources in use (R418): first and last number of each run of them. -/
def sourceRuns : List (Nat × Nat) :=
  [(0x000, 0x002), (0x020, 0x02C), (0x040, 0x040), (0x060, 0x069), (0x070, 0x07F), (0x080, 0x081), (0x0A0, 0x0A1),
   (0x0C0, 0x0C2), (0x0E0, 0x0E6), (0x100, 0x104), (0x120, 0x122), (0x140, 0x144), (0x160, 0x162), (0x180, 0x182),
   (0x1A0, 0x1A2), (0x1C0, 0x1C1)]

/-- A source in use; no other is ever raised (R418). -/
def sourceListed (src : Nat) : Bool := sourceRuns.any (fun r => decide (r.1 ≤ src ∧ src ≤ r.2))

/-- Raise a source: R352, then R356 at every core and R359 for its group. Nothing is raised in reset (R365), and no source
that R418 does not list ever is. -/
def State.raise (s : State) (src : Nat) : State :=
  if s.inReset || !(sourceListed src) then s else ((s.setPending src).interruptCores).testRelease (src / 32)

/-! ## The event log -/

/-- The key of a field of the log entry of a SEQ (R415). -/
def logKey (seq field : Nat) : Nat := objKey (0x4100 + seq % 256) field

/-- Unit kinds of R416. -/
def unitOf (kind number : Nat) : Nat := kind * 4096 + number % 4096

/-- The unit code of a block. -/
def blockUnit : Block → Nat
  | .tile p => unitOf 0x2 p
  | .stack i => unitOf 0x3 i
  | .segment d c => unitOf 0x5 (12 * d + c)
  | .laneGroup g => unitOf 0xC g
  | .port k => unitOf 0x4 k
  | .core c => unitOf 0x6 c
  | .network _ => unitOf 0x0 0
  | .hostPort => unitOf 0x8 0
  | .ecatController => unitOf 0x9 0

/-- The key of a block's count of fences. -/
def blockKey : Block → Nat
  | .network d => 0x10000 + d
  | b => blockUnit b

/-- Write a new entry with given REPEATS, overwriting the oldest, and raise G14 (R417). -/
def State.newEntry (s : State) (code unit status detail ts take repeats : Nat) : State :=
  let seq := s.obj Obj.nextSeq
  let full := decide (256 ≤ (seq + 2 ^ 32 - s.obj Obj.readSeq) % 2 ^ 32)
  let s1 := ((((((((s.setObj (logKey seq 1) seq).setObj (logKey seq 2) ts).setObj (logKey seq 3) take).setObj
    (logKey seq 4) code).setObj (logKey seq 5) status).setObj (logKey seq 6) unit).setObj
    (logKey seq 7) (detail % 2 ^ 32)).setObj (logKey seq 8) repeats).addObj Obj.nextSeq 32 1
  let s2 := s1.raise 0x1C0
  if full then (s2.incObj Obj.logOverruns).raise 0x1C1 else s2

/-- Whether an event coalesces into the newest entry (R417). -/
def State.coalesces (s : State) (code unit status : Nat) : Bool :=
  let last := (s.obj Obj.nextSeq + 2 ^ 32 - 1) % 2 ^ 32
  let c := s.obj Obj.coalesceUs
  decide (c ≠ 0) && (decide (s.obj Obj.nextSeq ≠ 0) || decide (s.obj (logKey last 1) = last)) &&
    decide (s.obj (logKey last 4) = code) && decide (s.obj (logKey last 6) = unit) &&
    decide (s.obj (logKey last 5) = status) &&
    decide (s.obj (logKey last 2) ≤ s.time.tb) && decide (s.time.tb - s.obj (logKey last 2) ≤ c * 3600)

/-- Count an event of before the journal restore with its unit (R417). -/
def State.earlyEvent (s : State) (code unit status detail : Nat) : State :=
  if s.early.any (fun e => e.code == code) then
    { s with early := s.early.map (fun e =>
        if e.code = code then { e with repeats := satAdd 16 e.repeats 1 } else e) }
  else
    { s with early := s.early ++ [⟨code, unit, status, detail, s.time.tb, 0, false⟩] }

/-- Log an event detected now (R415 to R417). Nothing is logged in reset (R365). -/
def State.log (s : State) (code unit : Nat) (status : Status) (detail : Nat) : State :=
  let st := statusCode status
  if s.inReset then s
  else if !s.rst.restored then s.earlyEvent code unit st detail
  else if s.coalesces code unit st then
    let last := (s.obj Obj.nextSeq + 2 ^ 32 - 1) % 2 ^ 32
    s.setObj (logKey last 8) (satAdd 16 (s.obj (logKey last 8)) 1)
  else s.newEntry code unit st detail s.time.tb (s.obj Obj.lineTakeNumber) 0

/-- An event that raises a source: it is raised and logged under the source's number (R418). Before the journal
restore it is only counted by its unit, and raised at the restore (R417). -/
def State.event (s : State) (src unit : Nat) (status : Status) (detail : Nat) : State :=
  if s.rst.restored then (s.log src unit status detail).raise src else s.log src unit status detail

/-- At the restore every code counted by its unit becomes one entry with TAKE_NUMBER 0, and the sources among
them are raised (R417). -/
def State.flushEarly (s : State) : State :=
  let t := s.early.foldl (fun (a : State) e =>
    let b := a.newEntry e.code e.unit e.status e.detail e.tb 0 e.repeats
    if e.code < 512 ∧ !e.raised then b.raise e.code else b) s
  { t with early := [] }

/-! ## Faults and failures -/

/-- R408: a fault detected now belongs to the take that closes at this timestamp. -/
def State.faultOfClosed (s : State) : Bool := s.take.closedTb == some s.time.tb

/-- R361, R408: one more masked fault in a frozen set of dailies, with its bit of TAKE_FLAGS. -/
def maskInSet (t : Tab Nat) : Tab Nat :=
  Tab.put (Tab.put t Obj.faultsMasked (satAdd 16 (Tab.read t 0 Obj.faultsMasked) 1)) Obj.takeFlags
    (Tab.read t 0 Obj.takeFlags ||| 16)

/-- Change the last element of a list. -/
def mapLast {α : Type} (f : α → α) (l : List α) : List α := l.dropLast ++ (l.getLast?.map f).toList

/-- R408: count one masked fault in its take: the open one, or the one that closes at this timestamp, whose set is frozen
last. -/
def State.maskFault (s : State) : State :=
  if s.faultOfClosed then { s with dailies := mapLast maskInSet s.dailies }
  else if s.takeOpen then { s with take := { s.take with faultsMasked := satAdd 16 s.take.faultsMasked 1 } }
  else s

/-- R408: mark the answers of the take that a fault belongs to, all of which are published later. -/
def State.markFaultAnswers (s : State) : State :=
  { s with take := { s.take with answers := s.take.answers.map (fun a =>
      if (if s.faultOfClosed then decide (a.closed ∧ a.take = s.take.closedTake) else s.takeOpen && !a.closed)
      then { a with faultMasked := true } else a) } }

/-- A counted fault (R407). -/
def State.countFault (s : State) : State := s.maskFault.markFaultAnswers

/-- The take to which a fault detected now belongs (R408). -/
def State.faultTake (s : State) : Option Nat :=
  if s.faultOfClosed then some s.take.closedTake else if s.takeOpen then some (s.obj Obj.lineTakeNumber) else none

/-- R408: count a fault whose masking succeeds now in the take of its detection: the open take, a set of dailies that waits
for its switch, or the set that is shown; the take's records are marked (log 180). -/
def State.countFaultOf (s : State) (take : Option Nat) : State :=
  match take with
  | none => s
  | some n =>
    let a := { s with take := { s.take with
      answers := s.take.answers.map (fun x => if x.take = n then { x with faultMasked := true } else x) } }
    if s.takeOpen && s.obj Obj.lineTakeNumber == n then
      { a with take := { a.take with faultsMasked := satAdd 16 a.take.faultsMasked 1 } }
    else if s.dailies.any (fun t => Tab.read t 0 Obj.dailiesTakeNumber == n) then
      { a with dailies := a.dailies.map (fun t => if Tab.read t 0 Obj.dailiesTakeNumber = n then maskInSet t else t) }
    else if s.obj Obj.dailiesGeneration ≠ 0 ∧ s.obj Obj.dailiesTakeNumber = n then
      (a.setObj Obj.faultsMasked (satAdd 16 (a.obj Obj.faultsMasked) 1)).setObj Obj.takeFlags (a.obj Obj.takeFlags ||| 16)
    else a

/-- R408: FAULT_MASKED of a record that is published now: its take has counted a fault, or the open take has. -/
def State.recordMasked (s : State) (a : TakeAnswers) : Bool :=
  a.faultMasked || (s.takeOpen && decide (0 < s.take.faultsMasked))

/-- R411: VALID of a record that is published now: its take has had no failure, nor has the take that is open, whose
failure clears every record up to its close. -/
def State.recordValid (s : State) (a : TakeAnswers) : Bool := a.valid && !(s.takeOpen && s.take.failed)

/-- Whether a take's answers are still valid. -/
def State.answersValid (s : State) (take : Nat) : Bool :=
  s.take.answers.any (fun a => a.take == take && a.valid)

/-- R411: a failure in the take TAKE_NUMBER names clears VALID on the records it still publishes; the first such
failure raises source 2 of G6. -/
def State.failTake (s : State) : State :=
  let n := s.obj Obj.lineTakeNumber
  let first := s.answersValid n
  let t := { s with take := { s.take with
    failed := s.take.failed || s.takeOpen,
    answers := s.take.answers.map (fun a => if a.take = n then { a with valid := false } else a) } }
  if first then t.event 0x0C2 0 .ok 0 else t

/-- The statuses that clear VALID under R411 whatever follows; ISOLATED and ECC_LOST depend on what follows. -/
def statusFails : Status → Bool
  | .malformed => true
  | .outOfRange => true
  | .unmapped => true
  | .forbidden => true
  | .absentUnit => true
  | .notReady => true
  | .waitTimeout => true
  | .stateTorn => true
  | .roundClosed => true
  | .remoteTimeout => true
  | .hopLimit => true
  | .hostAbort => true
  | .journalFault => false
  | .ok => false
  | .zeroWork => false
  | .eccRecovered => false
  | .quireViolation => false
  | .shed => false
  | .isolated => true
  | .eccLost => false

/-- R411 at a status. -/
def State.failOn (s : State) (st : Status) : State := if statusFails st then s.failTake else s

end Sys2Proof.Machine
end

