-- ==== Sys2Proof/Machine/Line.lean ====
section
/-!
DEFINITION. The timebase counter and the line position (R20, R21, R24, R25, R27).
-/

namespace Sys2Proof.Machine

open Sys2Proof

/-- TB counts per microsecond (R20). -/
def tbPerUs : Nat := 3600

/-- The largest amount by which slewing may change TB_COUNT while `dt` counts pass, `phase` of the 1,024 having passed
before them (R21). -/
def slewBound (left : Int) (phase dt : Nat) : Nat := min ((phase + dt) / 1024) left.natAbs

/-- The bound for the part as it stands. -/
def State.slewRoom (s : State) (dt : Nat) : Nat := slewBound s.time.slewLeft s.time.slewPhase dt

/-- How much of the difference is slewed away in `dt` counts: the spec gives a bound, so the amount is a free
value within it (log 4). -/
def State.slewAmount (s : State) (dt : Nat) : Nat := s.freeNow.toNat % (s.slewRoom dt + 1)

/-- Where in its 1,024 counts the slewing stands after `dt` counts, with `left` still to slew. -/
def slewNext (left : Int) (phase dt : Nat) : Nat := if left = 0 then 0 else (phase + dt) % 1024

/-- Let TB_COUNT count `dt` (R20, R21). It holds 0 while the timebase domain is held in reset. -/
def State.countTb (s : State) (dt : Nat) : State :=
  if !s.time.running then s
  else if s.slewRoom dt = 0 then
    { s with time := { s.time with
        tb := (s.time.tb + dt) % 2 ^ 64, slewPhase := slewNext s.time.slewLeft s.time.slewPhase dt } }
  else
    let a := s.slewAmount dt
    let up := decide (0 < s.time.slewLeft)
    let left := if up then s.time.slewLeft - (a : Int) else s.time.slewLeft + (a : Int)
    { s.useFree with time := { s.time with
        tb := (if up then s.time.tb + dt + a else s.time.tb + dt - a) % 2 ^ 64,
        slewLeft := left, slewPhase := slewNext left s.time.slewPhase dt } }

/-! ## Calibration (R345, R346) -/

/-- The width in bits of calibrated quantity `n`. -/
def calBits (n : Nat) : Nat := if n = 1 then 32 else if n = 6 then 8 else 16

/-- A factory value: from the factory region, or neutral when its CRC failed (R346). -/
def State.calFactory (s : State) (n sub : Nat) : Nat :=
  let neutral := if n = 5 then 0x8000 else 0
  if s.part.factoryCrcOk then Tab.read s.part.factoryCal neutral (n * 256 + sub) else neutral

/-- The key of the user value. -/
def calUserKey (n sub : Nat) : Nat := (0x2C00 + n) * 256 + sub

/-- The key of the effective value. -/
def calEffKey (n sub : Nat) : Nat := (0x2C80 + n) * 256 + sub

/-- Combine a factory and a user value of quantity `n`; offsets as integers, gains and delays as they are. -/
def calCombine (n f u : Nat) : Int :=
  if n = 5 then (f * u / 0x8000 : Nat)
  else if n = 6 then (if u ≠ 0xFF then (u : Int) else (f : Int))
  else signedOf (calBits n) f + signedOf (calBits n) u

/-- The effective value that a user value gives. -/
def State.calEffective (s : State) (n sub u : Nat) : Int := calCombine n (s.calFactory n sub) u

/-- The instances of quantity `n`. -/
def calInstances (n : Nat) : Nat := if n = 4 ∨ n = 5 then 16 else if n = 6 then 2 else 1

/-- Bring one instance's effective value into force. -/
def State.applyCal (s : State) (n sub : Nat) : State :=
  s.setObj (calEffKey n sub) (unsignedOf (calBits n) (s.calEffective n sub (s.obj (calUserKey n sub))))

/-- Bring every instance of quantity `n` into force. -/
def State.applyCals (s : State) (n : Nat) : State :=
  (List.range (calInstances n)).foldl (fun (t : State) i => t.applyCal n (i + 1)) s

/-- A TB_COUNT corrected by a signed delay (R345). -/
def minusDelay (tb : Nat) (delay : Int) : Nat := ((tb : Int) - delay).toNat

/-- The timestamp of a slate pulse seen now. -/
def State.slateStamp (s : State) : Nat := minusDelay s.time.tb (s.objInt Obj.effSlateInDelay 16)

/-- The timestamp of an ADV pulse seen now. -/
def State.advStamp (s : State) : Nat := minusDelay s.time.tb (s.objInt Obj.effAdvInDelay 16)

/-! ## The line position -/

/-- The process-data source is in force (SOURCE_IN_FORCE, R29). -/
def State.plantSource (s : State) : Bool := decide (s.obj Obj.sourceInForce = 1)

/-- R24, R25: the unsaturated position of the pin source at a TB_COUNT, 16.16. -/
def State.pinPosition (s : State) (t : Nat) : Nat :=
  let ref := if s.time.advSeen then max s.time.lastAdv s.time.anchor else s.time.anchor
  min s.time.advSinceAnchor 0xFFFFFFFF * 2 ^ 16 + min ((t - ref) * 2 ^ 16 / s.time.period) 0xFFFF

/-- ADV_MIN_PERIOD_US in force, in TB counts. -/
def State.advMinTb (s : State) : Nat := s.governs Obj.advMinPeriodUs * tbPerUs

/-- R27: the position the latches aim at, extrapolated within one cycle. -/
def State.plantTarget (s : State) (t : Nat) : Nat :=
  s.time.plantPos + min (s.time.plantAdvance * (t - s.time.plantTb) / s.time.plantCycle) s.time.plantAdvance

/-- The first instant at which the rate limit of R27 lets the integer part rise again. -/
def State.plantFirstRise (s : State) : Nat := max s.time.plantTb (s.time.plantLimitTb + s.advMinTb)

/-- The largest integer part that the rate limit of R27 allows at a TB_COUNT. -/
def State.plantAllowed (s : State) (t : Nat) : Nat :=
  s.time.plantHeld / 2 ^ 16 +
    (if t < s.plantFirstRise then 0 else 1 + (t - s.plantFirstRise) / s.advMinTb)

/-- Whether the rate limit of R27 applies at a TB_COUNT. -/
def State.plantLimited (s : State) (t : Nat) : Bool :=
  decide (s.plantAllowed t < s.plantTarget t / 2 ^ 16)

/-- R25, R27, R28: the unsaturated position of the process-data source at a TB_COUNT. Where the rate limit applies
the position stands at the allowed integer (DESIGN CHOICE, log 16). -/
def State.plantPosition (s : State) (t : Nat) : Nat :=
  if !s.time.plantValid then 0
  else if s.time.plantLost then s.time.plantHeld
  else max s.time.plantHeld (if s.plantLimited t then s.plantAllowed t * 2 ^ 16 else s.plantTarget t)

/-- The instant at which the target of R27 reaches an integer. -/
def State.plantCrossing (s : State) (i : Nat) : Nat :=
  s.time.plantTb + ceilDiv ((i * 2 ^ 16 - s.time.plantPos) * s.time.plantCycle) s.time.plantAdvance

/-- The rate limit of R27 has held the position back in the cycle that ends now: some integer was not allowed yet when
the target reached it. -/
def State.wasLimited (s : State) : Bool :=
  let i0 := s.time.plantHeld / 2 ^ 16
  (List.range (s.plantTarget s.time.tb / 2 ^ 16 - i0)).any (fun k =>
    decide (s.plantAllowed (s.plantCrossing (i0 + 1 + k)) < i0 + 1 + k))

/-- A cycle in which the rate limit applied counts once (R27): at the latch that ends it, or where a close, a re-anchoring or
the loss of the source ends it before. -/
def State.countLimited (s : State) : State :=
  if s.time.plantValid && !s.time.plantLost && s.wasLimited then
    (s.incObj Obj.advStormCount).log 0x200 (unitOf 0xE 0) .ok 0 else s

/-- The unsaturated in-take position at a TB_COUNT (R25); 0 while no take is open (log 9). -/
def State.positionAt (s : State) (t : Nat) : Nat :=
  if !s.takeOpen then 0 else if s.plantSource then s.plantPosition t else s.pinPosition t

/-- The unsaturated position now. -/
def State.position (s : State) : Nat := s.positionAt s.time.tb

/-- The reported POSITION (R25). -/
def State.reported (s : State) : Nat := min s.position 0xFFFFFFFF

/-- L in force, 16.16 (R33). -/
def State.lengthL (s : State) : Nat := s.governs Obj.nominalLength * 2 ^ 16

/-- E in force. -/
def State.earlyE (s : State) : Nat := s.governs Obj.earlyTol

/-- D in force. -/
def State.lateD (s : State) : Nat := s.governs Obj.lateTol

/-- R46: DL = L − E − GOVERNOR_GUARD, which may be negative. -/
def State.deadline (s : State) : Int :=
  (s.lengthL : Int) - (s.earlyE : Int) - (s.governs Obj.governorGuard : Int)

end Sys2Proof.Machine
end

