-- ==== Sys2Proof/Machine/Image.lean ====
section
/-!
DEFINITION. The process-data images: mapping entries (R336), the latches of the lot objects and of the input image (R335,
R337), and the passing of time, in which the latches of free run and of SYNC1 fall (R20, R21).
-/

namespace Sys2Proof.Machine

open Sys2Proof

/-- FEATURE_MAP (R4). -/
def State.featureMap (s : State) : Nat :=
  let v := s.part.variant
  let enabled := v.tiles - ((List.range v.tiles).filter (fun p => s.rst.bistInForce.failedTiles.contains p)).length
  (if v.dies = 2 then 1 else 0) + (if 0 < v.ports then 2 else 0) + 4 + (if v.stacks = 8 then 8 else 0) +
    (if v.lanes = 128 then 16 else 0) + enabled * 2 ^ 8 + v.ports * 2 ^ 16

/-! ## Mapping entries (R336) -/

/-- Index, subindex and length in bits of a mapping entry. -/
def mapIndex (e : Nat) : Nat := bitsOf e 31 16
def mapSub (e : Nat) : Nat := bitsOf e 15 8
def mapBits (e : Nat) : Nat := bitsOf e 7 0

/-- Padding: index and subindex 0, any length in whole bytes. -/
def isPadding (e : Nat) : Bool := decide (mapIndex e = 0 ∧ mapSub e = 0 ∧ mapBits e % 8 = 0)

/-- The entries 1 to n of a mapping or assignment object. -/
def State.pdoEntries (s : State) (index : Nat) : List Nat :=
  (List.range (s.obj (objKey index 0))).map (fun i => s.obj (objKey index (i + 1)))

/-- The value of an object that a TxPDO may map; FEATURE_MAP, POSITION and TB_COUNT have their homes elsewhere. -/
def State.mappedValue (s : State) (index sub : Nat) : Nat :=
  if index = 0x2001 ∧ sub = 1 then s.featureMap
  else if index = 0x2100 ∧ sub = 0x11 then s.reported
  else if index = 0x2100 ∧ sub = 0x13 then s.time.tb
  else s.obj (objKey index sub)

/-- The bytes of one mapped entry in an input image; padding holds 0. -/
def State.entryImage (s : State) (e : Nat) : List Byte :=
  leBytes (mapBits e / 8) (if isPadding e then 0 else s.mappedValue (mapIndex e) (mapSub e))

/-- The input image, assembled from the objects of the assigned TxPDOs. -/
def State.inputImage (s : State) : List Byte := ((s.pdoEntries 0x1C13).flatMap s.pdoEntries).flatMap s.entryImage

/-! ## Latches (R335, R337) -/

/-- The values of the lot objects: PLANT_LOT_COUNT, LOT_ID and the 48 words. -/
def State.lotNow (s : State) : List Nat :=
  [s.obj Obj.plantLotCount, s.obj Obj.plantLotId] ++ (List.range 48).map (fun i => s.obj (Obj.plantWord + i))

/-- The lot objects are latched. -/
def State.latchLot (s : State) : State := { s with time := { s.time with lotWords := s.lotNow } }

/-- The latched lot count differs from the one before: a slate (R27). The first count latched since reset is none, and
one that changed while the part was out of OP is one at the next latch (log 145). -/
def State.lotChanged (s : State) : Bool :=
  match s.time.lotLatched with
  | some n => decide (n ≠ s.obj Obj.plantLotCount)
  | none => false

/-- A SYNC0 event latches the process-data source: in OP, in force, and written since the last latch (R27, R28). -/
def State.latchesPlant (s : State) : Bool :=
  s.ecat.released && s.ecat.al == 8 && s.time.plantWritten && s.plantSource

/-- SYNC_MODE of the inputs (0x1C33:01). -/
def inputSyncMode : Nat := 0x1C3301

/-- The input image of an instant since which no object has changed is latched, in SAFEOP and OP (log 131). -/
def State.latchInputsAt (s : State) (t : Nat) : State :=
  if s.ecat.al = 4 ∨ s.ecat.al = 8 then
    { s with ecat := { s.ecat with txImage := { s with time := { s.time with tb := t } }.inputImage } } else s

/-- The input image is latched now. -/
def State.latchInputs (s : State) : State := s.latchInputsAt s.time.tb

/-- TB counts between two latches of free run: 125 µs. -/
def freeRunCycle : Nat := 450000

/-- The latches of free run up to a TB_COUNT; where in the cycle they fall is open (log 152). -/
def freeRunLatches (t : Nat) : Nat := (t + Config.freeRunPhase % freeRunCycle) / freeRunCycle

/-- The instant of a latch of free run. -/
def freeRunInstant (n : Nat) : Nat := n * freeRunCycle - Config.freeRunPhase % freeRunCycle

/-- What free run has latched since a TB_COUNT at which the objects stood as they do now. -/
def State.freeRun (s : State) (since : Nat) : State :=
  let n := freeRunLatches s.time.tb
  if s.time.tb = since then s
  else if n ≤ freeRunLatches since then s
  else
    let a := if s.obj Obj.syncMode = 0 then s.latchLot else s
    if a.obj inputSyncMode = 0 then a.latchInputsAt (freeRunInstant n) else a

/-- A SYNC1 event that has come latches the input image in mode 0x0003. -/
def State.sync1Latch (s : State) : State :=
  match s.ecat.sync1At with
  | some t =>
    if s.time.tb < t then s
    else
      let a := { s with ecat := { s.ecat with sync1At := none } }
      if a.obj inputSyncMode = 3 then a.latchInputsAt t else a
  | none => s

/-- Let `dt` TB counts pass: TB_COUNT counts, and the latches that fall in that time take place. -/
def State.advance (s : State) (dt : Nat) : State := ((s.countTb dt).freeRun s.time.tb).sync1Latch

end Sys2Proof.Machine
end

