-- ==== Sys2Proof/Machine/Float.lean ====
section
/-!
DEFINITION. Exact numbers and the formats of R82 to R85. A decoded value is a sign, a magnitude m × 2^e and
nothing rounded away; every rounding of the part is one of the functions below.
-/

namespace Sys2Proof.Machine

open Sys2Proof

/-- A decoded value: NaN, an infinity, or an exact signed dyadic number m × 2^e. -/
inductive Val where
  | nan
  | inf (neg : Bool)
  | fin (neg : Bool) (m : Nat) (e : Int)
  deriving DecidableEq, Repr

/-- +0. -/
def Val.zero : Val := .fin false 0 0

/-- 1. -/
def Val.one : Val := .fin false 1 0

/-- An integer. -/
def Val.ofInt (i : Int) : Val := .fin (decide (i < 0)) i.natAbs 0

/-- Whether the value is finite. -/
def Val.isFinite : Val → Bool
  | .fin _ _ _ => true
  | _ => false

/-- Whether the value is a NaN. -/
def Val.isNan : Val → Bool
  | .nan => true
  | _ => false

/-- Whether the value is a zero. -/
def Val.isZero : Val → Bool
  | .fin _ m _ => m == 0
  | _ => false

/-- The sign bit; NaN has none. -/
def Val.isNeg : Val → Bool
  | .fin n _ _ => n
  | .inf n => n
  | .nan => false

/-- The value with its sign exchanged. -/
def Val.neg : Val → Val
  | .fin n m e => .fin (!n) m e
  | .inf n => .inf (!n)
  | .nan => .nan

/-- The magnitude. -/
def Val.abs : Val → Val
  | .fin _ m e => .fin false m e
  | .inf _ => .inf false
  | .nan => .nan

/-- m × 2^e as a signed integer times 2^q, for a q at or below e. -/
def dyadicAt (neg : Bool) (m : Nat) (e q : Int) : Int :=
  let x : Int := ((m <<< (e - q).toNat : Nat) : Int)
  if neg then -x else x

/-- The exact sum, with the signs IEEE 754 gives to nearest: a zero sum is −0 only of two −0. -/
def Val.add : Val → Val → Val
  | .nan, _ => .nan
  | _, .nan => .nan
  | .inf a, .inf b => if a = b then .inf a else .nan
  | .inf a, .fin _ _ _ => .inf a
  | .fin _ _ _, .inf b => .inf b
  | .fin n1 m1 e1, .fin n2 m2 e2 =>
    let q := min e1 e2
    let x := dyadicAt n1 m1 e1 q + dyadicAt n2 m2 e2 q
    if x = 0 then .fin (m1 == 0 && m2 == 0 && n1 && n2) 0 0 else .fin (decide (x < 0)) x.natAbs q

/-- The exact product, with IEEE 754 signs. -/
def Val.mul : Val → Val → Val
  | .nan, _ => .nan
  | _, .nan => .nan
  | .inf a, .inf b => .inf (a != b)
  | .inf a, .fin n m _ => if m = 0 then .nan else .inf (a != n)
  | .fin n m _, .inf b => if m = 0 then .nan else .inf (n != b)
  | .fin n1 m1 e1, .fin n2 m2 e2 => .fin (n1 != n2) (m1 * m2) (e1 + e2)

/-- The exact difference. -/
def Val.sub (a b : Val) : Val := Val.add a (Val.neg b)

/-- The value times 2^k. -/
def Val.scale : Val → Int → Val
  | .fin n m e, k => .fin n m (e + k)
  | v, _ => v

/-- The exact comparison a ≤ b of two numbers; false when either is a NaN. Both zeros are equal. -/
def Val.le : Val → Val → Bool
  | .nan, _ => false
  | _, .nan => false
  | .inf true, _ => true
  | _, .inf false => true
  | .inf false, _ => false
  | _, .inf true => false
  | .fin n1 m1 e1, .fin n2 m2 e2 =>
    let q := min e1 e2
    decide (dyadicAt n1 m1 e1 q ≤ dyadicAt n2 m2 e2 q)

/-- The exact comparison a < b; false when either is a NaN. -/
def Val.lt (a b : Val) : Bool := Val.le a b && !(Val.le b a)

/-- A quotient of magnitudes as a dyadic value with `k` extra bits below its leading bit and a sticky last
bit, so that one later rounding to fewer bits gives what rounding the exact quotient gives. -/
def dyadicQuot (a b : Nat) (e : Int) (k : Nat) : Nat × Int :=
  let s := k + Nat.log2 b + 2
  let x := a <<< s
  let q := x / b
  (2 * q + (if x % b = 0 then 0 else 1), e - (s : Nat) - 1)

/-- The quotient, exact to the one rounding that follows (IEEE 754 cases). -/
def Val.div : Val → Val → Val
  | .nan, _ => .nan
  | _, .nan => .nan
  | .inf _, .inf _ => .nan
  | .inf a, .fin n _ _ => .inf (a != n)
  | .fin n _ _, .inf b => .fin (n != b) 0 0
  | .fin n1 m1 e1, .fin n2 m2 e2 =>
    if m2 = 0 then (if m1 = 0 then .nan else .inf (n1 != n2))
    else
      let q := dyadicQuot m1 m2 (e1 - e2) 200
      .fin (n1 != n2) q.1 q.2

/-- The integer square root. -/
def isqrtLoop : Nat → Nat → Nat → Nat
  | 0, r, _ => r
  | k + 1, r, x => isqrtLoop k (if (r + 2 ^ k) * (r + 2 ^ k) ≤ x then r + 2 ^ k else r) x

/-- The integer square root of `x`. -/
def isqrt (x : Nat) : Nat := isqrtLoop (Nat.log2 x / 2 + 1) 0 x

/-- The square root, exact to the one rounding that follows. A negative number other than −0 gives NaN. -/
def Val.sqrt : Val → Val
  | .nan => .nan
  | .inf n => if n then .nan else .inf false
  | .fin n m e =>
    if m = 0 then .fin n 0 0
    else if n then .nan
    else
      let o : Nat := if e % 2 = 0 then 0 else 1
      let x := m <<< (400 + o)
      let r := isqrt x
      .fin false (2 * r + (if r * r = x then 0 else 1)) ((e - (o : Nat)) / 2 - 200 - 1)

/-! ## Rounding -/

/-- m × 2^e in units of 2^q, to nearest, ties to even. -/
def rne (m : Nat) (e q : Int) : Nat :=
  if q ≤ e then m <<< (e - q).toNat
  else
    let k := (q - e).toNat
    let f := m >>> k
    let r := m - (f <<< k)
    let h := 2 ^ (k - 1)
    if h < r || (r == h && f % 2 == 1) then f + 1 else f

/-- m × 2^e in units of 2^q, stochastically under R88 with the 16-bit value `r`. -/
def roundStochastic (m : Nat) (e q : Int) (r : Nat) : Nat :=
  if q ≤ e then m <<< (e - q).toNat
  else
    let k := (q - e).toNat
    let f := m >>> k
    let rem := m - (f <<< k)
    if rem = 0 then f
    else if 0x10000 ≤ ((rem <<< 16) >>> k) + r then f + 1 else f

/-- Whether m × 2^e is a multiple of 2^q. -/
def isExactAt (m : Nat) (e q : Int) : Bool :=
  if q ≤ e then true else decide (m % 2 ^ (q - e).toNat = 0)

/-- The spacing exponent of a format with `man` mantissa bits and smallest subnormal 2^emin at m × 2^e. -/
def quantum (man : Nat) (emin : Int) (m : Nat) (e : Int) : Int :=
  max (((Nat.log2 m : Nat) : Int) + e - (man : Nat)) emin

/-! ## FP32 -/

/-- Decode an FP32 pattern. -/
def f32Val (b : F32) : Val :=
  let n := b.getLsbD 31
  let x := bitsOf b.toNat 30 23
  let m := bitsOf b.toNat 22 0
  if x = 255 then (if m = 0 then .inf n else .nan)
  else if x = 0 then .fin n m (-149)
  else .fin n (m + 2 ^ 23) ((x : Int) - 150)

/-- The canonical FP32 NaN (R91). -/
def f32Nan : F32 := 0x7FC00000

/-- An FP32 infinity. -/
def f32Inf (neg : Bool) : F32 := if neg then 0xFF800000 else 0x7F800000

/-- An FP32 zero. -/
def f32Zero (neg : Bool) : F32 := if neg then 0x80000000 else 0

/-- The FP32 value nearest to an exact value, ties to even, with IEEE 754 overflow and gradual underflow. -/
def roundF32 : Val → F32
  | .nan => f32Nan
  | .inf n => f32Inf n
  | .fin n m e =>
    let q := quantum 23 (-149) m e
    let code := rne m e q + (q + 149).toNat * 2 ^ 23
    if m = 0 then f32Zero n
    else if 0x7F800000 ≤ code then f32Inf n
    else BitVec.ofNat 32 (code + (if n then 2 ^ 31 else 0))

/-- FP32 addition. -/
def f32Add (a b : F32) : F32 := roundF32 (Val.add (f32Val a) (f32Val b))

/-- FP32 subtraction. -/
def f32Sub (a b : F32) : F32 := roundF32 (Val.sub (f32Val a) (f32Val b))

/-- FP32 multiplication. -/
def f32Mul (a b : F32) : F32 := roundF32 (Val.mul (f32Val a) (f32Val b))

/-- FP32 division. -/
def f32Div (a b : F32) : F32 := roundF32 (Val.div (f32Val a) (f32Val b))

/-- FP32 square root. -/
def f32Sqrt (a : F32) : F32 := roundF32 (Val.sqrt (f32Val a))

/-! ## Formats (R82 to R84) -/

/-- What an element encoding is: its width, mantissa bits, the exponent of its smallest magnitude, its largest
finite magnitude code, whether it is two's complement, has an infinity above the largest code, and its
canonical NaN. -/
structure Fmt where
  bits : Nat
  man : Nat
  emin : Int
  maxCode : Nat
  isInt : Bool
  hasInf : Bool
  nanCode : Option Nat
  deriving DecidableEq, Repr

/-- The element encoding of a non-raw ELEM_TYPE (R82, R83, R84). -/
def fmtOf : Nat → Option Fmt
  | 0x01 => some ⟨32, 23, -149, 0x7F7FFFFF, false, true, some 0x7FC00000⟩
  | 0x02 => some ⟨16, 7, -133, 0x7F7F, false, true, some 0x7FC0⟩
  | 0x03 => some ⟨16, 10, -24, 0x7BFF, false, true, some 0x7E00⟩
  | 0x04 => some ⟨8, 3, -9, 0x7E, false, false, some 0x7F⟩
  | 0x05 => some ⟨8, 2, -16, 0x7B, false, true, some 0x7F⟩
  | 0x06 => some ⟨6, 2, -4, 0x1F, false, false, none⟩
  | 0x07 => some ⟨6, 3, -3, 0x1F, false, false, none⟩
  | 0x08 => some ⟨4, 1, -1, 0x7, false, false, none⟩
  | 0x09 => some ⟨8, 7, 0, 127, true, false, none⟩
  | 0x0A => some ⟨4, 3, 0, 7, true, false, none⟩
  | 0x14 => some ⟨8, 3, -9, 0x7E, false, false, some 0x7F⟩
  | 0x15 => some ⟨8, 2, -16, 0x7B, false, true, some 0x7F⟩
  | 0x16 => some ⟨6, 2, -4, 0x1F, false, false, none⟩
  | 0x17 => some ⟨6, 3, -3, 0x1F, false, false, none⟩
  | 0x18 => some ⟨4, 1, -1, 0x7, false, false, none⟩
  | 0x19 => some ⟨8, 7, -6, 127, true, false, none⟩
  | _ => none

/-- The bits of one element; 0 for a code R82 does not list. -/
def elemBits (t : Nat) : Nat :=
  match fmtOf t with
  | some f => f.bits
  | none => if t = 0x0B then 32 else if t = 0x0C then 16 else if t = 0x0D then 1 else if t = 0x0E then 8 else 0

/-- The raw types take part in no conversion (R84). -/
def isRawType (t : Nat) : Bool := decide (0x0B ≤ t ∧ t ≤ 0x0E)

/-- A block-scaled type. -/
def isMxType (t : Nat) : Bool := decide (0x14 ≤ t ∧ t ≤ 0x19)

/-- An ELEM_TYPE that R82 lists. -/
def isElemType (t : Nat) : Bool := decide (elemBits t ≠ 0)

/-- The largest finite magnitude of a format as an exact value. -/
def Fmt.maxVal (f : Fmt) : Val :=
  if f.isInt then .fin false f.maxCode f.emin
  else
    let x := f.maxCode / 2 ^ f.man
    .fin false (f.maxCode % 2 ^ f.man + 2 ^ f.man) (f.emin + (x : Nat) - 1)

/-- The spacing exponent of a format's highest binade (R88). -/
def Fmt.topQuantum (f : Fmt) : Int := f.emin + ((f.maxCode / 2 ^ f.man : Nat) : Int) - 1

/-- Decode one element, before any scale. -/
def Fmt.decode (f : Fmt) (c : Nat) : Val :=
  if f.isInt then
    let v := signedOf f.bits c
    .fin (decide (v < 0)) v.natAbs f.emin
  else
    let n := bitAt c (f.bits - 1)
    let mag := c % 2 ^ (f.bits - 1)
    let x := mag / 2 ^ f.man
    let m := mag % 2 ^ f.man
    if f.maxCode < mag then (if f.hasInf && mag == f.maxCode + 1 then .inf n else .nan)
    else if x = 0 then .fin n m f.emin
    else .fin n (m + 2 ^ f.man) (f.emin + (x : Nat) - 1)

/-- One conversion's outcome: the element's bits, whether it saturated or vanished, and whether a random value
was drawn for it. -/
structure Conv where
  code : Nat
  sat : Bool
  van : Bool
  drew : Bool
  deriving DecidableEq, Repr

/-- The encoding of a signed magnitude code. -/
def Fmt.signed (f : Fmt) (neg : Bool) (mag : Nat) : Nat :=
  if f.isInt then (if neg then (2 ^ f.bits - mag) % 2 ^ f.bits else mag)
  else mag + (if neg then 2 ^ (f.bits - 1) else 0)

/-- R86 to R91: convert an exact value, already scaled, with ROUND `round` and the 16-bit random value `r`. -/
def Fmt.convert (f : Fmt) (round r : Nat) : Val → Conv
  | .nan => { code := f.nanCode.getD 0, sat := true, van := false, drew := false }
  | .inf n => { code := f.signed n f.maxCode, sat := true, van := false, drew := false }
  | .fin n m e =>
    if m = 0 then { code := f.signed n 0, sat := false, van := false, drew := false }
    else
      let q := if f.isInt then f.emin else min (quantum f.man f.emin m e) f.topQuantum
      let stoch := round == 1
      let u := if stoch then roundStochastic m e q r else rne m e q
      let code := if f.isInt then u else u + (q - f.emin).toNat * 2 ^ f.man
      let drew := stoch && !(isExactAt m e q)
      if f.maxCode < code then { code := f.signed n f.maxCode, sat := true, van := false, drew := drew }
      else if u = 0 then { code := f.signed n 0, sat := false, van := true, drew := drew }
      else { code := f.signed n code, sat := false, van := false, drew := drew }

/-- ⌊log₂ x⌋ candidates: the exponent of the leading bit of m × 2^e. -/
def leadExp (m : Nat) (e : Int) : Int := ((Nat.log2 m : Nat) : Int) + e

/-- ⌈log₂(a / b)⌉ of two positive finite values. -/
def ceilLog2Quot : Val → Val → Int
  | .fin _ m1 e1, .fin _ m2 e2 =>
    let e0 := leadExp m1 e1 - leadExp m2 e2
    if Val.le (.fin false m1 e1) (.fin false m2 (e2 + e0)) then e0 else e0 + 1
  | _, _ => 0

/-- ⌊log₂(a / b)⌋ of two positive finite values. -/
def floorLog2Quot (a b : Val) : Int := -(ceilLog2Quot b a)

/-- The larger of a running maximum and a finite magnitude; infinities and NaNs do not enter. -/
def maxFinite (acc : Val) (v : Val) : Val :=
  match v with
  | .fin _ _ _ => if Val.lt acc (Val.abs v) then Val.abs v else acc
  | _ => acc

end Sys2Proof.Machine
end

