-- ==== Sys2Proof/Machine/Tensor.lean ====
section
/-!
DEFINITION. Tensor descriptors (R97 to R99), packing (R96), block scales (R93 to R95), compressed layouts
(R115 to R117) and the conversion of a whole tensor (R86 to R94), over a reader of bytes.
-/

namespace Sys2Proof.Machine

open Sys2Proof

/-- A decoded descriptor (R97). `reservedClear` holds when every reserved field is 0. -/
structure Desc where
  elemType : Nat
  rank : Nat
  space : Nat
  layout : Nat
  blockDim : Nat
  strideUnit : Nat
  scaleId : Nat
  base : Nat
  scaleBase : Nat
  elemBase : Nat
  size : List Nat
  stride : List Nat
  orderSize0 : Nat
  reservedClear : Bool
  deriving DecidableEq, Repr

/-- R97: the fields of 64 descriptor bytes read as one number. -/
def Desc.ofBits (x : Nat) : Desc :=
  { elemType := bitsOf x 7 0, rank := bitsOf x 11 8, space := bitsOf x 13 12, layout := bitsOf x 15 14,
    blockDim := bitsOf x 18 16, strideUnit := bitsOf x 23 20, scaleId := bitsOf x 35 24,
    base := bitsOf x 87 40, scaleBase := bitsOf x 135 88, elemBase := bitsOf x 183 136,
    size := (List.range 8).map (fun d => bitsOf x (207 + 16 * d) (192 + 16 * d)),
    stride := 0 :: (List.range 7).map (fun d => bitsOf x (343 + 24 * d) (320 + 24 * d)),
    orderSize0 := bitsOf x 503 488,
    reservedClear := bitsOf x 19 19 == 0 && bitsOf x 39 36 == 0 && bitsOf x 191 184 == 0 && bitsOf x 511 504 == 0 }

/-- SIZEd, counted as 1 for d at or above RANK (R98). -/
def Desc.sz (d : Desc) (i : Nat) : Nat := if i < d.rank then d.size.getD i 0 else 1

/-- The sizes of the eight dimensions. -/
def Desc.dims (d : Desc) : List Nat := (List.range 8).map d.sz

/-- The byte stride of dimension i ≥ 1. -/
def Desc.strideBytes (d : Desc) (i : Nat) : Nat := d.stride.getD i 0 * 2 ^ d.strideUnit

/-- R102: an empty tensor has a SIZE of 0 below RANK. -/
def Desc.isEmpty (d : Desc) : Bool := (List.range d.rank).any (fun i => d.size.getD i 0 == 0)

/-- The number of elements. -/
def Desc.count (d : Desc) : Nat := listProd d.dims

/-- Slots per quire (R116). -/
def Desc.slots (d : Desc) : Nat := if d.layout = 1 then 8 else 4

/-- The sizes as stored: for a compressed layout dimension 0 counts slots and dimension 1 quire rows (R116). -/
def Desc.storedDims (d : Desc) : List Nat :=
  if d.layout = 0 then d.dims
  else [d.sz 0 / 4 * d.slots, d.sz 1 / 4] ++ (d.dims.drop 2)

/-- The coordinates of a linear index over given sizes, dimension 0 fastest (R99). -/
def coordsOf : List Nat → Nat → List Nat
  | [], _ => []
  | n :: ns, i => (i % n) :: coordsOf ns (i / n)

/-- The linear index of coordinates over given sizes, dimension 0 fastest. -/
def linearOf : List Nat → List Nat → Nat
  | n :: ns, c :: cs => c + n * linearOf ns cs
  | _, _ => 0

/-- R96: the bytes of one packed row of n elements. -/
def packedBytes (bits n : Nat) : Nat :=
  if bits = 4 then ceilDiv n 2 else if bits = 6 then ceilDiv n 4 * 3 else if bits = 1 then ceilDiv n 8
  else n * (bits / 8)

/-- The bytes of one row of the tensor as stored. -/
def Desc.rowBytes (d : Desc) : Nat := packedBytes (elemBits d.elemType) (d.storedDims.getD 0 1)

/-- The largest row offset: Σ over d ≥ 1 of (SIZE_d − 1) × stride (R100). -/
def Desc.maxOffset (d : Desc) : Nat :=
  listSum ((List.range 7).map (fun i => (d.storedDims.getD (i + 1) 1 - 1) * d.strideBytes (i + 1)))

/-- The number of bytes from BASE to the end of the extent (R100, R116). -/
def Desc.extentBytes (d : Desc) : Nat := d.maxOffset + d.rowBytes

/-- The sizes of the scale array (R93). -/
def Desc.scaleDims (d : Desc) : List Nat :=
  (List.range 8).map (fun i => if i = d.blockDim then ceilDiv (d.sz i) 32 else d.sz i)

/-- The number of bytes of the scale array. -/
def Desc.scaleBytes (d : Desc) : Nat := if isMxType d.elemType then listProd d.scaleDims else 0

/-- The start of the row at given coordinates (R98; only dimensions 1 and above matter). -/
def Desc.rowStart (d : Desc) (cs : List Nat) : Nat :=
  d.base + listSum ((List.range 7).map (fun i => cs.getD (i + 1) 0 * d.strideBytes (i + 1)))

/-- R96: element c0 of a row lies c0 × width bits into it, in little-endian bit order. -/
def readPacked (rd : Nat → Byte) (row bits c0 : Nat) : Nat :=
  let b := c0 * bits
  let a := row + b / 8
  let n := (b % 8 + bits + 7) / 8
  (leNat ((List.range n).map (fun i => rd (a + i))) >>> (b % 8)) % 2 ^ bits

/-- The bits of the stored element at coordinates. -/
def Desc.readCode (d : Desc) (rd : Nat → Byte) (cs : List Nat) : Nat :=
  readPacked rd (d.rowStart cs) (elemBits d.elemType) (cs.getD 0 0)

/-- The scale byte of the block that holds coordinates (R93). -/
def Desc.scaleIndex (d : Desc) (cs : List Nat) : Nat :=
  linearOf d.scaleDims ((List.range 8).map (fun i => if i = d.blockDim then cs.getD i 0 / 32 else cs.getD i 0))

/-- The value of the stored element at coordinates under the per-tensor scale 2^σ (R87) or its block scale
(R93, R95). A raw type has no value. -/
def Desc.readVal (d : Desc) (rd : Nat → Byte) (sigma : Int) (cs : List Nat) : Val :=
  match fmtOf d.elemType with
  | none => .nan
  | some f =>
    let v := f.decode (d.readCode rd cs)
    if isMxType d.elemType then
      let e := (rd (d.scaleBase + d.scaleIndex cs)).toNat
      if e = 0xFF then .nan else v.scale ((e : Int) - 127)
    else v.scale (-sigma)

/-- Every stored element's bits in storage order. -/
def Desc.readCodes (d : Desc) (rd : Nat → Byte) : List Nat :=
  (List.range (listProd d.storedDims)).map (fun i => d.readCode rd (coordsOf d.storedDims i))

/-- Every stored element's value in storage order (for a dense tensor, logical order). -/
def Desc.readVals (d : Desc) (rd : Nat → Byte) (sigma : Int) : List Val :=
  (List.range (listProd d.storedDims)).map (fun i => d.readVal rd sigma (coordsOf d.storedDims i))

/-- The sizes that element indices count with (R99). -/
def Desc.orderDims (d : Desc) : List Nat :=
  (if d.orderSize0 = 0 then d.sz 0 else d.orderSize0) :: d.dims.drop 1

/-- R99: the element index of a logical position. -/
def Desc.elemIndex (d : Desc) (cs : List Nat) : Nat := (d.elemBase + linearOf d.orderDims cs) % 2 ^ 48

/-- R99: the index of a stored element of a MOVE: the logical index of a dense tensor, the storage index of a
compressed one. -/
def Desc.storageIndex (d : Desc) (cs : List Nat) : Nat :=
  if d.layout = 0 then d.elemIndex cs
  else
    let s := d.slots
    let c0 := cs.getD 0 0
    let h := linearOf (d.dims.drop 2) (cs.drop 2)
    let s0 := d.orderDims.getD 0 1
    (d.elemBase + ((h * (d.sz 1 / 4) + cs.getD 1 0) * (s0 / 4) + c0 / s) * s + c0 % s) % 2 ^ 48

/-- Pack one row of element codes (R96), the last group's unused positions 0. -/
def packRow (bits : Nat) (codes : List Nat) : List Byte :=
  if 8 ≤ bits then codes.flatMap (fun c => leBytes (bits / 8) c)
  else leBytes (packedBytes bits codes.length) (codes.foldr (fun c acc => c + acc <<< bits) 0)

/-- Cut a list into pieces of n. -/
def chunks {α : Type} (n : Nat) : Nat → List α → List (List α)
  | 0, _ => []
  | k + 1, l => l.take n :: chunks n k (l.drop n)

/-- The bytes a write of all stored elements lays down: for each row its start and its packed bytes. -/
def Desc.writeRows (d : Desc) (codes : List Nat) : List (Nat × List Byte) :=
  let n0 := d.storedDims.getD 0 1
  let rows := listProd (d.storedDims.drop 1)
  ((chunks n0 rows codes).zipIdx).map (fun p =>
    (d.rowStart (0 :: coordsOf (d.storedDims.drop 1) p.2), packRow (elemBits d.elemType) p.1))

/-- What the conversion of a whole tensor gives. -/
structure Converted where
  rows : List (Nat × List Byte)     -- bytes of the elements
  scales : List (Nat × List Byte)   -- bytes of the scale array
  total : Nat                       -- elements converted (R209)
  sats : Nat
  vans : Nat
  drawn : List Nat                  -- element indices that drew random bits
  deriving DecidableEq, Repr

/-- R94: the block scale exponent from the block's exact values. -/
def blockExp (f : Fmt) (vals : List Val) : Int :=
  let a := vals.foldl maxFinite Val.zero
  if a.isZero then 0 else clampInt (-127) 127 (ceilLog2Quot a f.maxVal)

/-- The linear indices of the elements of the block with a given scale index (R93). -/
def Desc.blockMembers (d : Desc) (i : Nat) : List Nat :=
  let cs := coordsOf d.scaleDims i
  let b := cs.getD d.blockDim 0
  ((List.range 32).filter (fun t => decide (32 * b + t < d.sz d.blockDim))).map (fun t =>
    linearOf d.dims ((List.range 8).map (fun k => if k = d.blockDim then 32 * b + t else cs.getD k 0)))

/-- The block exponents of an MX destination, in scale order (R94). -/
def Desc.blockExps (d : Desc) (f : Fmt) (vals : Array Val) : List Int :=
  (List.range (listProd d.scaleDims)).map (fun i => blockExp f ((d.blockMembers i).map (fun k => vals.getD k Val.zero)))

/-- R86 to R94: convert the exact values of every stored element, in storage order, to the descriptor's type
under 2^σ or block scales, ROUND `round`, the random value `rnd` giving RLOW at an element index. -/
def Desc.convertAll (d : Desc) (sigma : Int) (round : Nat) (rnd : Nat → Nat) (vals : List Val) : Converted :=
  match fmtOf d.elemType with
  | none => { rows := [], scales := [], total := 0, sats := 0, vans := 0, drawn := [] }
  | some f =>
    let mx := isMxType d.elemType
    let exps := if mx then d.blockExps f vals.toArray else []
    let expArr := exps.toArray
    let one (p : Val × Nat) : Conv × Nat :=
      let cs := coordsOf d.storedDims p.2
      let k := if mx then -(expArr.getD (d.scaleIndex cs) 0) else sigma
      let i := d.storageIndex cs
      (f.convert round (if round = 1 then rnd i else 0) (p.1.scale k), i)
    let cv := vals.zipIdx.map one
    { rows := d.writeRows (cv.map (fun c => c.1.code)),
      scales := if mx then [(d.scaleBase, exps.map (fun e => BitVec.ofNat 8 (e + 127).toNat))] else [],
      total := cv.length,
      sats := (cv.filter (fun c => c.1.sat)).length,
      vans := (cv.filter (fun c => c.1.van)).length,
      drawn := (cv.filter (fun c => c.1.drew)).map (fun c => c.2) }

/-! ## Quires (R115, R127) -/

/-- What R127 accepts of one quire's metadata: the accepted bits with the slot each takes its value from, in
row-major order, and the number of rejected bits. -/
structure Quire where
  accepted : List (Nat × Nat)
  rejected : Nat
  deriving DecidableEq, Repr

/-- One bit of the acceptance walk. -/
def quireStep (limit slots md : Nat) (st : Quire × Nat) (b : Nat) : Quire × Nat :=
  if bitAt md b then
    let rows := (st.1.accepted.filter (fun a => a.1 / 4 == b / 4)).length
    let cols := (st.1.accepted.filter (fun a => a.1 % 4 == b % 4)).length
    if st.2 < slots && decide (rows < limit) && decide (cols < limit)
    then ({ st.1 with accepted := st.1.accepted ++ [(b, st.2)] }, st.2 + 1)
    else ({ st.1 with rejected := st.1.rejected + 1 }, st.2 + 1)
  else st

/-- R127: read one quire's metadata, with LIMIT 2 and 8 slots for Q2 (LAYOUT 1), 1 and 4 for Q1. -/
def readQuire (layout md : Nat) : Quire :=
  let limit := if layout = 1 then 2 else 1
  let slots := if layout = 1 then 8 else 4
  ((List.range 16).foldl (quireStep limit slots md) ({ accepted := [], rejected := 0 }, 0)).1

/-- The effective metadata. -/
def Quire.bits (q : Quire) : Nat := listSum (q.accepted.map (fun a => 2 ^ a.1))

/-- The slot that holds the weight of bit `b`, if the quire holds one there. -/
def Quire.slotOf (q : Quire) (b : Nat) : Option Nat := (q.accepted.find? (fun a => a.1 == b)).map (fun a => a.2)

end Sys2Proof.Machine
end

