-- ==== Sys2Proof/Machine/Memory.lean ====
section
/-!
DEFINITION. The memories an operand may lie in: HBM with its address map, duplex regions and ECC (R251 to R259),
the host activation store (R317) and the tile store, and the one reader and writer over all three.
-/

namespace Sys2Proof.Machine

open Sys2Proof

/-! ## The HBM address map -/

/-- The stack of an HBM address (R251). -/
def hbmStack (v : Variant) (a : Nat) : Nat :=
  let n := v.stacks / 2
  (a % 2 ^ v.halfBit) / 256 % n + n * ((a / 2 ^ v.halfBit) % 2)

/-- Every byte of [a, a + n) is an HBM address (R251). -/
def hbmInRange (v : Variant) (a n : Nat) : Bool := decide (a + n ≤ v.hbmEnd)

/-- The start of the reserved area of a half (R252). -/
def reservedStart (v : Variant) (half : Nat) : Nat := (half + 1) * 2 ^ v.halfBit - 2 ^ 32

/-- Whether [a, a + n) meets [b, b + k). -/
def overlaps (a n b k : Nat) : Bool := decide (0 < n ∧ 0 < k ∧ a < b + k ∧ b < a + n)

/-- Some byte of [a, a + n) lies in a reserved area (R252). -/
def meetsReserved (v : Variant) (a n : Nat) : Bool :=
  overlaps a n (reservedStart v 0) (2 ^ 32) || overlaps a n (reservedStart v 1) (2 ^ 32)

/-- S of R253 in bytes. -/
def State.duplexBytes (s : State) : Nat := s.obj Obj.duplexSize * 2 ^ 30

/-- The bounce region of physical tile t (R252). -/
def bounceBase (v : Variant) (t : Nat) : Nat :=
  reservedStart v (t / (v.tiles / 2)) + 2 ^ 24 * (t % (v.tiles / 2))

/-- An address of the firmware area of half 0, above its bounce regions (R252). -/
def firmwareFirst (v : Variant) (a : Nat) : Bool :=
  decide (reservedStart v 0 + 2 ^ 24 * (v.tiles / 2) ≤ a) && decide (a < 2 ^ v.halfBit)

/-- A first-copy address of D0 or D1 (R253), or of the mirrored firmware area (R252). -/
def State.firstCopy (s : State) (a : Nat) : Bool :=
  let b := s.duplexBytes
  let h := 2 ^ s.part.variant.halfBit
  decide (a < b) || (decide (h + b ≤ a) && decide (a < h + 2 * b)) || firmwareFirst s.part.variant a

/-- A duplex-copy address of D0 or D1 (R253). -/
def State.duplexCopy (s : State) (a : Nat) : Bool :=
  let b := s.duplexBytes
  let h := 2 ^ s.part.variant.halfBit
  (decide (h ≤ a) && decide (a < h + b)) || (decide (b ≤ a) && decide (a < 2 * b))

/-- Some byte of [a, a + n) is a duplex-copy address. -/
def State.meetsDuplexCopy (s : State) (a n : Nat) : Bool :=
  let b := s.duplexBytes
  let h := 2 ^ s.part.variant.halfBit
  overlaps a n h b || overlaps a n b b

/-- Every byte of [a, a + n) is a first-copy address of one region (R253). -/
def State.inDuplexRegion (s : State) (a n : Nat) : Bool :=
  let b := s.duplexBytes
  let h := 2 ^ s.part.variant.halfBit
  decide (a + n ≤ b) || (decide (h + b ≤ a) && decide (a + n ≤ h + 2 * b))

/-- The partner of an address (R253). -/
def hbmPartner (v : Variant) (a : Nat) : Nat := a ^^^ 2 ^ v.halfBit

/-- A stack declared lost (R259). -/
def State.stackIsLost (s : State) (i : Nat) : Bool := bitAt (s.obj Obj.stacksLost) i

/-- A stack behind its isolation wrapper: every access to it is answered with ISOLATED (R375). One declared lost answers
under R259. -/
def State.stackFenced (s : State) (i : Nat) : Bool := s.rst.fencedBlocks.contains (.stack i) && !(s.stackIsLost i)

/-- The canonical form of a memory: addresses strictly rising, no entry equal to the zero that an unlisted byte reads
(R389). -/
def Memory.wf (m : List (Nat × Byte)) : Bool := Tab.wf m && Tab.sparse 0 m

/-! ## Bursts and ECC -/

/-- What the controller finds at a burst: 0 nothing, 1 correctable, 2 uncorrectable; a lost stack reads as
uncorrectable (R257, R259). 3: the stack's wrapper answers (R375). -/
def State.burstState (s : State) (b : Nat) : Nat :=
  if s.stackIsLost (hbmStack s.part.variant (32 * b)) then 2
  else if s.stackFenced (hbmStack s.part.variant (32 * b)) then 3
  else Tab.read s.mem.badBursts 0 b

/-- Whether a read of burst `b` is served from its partner: uncorrectable first copy, fall-back on, partner
readable (R257). -/
def State.servedByPartner (s : State) (b : Nat) (fallback : Bool) : Bool :=
  s.burstState b == 2 && fallback && s.firstCopy (32 * b) &&
    decide (s.burstState (hbmPartner s.part.variant (32 * b) / 32) < 2)

/-- The stored byte at an HBM address. -/
def State.hbmRaw (s : State) (a : Nat) : Byte := Tab.read s.mem.hbm 0 a

/-- The byte that a read of an HBM address delivers (R257). -/
def State.hbmByte (s : State) (fallback : Bool) (a : Nat) : Byte :=
  if s.burstState (a / 32) < 2 then s.hbmRaw a
  else if s.servedByPartner (a / 32) fallback then s.hbmRaw (hbmPartner s.part.variant a)
  else 0

/-- The bursts that [a, a + n) touches. -/
def burstsOf (a n : Nat) : List Nat :=
  if n = 0 then [] else (List.range ((a + n - 1) / 32 + 1 - a / 32)).map (fun i => a / 32 + i)

/-- No stack is behind its wrapper, so that scans can be skipped. -/
def State.noneFenced (s : State) : Bool :=
  s.rst.fencedBlocks.all (fun b => match b with
    | .stack _ => false
    | _ => true)

/-- Whether any burst at all has a finding, so that scans can be skipped. -/
def State.hbmClean (s : State) : Bool :=
  s.mem.badBursts.isEmpty && decide (s.obj Obj.stacksLost = 0) && s.noneFenced


/-- The stacks that [a, a + n) touches are at work. -/
def State.wakeStacks (s : State) (a n : Nat) : State :=
  if s.rst.idleBlocks.isEmpty then s
  else (burstsOf a n).foldl (fun (t : State) b => t.wakeBlock (.stack (hbmStack s.part.variant (32 * b)))) s

/-- A stack that takes no bytes: lost, or behind its wrapper. -/
def State.stackDown (s : State) (i : Nat) : Bool := s.stackIsLost i || s.stackFenced i

/-- The 32 bytes of a burst put in place of those stored, in a stack that takes them. -/
def State.putBurst (s : State) (b : Nat) (bytes : List Byte) : State :=
  if s.stackDown (hbmStack s.part.variant (32 * b)) then s
  else { s with mem := { s.mem with
    hbm := Tab.storeList s.mem.hbm 0 (32 * b) bytes, badBursts := Tab.del s.mem.badBursts b } }

/-- Worst status of a range so far: FORBIDDEN over ISOLATED over ECC_LOST over ECC_RECOVERED over OK. -/
def worseEcc : Status → Status → Status
  | .forbidden, _ => .forbidden
  | _, .forbidden => .forbidden
  | .isolated, _ => .isolated
  | _, .isolated => .isolated
  | .eccLost, _ => .eccLost
  | _, .eccLost => .eccLost
  | .eccRecovered, _ => .eccRecovered
  | _, .eccRecovered => .eccRecovered
  | _, _ => .ok

/-- An access that gave no data (R257, R375). -/
def noData (st : Status) : Bool := st == .eccLost || st == .isolated

/-- An access that gave its bytes (R257). -/
def readGave (st : Status) : Bool := st == .ok || st == .eccRecovered

/-- The stored bytes of a burst. -/
def State.burstBytes (s : State) (b : Nat) : List Byte := (List.range 32).map (fun i => s.hbmRaw (32 * b + i))

/-- A correctable finding: the burst is rewritten corrected, counted and raised in G7 (R257). -/
def State.correctBurst (s : State) (b : Nat) : State :=
  let t := s.putBurst b (s.burstBytes b)
  { t with take := { t.take with eccCorrected := t.take.eccCorrected + 1 } }.event 0x0E0
    (unitOf 3 (hbmStack s.part.variant (32 * b))) .eccRecovered (32 * b / 256)

/-- The effect of reading one burst: findings are repaired, counted and raised in G7 (R257), a correctable one of the
partner that serves it among them. The fault of a lost stack was counted at its declaration (R407), so serving its
partner counts none. -/
def State.readBurst (s : State) (fallback : Bool) (acc : Status) (b : Nat) : State × Status :=
  let k := s.burstState b
  let stack := hbmStack s.part.variant (32 * b)
  let detail := 32 * b / 256
  let partner := hbmPartner s.part.variant (32 * b) / 32
  if k = 0 then (s, acc)
  else if k = 3 then (s, .isolated)
  else if k = 1 then (s.correctBurst b, worseEcc acc .eccRecovered)
  else if s.servedByPartner b fallback then
    let lost := s.stackIsLost stack
    let r := if s.burstState partner = 1 then s.correctBurst partner else s
    let t := r.putBurst b (s.burstBytes partner)
    let u := { t with take := { t.take with eccFromPartner := t.take.eccFromPartner + 1 } }.event 0x0E1
      (unitOf 3 stack) .eccRecovered detail
    (if lost then u else u.countFault, worseEcc acc .eccRecovered)
  else (s, worseEcc acc .eccLost)

/-- One access was answered with ECC_LOST (R255, R257). -/
def State.noteEccLost (s : State) (a : Nat) : State :=
  { s with take := { s.take with eccLost := s.take.eccLost + 1 } }.event 0x0E2
    (unitOf 3 (hbmStack s.part.variant a)) .eccLost (a / 256)

/-- The address of the first burst of a range for which `p` holds, or the start of the range. -/
def firstBurst (a n : Nat) (p : Nat → Bool) : Nat :=
  match (burstsOf a n).find? p with
  | some b => 32 * b
  | none => a

/-- The effect and status of reading [a, a + n) of HBM; the event of an access answered with ECC_LOST names its first
burst that no copy gave (log 165). -/
def State.hbmTouch (s : State) (fallback : Bool) (a n : Nat) : State × Status :=
  if s.hbmClean then (s.wakeStacks a n, .ok)
  else
    let r := (burstsOf a n).foldl (fun (x : State × Status) b => x.1.readBurst fallback x.2 b) (s.wakeStacks a n, .ok)
    if r.2 = .eccLost then
      (r.1.noteEccLost (firstBurst a n (fun b => s.burstState b == 2 && !(s.servedByPartner b fallback))), .eccLost)
    else r

/-! ## Writing HBM -/

/-- Store one byte, discarded in a lost stack (R259) and at a wrapper (R375). -/
def State.hbmStore (s : State) (a : Nat) (b : Byte) : State :=
  if s.stackDown (hbmStack s.part.variant a) then s
  else { s with mem := { s.mem with hbm := Tab.store s.mem.hbm 0 a b } }

/-- Store bytes from an address on. -/
def State.hbmStoreList (s : State) (a : Nat) : List Byte → State
  | [] => s
  | b :: bs => (s.hbmStore a b).hbmStoreList (a + 1) bs

/-- What a write of [a, a + n) does to the findings of a burst: a full write clears them; a partial write over an
uncorrectable burst leaves its other bytes zero and is answered ECC_LOST (R257). -/
def State.writeBurst (s : State) (a n : Nat) (acc : Status) (b : Nat) : State × Status :=
  let whole := decide (a ≤ 32 * b) && decide (32 * b + 32 ≤ a + n)
  let lost := s.stackIsLost (hbmStack s.part.variant (32 * b))
  let k := Tab.read s.mem.badBursts 0 b
  if s.stackFenced (hbmStack s.part.variant (32 * b)) then (s, .isolated)
  else if lost || k == 0 then (s, acc)
  else if whole then ({ s with mem := { s.mem with badBursts := Tab.del s.mem.badBursts b } }, acc)
  else if k = 1 then s.readBurst false acc b
  else (s.putBurst b (List.replicate 32 0), worseEcc acc .eccLost)

/-- Write bytes at one copy. -/
def State.hbmWriteOne (s : State) (a : Nat) (bs : List Byte) : State × Status :=
  let w := s.wakeStacks a bs.length
  let r := if s.mem.badBursts.isEmpty && s.noneFenced then (w, Status.ok)
    else (burstsOf a bs.length).foldl (fun (x : State × Status) b => x.1.writeBurst a bs.length x.2 b) (w, .ok)
  let t := if r.2 = .eccLost then
      r.1.noteEccLost (firstBurst a bs.length (fun b => (s.writeBurst a bs.length .ok b).2 == .eccLost))
    else r.1
  (t.hbmStoreList a bs, r.2)

/-- A byte in front of runs of bytes: it joins the first run when that begins at the next address. -/
def joinRun (a : Nat) (b : Byte) : List (Nat × List Byte) → List (Nat × List Byte)
  | [] => [(a, [b])]
  | (c, bs) :: rs => if c = a + 1 then (a, b :: bs) :: rs else (a, [b]) :: (c, bs) :: rs

/-- The mirrored part of a write, as runs of bytes of the partner copy (R254). -/
def State.mirrorRuns (s : State) (a : Nat) : List Byte → List (Nat × List Byte)
  | [] => []
  | b :: bs =>
    if s.firstCopy a then joinRun (hbmPartner s.part.variant a) b (s.mirrorRuns (a + 1) bs)
    else s.mirrorRuns (a + 1) bs

/-- R254: a write to HBM, mirrored where its addresses are first copies. -/
def State.hbmWrite (s : State) (a : Nat) (bs : List Byte) : State × Status :=
  (s.mirrorRuns a bs).foldl (fun (x : State × Status) m =>
    let q := x.1.hbmWriteOne m.1 m.2
    (q.1, worseEcc x.2 q.2)) (s.hbmWriteOne a bs)

/-- R254: a write that a request makes, refused whole where it meets a duplex copy, as the regions stand when the bytes
arrive. -/
def State.hbmWriteChecked (s : State) (a : Nat) (bs : List Byte) : State × Status :=
  if s.meetsDuplexCopy a bs.length then (s, .forbidden) else s.hbmWrite a bs

/-! ## The host activation store (R317) -/

/-- The host address of a SPACE 2 address, if its segment is mapped. -/
def State.hostAddr (s : State) (a : Nat) : Option Nat :=
  if 2 ^ 38 ≤ a then none
  else
    let e := (Tab.read s.host.segmentsInForce 0 (a / 2 ^ 30)).toNat
    if bitAt e 0 then some (bitsOf e 63 12 * 4096 + a % 2 ^ 30) else none

/-- Every byte of [a, a + n) is mapped in SPACE 2. -/
def State.hostMapped (s : State) (a n : Nat) : Bool :=
  decide (a + n ≤ 2 ^ 38) && (n == 0 || (List.range ((a + n - 1) / 2 ^ 30 + 1 - a / 2 ^ 30)).all (fun i =>
    (s.hostAddr ((a / 2 ^ 30 + i) * 2 ^ 30)).isSome))

/-- A byte of the activation store: what this part wrote there last, or what the host holds (log 11). -/
def State.hostStoreByte (s : State) (a : Nat) : Byte :=
  match s.hostAddr a with
  | some h => (Tab.look s.host.activation h).getD (Config.hostByte 0 h)
  | none => 0

/-- The pieces of a request of `n` bytes at `a`, cut at multiples of `cap` (R302, log 173). -/
def tlpPieces (cap a n : Nat) : List (Nat × Nat) :=
  if n = 0 then []
  else (List.range ((a + n - 1) / cap + 1 - a / cap)).map (fun i =>
    let lo := max a ((a / cap + i) * cap)
    (lo, min (a + n) ((a / cap + i + 1) * cap) - lo))

/-- Memory writes to the host, each within the payload size that the host configured (R302). -/
def State.emitWrites (s : State) (a : Nat) (bs : List Byte) : State :=
  (tlpPieces (128 * 2 ^ s.host.maxPayload) a bs.length).foldl (fun (t : State) q =>
    t.emit (.hostWrite q.1 ((bs.drop (q.1 - a)).take q.2))) s

/-- Memory reads of the host, each within the read request size that the host configured (R302). -/
def State.emitReads (s : State) (a n : Nat) : State :=
  (tlpPieces (128 * 2 ^ s.host.maxRead) a n).foldl (fun (t : State) q => t.emit (.hostRead q.1 q.2)) s

/-- Write the activation store within one segment: the bytes leave the part in order (R318). -/
def State.hostStorePiece (s : State) (a : Nat) (bs : List Byte) : State :=
  match s.hostAddr a with
  | some h => { s with host := { s.host with activation := Tab.putList s.host.activation h bs } }.emitWrites h bs
  | none => s

/-- Write the activation store, cutting the bytes at the end of a 1 GiB segment. -/
def State.hostStoreWrite (s : State) (a : Nat) (bs : List Byte) : State :=
  let k := 2 ^ 30 - a % 2 ^ 30
  if bs.length ≤ k then s.hostStorePiece a bs
  else (s.hostStorePiece a (bs.take k)).hostStorePiece (a + k) (bs.drop k)

/-! ## All spaces -/

/-- The byte that a command of physical tile `p` reads at an address of a SPACE (R97), fall-back on. -/
def State.spaceByte (s : State) (p space a : Nat) : Byte :=
  if space = 0 then s.storeByte p a else if space = 1 then s.hbmByte true a else s.hostStoreByte a

/-- The effect and status of reading a range of a SPACE. -/
def State.spaceTouch (s : State) (space a n : Nat) : State × Status :=
  if space = 1 then s.hbmTouch true a n else (s, .ok)

/-- Write bytes at an address of a SPACE for a command of physical tile `p`. -/
def State.spaceWrite (s : State) (p space a : Nat) (bs : List Byte) : State × Status :=
  if space = 0 then (s.storeWrite p a bs, .ok)
  else if space = 1 then s.hbmWriteChecked a bs
  else (s.hostStoreWrite a bs, .ok)

/-- Write several pieces. -/
def State.spaceWriteAll (s : State) (p space : Nat) (rows : List (Nat × List Byte)) : State × Status :=
  rows.foldl (fun (x : State × Status) r =>
    let q := x.1.spaceWrite p space r.1 r.2
    (q.1, worseEcc x.2 q.2)) (s, .ok)

end Sys2Proof.Machine
end

