-- ==== Sys2Proof/Machine/Random.lean ====
section
/-!
DEFINITION. The random-bit unit: the words of R213 and the draw of R217. What a fill writes is a function of the SEED, so
a tile's state holds the SEED whose words its table holds.
-/

namespace Sys2Proof.Machine

open Sys2Proof

/-- R213: the mixing function. -/
def mix (x : BitVec 64) : BitVec 64 :=
  let a := (x ^^^ (x >>> 32)) * 0xD6E8FEB86659FD93
  let b := (a ^^^ (a >>> 32)) * 0xD6E8FEB86659FD93
  b ^^^ (b >>> 32)

/-- R213: table entry i for a SEED. -/
def tableWord (seed : BitVec 64) (i : Nat) : BitVec 64 :=
  mix (seed + BitVec.ofNat 64 (i + 1) * 0x9E3779B97F4A7C15)

/-- The hash of R217. -/
def drawHash (seed : BitVec 64) (stream step elem : Nat) : BitVec 64 :=
  mix (mix (seed ^^^ (BitVec.ofNat 64 stream <<< 32) ^^^ BitVec.ofNat 64 step) ^^^ BitVec.ofNat 64 elem)

/-- The two table indices of a draw (R217). -/
def drawIndices (seed : BitVec 64) (stream step elem : Nat) : Nat × Nat :=
  let h := (drawHash seed stream step elem).toNat
  let a := bitsOf h 12 0
  (a, (a + 1 + bitsOf h 25 13 % 8191) % 8192)

/-- R217: the 64-bit draw at a coordinate, of the words of a table. -/
def drawFrom (table : Nat → BitVec 64) (seed : BitVec 64) (stream step elem : Nat) : Nat :=
  let h := (drawHash seed stream step elem).toNat
  let ab := drawIndices seed stream step elem
  (table ab.1 ^^^ (table ab.2).rotateLeft (bitsOf h 31 26)).toNat

/-- R217: the draw from the table of the SEED itself. -/
def draw (seed : BitVec 64) (stream step elem : Nat) : Nat := drawFrom (tableWord seed) seed stream step elem

/-- R218: stochastic rounding and the audit use RLOW. -/
def drawRlow (d : Nat) : Nat := bitsOf d 15 0

/-- R218: Bernoulli selection and token skipping use RSEL. -/
def drawRsel (d : Nat) : Nat := bitsOf d 31 16

/-- R218: RAND USE 0 uses RAW. -/
def drawRaw (d : Nat) : Nat := bitsOf d 31 0

/-- R218: the second uniform of USE 3. -/
def drawU2 (d : Nat) : Nat := bitsOf d 39 16

/-- R218: the uniform value is U1 × 2^−24. -/
def drawU1 (d : Nat) : Nat := bitsOf d 63 40

end Sys2Proof.Machine
end

