-- ==== Sys2Proof/Machine/Operands.lean ====
section
/-!
DEFINITION. The operand forms: the fields of a command record (R66 to R73), the validity of a record, tensor
descriptors and their checks (R100 to R102, R252), scales by SCALE_ID and step (R87, R199 to R205), and the
reading and the converted writing of a tensor operand.
-/

namespace Sys2Proof.Machine

open Sys2Proof

/-! ## Record fields -/

/-- OPCODE (R66). -/
def recOpcode (x : Nat) : Nat := bitsOf x 7 0

/-- FENCE. -/
def recFence (x : Nat) : Bool := bitAt x 8

/-- CR. -/
def recCr (x : Nat) : Bool := bitAt x 9

/-- SHED_CLASS. -/
def recShed (x : Nat) : Nat := bitsOf x 11 10

/-- STEP_END. -/
def recStepEnd (x : Nat) : Bool := bitAt x 12

/-- RESTART_MARK. -/
def recMark (x : Nat) : Bool := bitAt x 13

/-- PHASE. -/
def recPhase (x : Nat) : Nat := bitsOf x 23 16

/-- SEQ. -/
def recSeq (x : Nat) : Nat := bitsOf x 47 32

/-- A 16-bit operand field whose low bit is `lo`. -/
def recOp (x lo : Nat) : Nat := bitsOf x (lo + 15) lo

/-- No operand (R67). -/
def noOperand : Nat := 0xFFFF

/-- An operand is given at bit `lo`. -/
def hasOp (x lo : Nat) : Bool := decide (recOp x lo ≠ noOperand)

/-- Bits `lo` to `hi` are 0. -/
def zeroAt (x hi lo : Nat) : Bool := decide (bitsOf x hi lo = 0)

/-- Opcodes of R63. -/
def opMove : Nat := 0x01
/-- FOLD. -/
def opFold : Nat := 0x02
/-- MMA. -/
def opMma : Nat := 0x10
/-- SMMA. -/
def opSmma : Nat := 0x11
/-- DRAIN. -/
def opDrain : Nat := 0x12
/-- VEC. -/
def opVec : Nat := 0x20
/-- TRIM. -/
def opTrim : Nat := 0x30
/-- TIPIN. -/
def opTipin : Nat := 0x31
/-- SCAN. -/
def opScan : Nat := 0x32
/-- CHECK. -/
def opCheck : Nat := 0x33
/-- ROUTE. -/
def opRoute : Nat := 0x40
/-- RAND. -/
def opRand : Nat := 0x50
/-- SIGNAL. -/
def opSignal : Nat := 0x60
/-- WAIT. -/
def opWait : Nat := 0x61
/-- PUT. -/
def opPut : Nat := 0x70
/-- GET. -/
def opGet : Nat := 0x71
/-- ACC. -/
def opAcc : Nat := 0x72

/-- The opcodes that R63 lists. -/
def listedOpcodes : List Nat :=
  [opMove, opFold, opMma, opSmma, opDrain, opVec, opTrim, opTipin, opScan, opCheck, opRoute, opRand, opSignal,
   opWait, opPut, opGet, opAcc]

/-- ROUTINE of a VEC. -/
def recRoutine (x : Nat) : Nat := recOp x 64

/-- FUNC of a DRAIN. -/
def recFunc (x : Nat) : Nat := bitsOf x 103 96

/-- The routine codes that R76 lists. -/
def listedRoutines : List Nat :=
  [0x0001, 0x0002, 0x0003, 0x0004, 0x0101, 0x0102, 0x0103, 0x0104, 0x0201, 0x0202, 0x0203, 0x0301, 0x0302, 0x0401,
   0x0601, 0x0701, 0x0702, 0x0801]

/-- The PERM field is a permutation (R68). -/
def permOk (x : Nat) : Bool :=
  (List.range 8).all (fun d => ((List.range 8).filter (fun i => bitsOf x (98 + 3 * i) (96 + 3 * i) == d)).length == 1)

/-- The AM slot that a command names, if its class has one (R62, R69, R70). -/
def recSlot (x : Nat) : Option Nat :=
  if recOpcode x = opMma ∨ recOpcode x = opSmma then some (bitsOf x 100 96)
  else if recOpcode x = opDrain then some (bitsOf x 68 64)
  else none

/-- Whether the operands needed and allowed for a VEC routine are given: how many inputs, OUT0, and whether OUT1 is
needed (2), optional (1) or not allowed (0) (R67, R76, R152 to R155). AMAX writes nothing. -/
def vecOperandsOk (x : Nat) : Bool :=
  let r := recRoutine x
  let need (n : Nat) (out0 : Bool) (out1 : Nat) : Bool :=
    hasOp x 80 && (hasOp x 96 == decide (2 ≤ n)) && (hasOp x 112 == decide (3 ≤ n)) && (hasOp x 128 == out0) &&
      (if out1 = 2 then hasOp x 144 else if out1 = 1 then true else !(hasOp x 144))
  if r = 0x0001 ∨ r = 0x0002 then need 2 true 0
  else if r = 0x0003 then need 3 true 0
  else if r = 0x0004 then need 1 true 0
  else if r = 0x0101 ∨ r = 0x0102 ∨ r = 0x0103 then need 1 true 1
  else if r = 0x0104 ∨ r = 0x0201 then need 1 true 0
  else if r = 0x0202 then need 1 (hasOp x 128) 0
  else if r = 0x0203 then need 1 true 2
  else if r = 0x0301 then need 3 true 0
  else if r = 0x0302 then need 2 true 0
  else if r = 0x0401 then need 2 true 0
  else if r = 0x0601 then need 1 true 0
  else if r = 0x0701 ∨ r = 0x0702 then need 2 true 0
  else if r = 0x0801 then need 3 true 1
  else false

/-- Header validity (R63, R66): listed opcode, reserved bits 0, SHED_CLASS and PHASE in range. -/
def headerOk (x : Nat) : Bool :=
  listedOpcodes.contains (recOpcode x) && zeroAt x 15 14 && zeroAt x 31 24 && zeroAt x 63 48 &&
    decide (recShed x ≠ 3) && decide (recPhase x ≤ 5)

/-- Field validity of each class from the record alone (R66 to R73): reserved bits 0 and no value marked
MALFORMED. -/
def operandsOk (x : Nat) : Bool :=
  let op := recOpcode x
  if op = opMove then
    hasOp x 64 && hasOp x 80 && permOk x && decide (bitsOf x 123 122 ≤ 1) && zeroAt x 127 124 && zeroAt x 511 144
  else if op = opFold then
    hasOp x 64 && hasOp x 80 && zeroAt x 119 96 && zeroAt x 123 122 && zeroAt x 127 124 && zeroAt x 511 128
  else if op = opMma then
    hasOp x 64 && hasOp x 80 && zeroAt x 111 102 && !(hasOp x 112) && !(hasOp x 128) && !(hasOp x 144) &&
      !(hasOp x 160) && zeroAt x 511 208
  else if op = opSmma then
    hasOp x 64 && hasOp x 80 && decide (bitsOf x 104 103 ≠ 3) && zeroAt x 111 106 && zeroAt x 511 208 &&
      (hasOp x 112 || hasOp x 128) == bitAt x 102 && hasOp x 144 == decide (bitsOf x 104 103 ≠ 0) &&
      hasOp x 160 == bitAt x 105
  else if op = opDrain then
    let f := recFunc x
    let upd := decide (f = 0x10 ∨ f = 0x11)
    (decide (f ≤ 4) || upd) && hasOp x 80 && zeroAt x 79 70 && zeroAt x 111 108 && zeroAt x 511 176 &&
      decide (bitsOf x 107 106 ≤ 1) && (if upd then !(hasOp x 112) || !(bitAt x 69) else hasOp x 112 == decide (1 ≤ f ∧ f ≤ 4)) && (hasOp x 128 == upd) &&
      (hasOp x 144 == upd)
  else if op = opVec then
    let r := recRoutine x
    listedRoutines.contains r && vecOperandsOk x && decide (bitsOf x 243 242 ≤ 1) && zeroAt x 511 244
  else if op = opTrim then
    hasOp x 64 && hasOp x 80 && !(hasOp x 96) && !(hasOp x 112) && !(hasOp x 128) && !(hasOp x 144) &&
      decide (bitsOf x 178 177 = 1 ∨ bitsOf x 178 177 = 2) && zeroAt x 191 181 &&
      zeroAt x 511 232
  else if op = opTipin then
    hasOp x 64 && hasOp x 80 && hasOp x 96 && !(hasOp x 112) && !(hasOp x 128) && !(hasOp x 144) &&
      decide (bitsOf x 178 177 = 1 ∨ bitsOf x 178 177 = 2) && decide (bitsOf x 180 179 ≤ 1) && zeroAt x 191 181 &&
      zeroAt x 511 232
  else if op = opScan then
    !(hasOp x 64) && hasOp x 80 && hasOp x 96 && hasOp x 112 && hasOp x 128 && !(hasOp x 144) &&
      decide (bitsOf x 178 177 = 1 ∨ bitsOf x 178 177 = 2) && zeroAt x 191 181 &&
      zeroAt x 511 232
  else if op = opCheck then
    !(hasOp x 64) && hasOp x 80 && !(hasOp x 96) && !(hasOp x 112) && !(hasOp x 128) && hasOp x 144 &&
      decide (bitsOf x 178 177 = 1 ∨ bitsOf x 178 177 = 2) && zeroAt x 191 181 &&
      zeroAt x 511 232
  else if op = opRoute then
    let o := bitsOf x 65 64
    decide (o ≤ 2) && zeroAt x 79 68 && zeroAt x 191 185 && zeroAt x 511 248 && (hasOp x 80 == decide (o = 0)) &&
      (hasOp x 96 == decide (o ≠ 0)) && hasOp x 112 && (hasOp x 128 == decide (o = 2)) &&
      (decide (o = 0) || (zeroAt x 67 66 && !(hasOp x 208))) && (decide (o = 1) || zeroAt x 247 224)
  else if op = opRand then
    hasOp x 64 && decide (bitsOf x 99 96 ≤ 3) && zeroAt x 111 100 && zeroAt x 511 208
  else if op = opSignal then decide (bitsOf x 67 64 ≤ 3) && zeroAt x 191 176 && zeroAt x 511 320 &&
    (zeroAt x 175 172 || !(bitsOf x 67 64 == 1 || bitsOf x 67 64 == 2))
  else if op = opWait then zeroAt x 67 64 && zeroAt x 511 145
  else if op = opPut then hasOp x 64 && zeroAt x 143 140 && zeroAt x 159 157 && zeroAt x 511 192
  else if op = opGet then hasOp x 64 && zeroAt x 143 140 && zeroAt x 511 144
  else if op = opAcc then hasOp x 64 && zeroAt x 143 140 && zeroAt x 191 144 && zeroAt x 511 208
  else false

/-- A record is valid on its own (R59 row 6, R66). -/
def recordOk (x : Nat) : Bool := headerOk x && operandsOk x

/-! ## Named descriptors -/

/-- The low bits of the fields of a record that are descriptor indices (R67 to R73). -/
def indexFields (x : Nat) : List Nat :=
  let op := recOpcode x
  if op = opMove ∨ op = opFold then [64, 80]
  else if op = opMma ∨ op = opSmma then [64, 80, 112, 128, 144, 160, 192]
  else if op = opDrain then [80, 112, 128, 144]
  else if op = opVec then [80, 96, 112, 128, 144]
  else if op = opTrim ∨ op = opTipin ∨ op = opScan ∨ op = opCheck then [64, 80, 96, 112, 128, 144]
  else if op = opRoute then [80, 96, 112, 128, 208]
  else if op = opRand ∨ op = opPut ∨ op = opGet ∨ op = opAcc then [64]
  else []

/-- The descriptors that an operand field names; each operand of a FOLD has its metadata in the next one (R130). -/
def fieldDescriptors (x lo : Nat) : List Nat :=
  if recOpcode x = opFold then [recOp x lo, recOp x lo + 1] else [recOp x lo]

/-- Every descriptor that a record names. -/
def namedDescriptors (x : Nat) : List Nat := ((indexFields x).filter (hasOp x)).flatMap (fieldDescriptors x)

/-- The fields of a record whose tensors it only writes. -/
def writtenFields (x : Nat) : List Nat :=
  let op := recOpcode x
  if op = opMove ∨ op = opFold then [80]
  else if op = opDrain then (if 0x10 ≤ recFunc x then [] else [80])
  else if op = opVec then (if recRoutine x = 0x0702 then [144] else [128, 144])
  else if op = opScan then [96]
  else if op = opCheck then [144]
  else if op = opRoute then (if bitsOf x 65 64 = 0 then [112] else [128])
  else if op = opRand ∨ op = opGet then [64]
  else []

/-- The descriptors of the tensors that a record reads, W's metadata at an update drain included (R166). -/
def readDescriptors (x : Nat) : List Nat :=
  ((indexFields x).filter (fun lo => hasOp x lo && !((writtenFields x).contains lo))).flatMap (fieldDescriptors x) ++
    (if recOpcode x = opDrain ∧ 0x10 ≤ recFunc x then [recOp x 80 + 1] else [])

/-! ## Descriptors -/

/-- The descriptor at an index of a tile's store (R67). -/
def State.desc (s : State) (p idx : Nat) : Desc :=
  Desc.ofBits (leNat ((List.range 64).map (fun i => s.storeByte p (idx * 64 + i))))

/-- DESCRIPTOR_COUNT of the active reel. -/
def State.descriptorCount (s : State) : Nat :=
  match s.reels.active with
  | some r => r.descriptorCount
  | none => 0

/-- The size of the tile store (R55). -/
def storeBytes : Nat := 0x400000

/-- R100, first check: codes valid, reserved fields 0, ORDER_SIZE0 0 or at least SIZE0. -/
def Desc.codesOk (d : Desc) : Bool :=
  isElemType d.elemType && decide (d.rank ≤ 8) && decide (d.space ≤ 2) && decide (d.layout ≤ 2) &&
    d.reservedClear && (d.orderSize0 == 0 || decide (d.size.getD 0 0 ≤ d.orderSize0))

/-- R100, second check: no SIZE and STRIDE at or above RANK. -/
def Desc.unusedZero (d : Desc) : Bool :=
  (List.range 8).all (fun i => decide (i < d.rank) || (d.size.getD i 0 == 0 && d.stride.getD i 0 == 0))

/-- R100, third check: the MX fields. -/
def Desc.mxOk (d : Desc) : Bool :=
  if isMxType d.elemType then decide (d.blockDim < d.rank) && decide (d.scaleId = 0xFFF)
  else decide (d.blockDim = 0) && decide (d.scaleBase = 0)

/-- R100, fourth check, with R116: what a compressed layout needs. -/
def Desc.layoutOk (d : Desc) : Bool :=
  d.layout == 0 || (decide (2 ≤ d.rank) && decide (4 ≤ d.elemType ∧ d.elemType ≤ 0x0A) && d.size.getD 0 0 % 4 == 0 &&
    d.size.getD 1 0 % 4 == 0 && d.orderSize0 % 4 == 0)

/-- R100, fifth check: row starts of 6-bit types. -/
def Desc.sixBitOk (d : Desc) : Bool :=
  elemBits d.elemType != 6 || (List.range 8).all (fun i => d.strideBytes i % 3 == 0)

/-- The bytes that dimensions 0 to d − 1 span. -/
def Desc.innerExtent (d : Desc) (i : Nat) : Nat :=
  d.rowBytes + listSum ((List.range i).map (fun e => if e = 0 then 0 else (d.storedDims.getD e 1 - 1) * d.strideBytes e))

/-- R100, sixth check: a destination's rows do not overlap. -/
def Desc.rowsDisjoint (d : Desc) : Bool :=
  (List.range 8).all (fun i => i == 0 || decide (d.sz i ≤ 1) || decide (d.innerExtent i ≤ d.strideBytes i))

/-- The pieces of memory a tensor occupies: its extent and its scale array (R100). -/
def Desc.pieces (d : Desc) : List (Nat × Nat) :=
  (d.base, d.extentBytes) :: (if isMxType d.elemType then [(d.scaleBase, d.scaleBytes)] else [])

/-- The first three checks of R100, the only ones for an empty tensor (R102). -/
def Desc.headOk (d : Desc) : Bool := d.codesOk && d.unusedZero && d.mxOk

/-- R100 to R102, R252, R254: the first check a descriptor fails for an operand that may lie in `spaces`. -/
def State.descFault (s : State) (d : Desc) (isDst : Bool) (spaces : List Nat) : Option Status :=
  let v := s.part.variant
  if !d.headOk then some .malformed
  else if d.isEmpty then none
  else if !d.layoutOk || !d.sixBitOk || (isDst && !d.rowsDisjoint) then some .malformed
  else if !(spaces.contains d.space) then some .malformed
  else if d.space = 0 && d.pieces.any (fun q => decide (storeBytes < q.1 + q.2)) then some .outOfRange
  else if d.space = 1 && d.pieces.any (fun q => !(hbmInRange v q.1 q.2)) then some .unmapped
  else if d.space = 2 && d.pieces.any (fun q => !(s.hostMapped q.1 q.2)) then some .unmapped
  else if isDst && d.space = 0 && d.pieces.any (fun q => overlaps q.1 q.2 0 (s.descriptorCount * 64)) then
    some .forbidden
  else if d.space = 1 && d.pieces.any (fun q => meetsReserved v q.1 q.2) then some .forbidden
  else if isDst && d.space = 1 && d.pieces.any (fun q => s.meetsDuplexCopy q.1 q.2) then some .forbidden
  else none

/-- A tensor has the given sizes, with 1 in every further dimension (R98). -/
def Desc.hasSizes (d : Desc) (sizes : List Nat) : Bool := (List.range 8).all (fun i => d.sz i == sizes.getD i 1)

/-- R294: the pair layout with 1 to 64 rows. -/
def Desc.isPairForm (d : Desc) : Bool :=
  d.elemType == 0x01 && d.layout == 0 && d.rank == 2 && d.sz 0 == 128 && decide (d.sz 1 ≤ 64) && d.scaleId == 0xFFF

/-! ## Commands that draw (R214, R219, R220) -/

/-- STREAM of a record; a class without the field reads 0. -/
def recStream (x : Nat) : Nat :=
  let op := recOpcode x
  if op = opMove then recOp x 128
  else if op = opDrain then recOp x 160
  else if op = opVec then recOp x 224
  else if op = opTipin then recOp x 200
  else if op = opRand then recOp x 80
  else 0

/-- A conversion into a tensor can draw: it has elements, and they are not copied bit for bit (R86). -/
def Desc.converts (d : Desc) : Bool := !d.isEmpty && !(isRawType d.elemType)

/-- ⌊F × NPOS / 0x1_0000⌋. -/
def shareOf (f : Nat) (w : Desc) : Nat := f * (w.sz 0 * w.sz 1) / 0x10000

/-- Whether a command, its descriptors given by index, draws bits under its own STREAM (R219). One that its own record and
descriptors make zero work draws none (R220); what FROM_POLICY asks for is not in the record (log 181). -/
def drawsStream (desc : Nat → Desc) (x : Nat) : Bool :=
  let op := recOpcode x
  let into (lo : Nat) : Bool := hasOp x lo && (desc (recOp x lo)).converts
  let some_ (lo : Nat) : Bool := hasOp x lo && !(desc (recOp x lo)).isEmpty
  let regrows := bitAt x 176 || decide (0 < shareOf (bitsOf x 175 160) (desc (recOp x 64)))
  if op = opMove then bitsOf x 123 122 == 1 && some_ 64 && into 80
  else if op = opDrain then
    bitsOf x 107 106 == 1 && into 80 && !(recFunc x == 0 && (desc (recOp x 80)).isPairForm)
  else if op = opVec then
    some_ 80 && !(hasOp x 128 && (desc (recOp x 128)).isEmpty) && (recRoutine x == 0x0601 || (recRoutine x == 0x0801 && !(bitAt x 200)) ||
      (bitsOf x 243 242 == 1 && recRoutine x != 0x0202 && (into 128 || into 144)))
  else if op = opTipin then bitsOf x 180 179 == 1 && some_ 64 && some_ 96 && regrows
  else if op = opRand then some_ 64
  else false

/-- R220: a command that draws does not name the governor's stream. -/
def streamOk (desc : Nat → Desc) (x : Nat) : Bool := !(recStream x == 0xFFFF && drawsStream desc x)

/-- R234: a SELECT whose tokens the governor tests draws under stream 0xFFFF. -/
def State.governorDraws (s : State) (l x : Nat) : Bool :=
  recOpcode x == opRoute && bitsOf x 65 64 == 0 && recPhase x == 3 && decide (2 ≤ (s.lt l).stepLevel)

/-- A command that waits for a table fill (R214). -/
def State.mayDraw (s : State) (l p x : Nat) : Bool := drawsStream (s.desc p) x || s.governorDraws l x

/-- The first failure of several checks. R100 orders the checks of one descriptor and not the descriptors. DESIGN CHOICE
(log 190): a command runs every check of one operand before any check of the next, in the order of the operands in its
record, and its own forms after them. -/
def firstFault : List (Option Status) → Option Status
  | [] => none
  | some st :: _ => some st
  | none :: t => firstFault t

/-- MALFORMED unless a condition holds. -/
def need (b : Bool) (st : Status) : Option Status := if b then none else some st

/-! ## Scales -/

/-- The part takes part in steps as this logical tile (R199). -/
def State.participates (s : State) (l : Nat) : Bool := s.steps.participants.contains l

/-- The version of a step (R200). -/
def State.versionAt (s : State) (c : Nat) : Option Version := s.steps.versions.find? (fun v => v.step == c)

/-- The newest version. -/
def State.newestVersion (s : State) : Option Version := s.steps.versions.head?

/-- The version that a command of a logical tile reads, `ahead` steps after its own; none while it does not exist
yet (R200). -/
def State.versionFor (s : State) (l ahead : Nat) : Option Version :=
  if s.participates l then s.versionAt ((s.lt l).stepCtr + ahead) else s.newestVersion

/-- The step that a logical tile's commands belong to: a tile that does not participate stays in step 0 (R199). -/
def State.stepOf (s : State) (l : Nat) : Nat := if s.participates l then (s.lt l).stepCtr else 0

/-- A SCALE_ID whose σ is versioned (R203). -/
def scaleVersioned (id : Nat) : Bool := decide (id < 0x800) || decide (id = 0xFFE)

/-- An exact entry. -/
def scaleExact (id : Nat) : Bool := decide (0x800 ≤ id ∧ id ≤ 0xFFD)

/-- The σ that a read or a write by a command uses; none while its version does not exist (R87, R203). -/
def State.sigma (s : State) (l id : Nat) (write : Bool) (ahead : Nat) : Option Int :=
  if id < 0x800 then (s.versionFor l ahead).map (fun v => Tab.read v.sigma 0 id)
  else if id ≤ 0xFFD then some (Tab.read s.steps.exact 0 id)
  else if id = 0xFFE then (if write then (s.versionFor l ahead).map (fun v => v.lossScale) else some 0)
  else some 0

/-- Whether the version a descriptor's scale needs exists. -/
def State.scaleReady (s : State) (l : Nat) (d : Desc) (write : Bool) (ahead : Nat) : Bool :=
  (s.sigma l d.scaleId write ahead).isSome

/-- The σ, 0 where it is not needed. -/
def State.sigmaOf (s : State) (l : Nat) (d : Desc) (write : Bool) (ahead : Nat) : Int :=
  (s.sigma l d.scaleId write ahead).getD 0

/-! ## Reading and writing tensors -/

/-- The effect and status of reading a whole operand (ECC of HBM). -/
def State.touchDesc (s : State) (d : Desc) : State × Status :=
  d.pieces.foldl (fun (x : State × Status) q =>
    let r := x.1.spaceTouch d.space q.1 q.2
    (r.1, worseEcc x.2 r.2)) (s, .ok)

/-- The values of an operand in storage order. -/
def State.vals (s : State) (l p : Nat) (d : Desc) : List Val :=
  d.readVals (s.spaceByte p d.space) (s.sigmaOf l d false 0)

/-- The element bits of an operand in storage order. -/
def State.codes (s : State) (p : Nat) (d : Desc) : List Nat := d.readCodes (s.spaceByte p d.space)

/-- The FP32 values of an operand: each decoded value rounded to FP32 (R441 takes decoded FP32 inputs). -/
def State.f32s (s : State) (l p : Nat) (d : Desc) : List F32 := (s.vals l p d).map roundF32

/-- The SEED of the active reel. -/
def State.seed (s : State) : BitVec 64 :=
  match s.reels.active with
  | some r => r.seed
  | none => 0

/-- The words of a tile's random table: those of the SEED it was filled with last; before the first fill since its reset
the spec gives none (R213, log 162). -/
def State.table (s : State) (p : Nat) : Nat → BitVec 64 :=
  match (s.pt p).tableFill with
  | .filled k => tableWord k
  | .zeroed => fun _ => 0
  | .unfilled => Config.unspecifiedWord (s.pt p).epoch p

/-- R217: a draw on a tile. -/
def State.drawAt (s : State) (p stream step i : Nat) : Nat := drawFrom (s.table p) s.seed stream step i

/-- RLOW of the draw for a command of a logical tile at an element index (R88, R219). -/
def State.rlow (s : State) (l p stream i : Nat) : Nat := drawRlow (s.drawAt p stream (s.lt l).stepCtr i)

/-- The format slot of R209. -/
def formatSlot (t : Nat) : Nat := if 0x14 ≤ t then t - 9 else t

/-- The key of a conversion counter: class, slot, kind (0 saturations, 1 vanishes, 2 converted). -/
def convKey (cls slot kind : Nat) : Nat := (cls * 17 + slot) * 3 + kind

/-- Add to one conversion counter. -/
def PhysTile.bumpConv (t : PhysTile) (k n : Nat) : PhysTile :=
  { t with conv := Tab.store t.conv 0 k (Tab.read t.conv 0 k + n) }

/-- Add a conversion's counts to a tile's counters (R209). -/
def PhysTile.countConv (t : PhysTile) (cls elem : Nat) (c : Converted) : PhysTile :=
  let k := formatSlot elem
  ((t.bumpConv (convKey cls k 0) c.sats).bumpConv (convKey cls k 1) c.vans).bumpConv (convKey cls k 2) c.total

/-- R216: table words with a parity error that draws have read are recomputed; each counts as a correctable
error of the take. -/
def State.repairWords (s : State) (p : Nat) (used : List Nat) : State × Status :=
  let t := s.pt p
  let hit := t.parityErrors.filter (fun w => used.contains w)
  if hit.isEmpty then (s, .ok)
  else
    let u := s.setPt p { t with parityErrors := t.parityErrors.filter (fun w => !(used.contains w)) }
    ({ u with take := { u.take with correctable := u.take.correctable + hit.length } }, .eccRecovered)

/-- R216 for the draws of a stream at element indices under the tile's step counter. -/
def State.repairParity (s : State) (l p stream : Nat) (drawn : List Nat) : State × Status :=
  if (s.pt p).parityErrors.isEmpty then (s, .ok)
  else s.repairWords p (drawn.flatMap (fun i =>
    let ab := drawIndices s.seed stream (s.lt l).stepCtr i
    [ab.1, ab.2]))

/-- The largest finite magnitude of exact intermediates (R94, R204, R205). -/
def amaxOf (vals : List Val) : Val := vals.foldl maxFinite Val.zero

/-- The FP32 value that a delivery carries: the nearest one, and for a magnitude beyond the range of FP32 its largest or
smallest one, so that a finite magnitude stays finite and none but zero becomes zero (R204; log 17). -/
def deliveredValue (a : Val) : F32 :=
  let r := roundF32 a
  if !(f32Val r).isFinite then 0x7F7FFFFF else if (f32Val r).isZero && !a.isZero then 1 else r

/-- Deliver the largest finite magnitude of some values to a delayed entry for the step of a logical tile (R199, R204).
With no finite value nothing is delivered. -/
def State.deliver (s : State) (l id elem : Nat) (vals : List Val) : State :=
  if id < 0x800 && vals.any Val.isFinite then
    { s with steps := { s.steps with
        deliveries := s.steps.deliveries ++ [(s.stepOf l, id, deliveredValue (amaxOf vals), elem)],
        shown := Tab.put s.steps.shown id elem } }
  else s

/-- R205: σ of an exact entry from the exact intermediates. -/
def exactSigma (elem : Nat) (vals : List Val) : Int :=
  match fmtOf elem with
  | none => 0
  | some f =>
    let a := amaxOf vals
    if a.isZero then 0 else clampInt (-127) 127 (floorLog2Quot f.maxVal a)

/-- A class-2 saturation of a step (R206); after the step's skip verdict it counts in LATE_SATURATIONS too (R208). -/
def State.noteSaturation (s : State) (l cls sats : Nat) : State :=
  let c := s.stepOf l
  if cls = 2 && decide (0 < sats) then
    let t := { s with steps := { s.steps with saturated := insertOnce s.steps.saturated c } }
    if (Tab.look s.steps.skips c).isSome then t.addObj Obj.lateSaturations 32 sats else t
  else s

/-- What a converted write did. -/
structure WriteRes where
  s : State
  status : Status
  sats : Nat
  deriving DecidableEq, Repr

/-- R86 to R94, R204, R205, R209: convert the exact values of every stored element of a destination and write them,
with TENSOR_CLASS `cls`, ROUND `round` and STREAM `stream`, under the version `ahead` steps on. DESIGN CHOICE (log 191):
where the scale array of an MX destination overlaps its own elements, which no check of R100 excludes, the elements are
written first and the scale bytes last. -/
def State.writeVals (s : State) (l p : Nat) (d : Desc) (cls round stream ahead : Nat) (vals : List Val) : WriteRes :=
  let sg := if scaleExact d.scaleId then exactSigma d.elemType vals else s.sigmaOf l d true ahead
  let c := d.convertAll sg round (s.rlow l p stream) vals
  let w := s.spaceWriteAll p d.space (c.rows ++ c.scales)
  let q := w.1.repairParity l p stream c.drawn
  let t := q.1.setPt p ((q.1.pt p).countConv cls d.elemType c)
  let u := if scaleExact d.scaleId
    then { t with steps := { t.steps with exact := Tab.store t.steps.exact 0 d.scaleId sg } } else t
  { s := (u.deliver l d.scaleId d.elemType vals).noteSaturation l cls c.sats,
    status := worseEcc w.2 q.2, sats := c.sats }

/-- One element of a destination that is written alone: its place in storage order, its element index (R99), its
exact value. -/
structure Piece where
  place : Nat
  index : Nat
  val : Val
  deriving DecidableEq, Repr

/-- The outcome of conversions as counts (R209). -/
def convCounts (cv : List Conv) : Converted :=
  { rows := [], scales := [], total := cv.length, sats := (cv.filter (fun c => c.sat)).length,
    vans := (cv.filter (fun c => c.van)).length, drawn := [] }

/-- R86 to R92 for some elements of a destination that is not block-scaled; the others keep their bits. -/
def State.writeSome (s : State) (l p : Nat) (d : Desc) (cls round stream ahead : Nat) (pieces : List Piece) : WriteRes :=
  match fmtOf d.elemType with
  | none => { s := s, status := .ok, sats := 0 }
  | some f =>
    let sg := s.sigmaOf l d true ahead
    let cv := pieces.map (fun c =>
      (c, f.convert round (if round = 1 then s.rlow l p stream c.index else 0) (c.val.scale sg)))
    let codes := cv.foldl (fun (a : Array Nat) c => a.setIfInBounds c.1.place c.2.code) (s.codes p d).toArray
    let w := s.spaceWriteAll p d.space (d.writeRows codes.toList)
    let q := w.1.repairParity l p stream ((cv.filter (fun c => c.2.drew)).map (fun c => c.1.index))
    let n := convCounts (cv.map (fun c => c.2))
    let t := q.1.setPt p ((q.1.pt p).countConv cls d.elemType n)
    { s := (t.deliver l d.scaleId d.elemType (pieces.map (fun c => c.val))).noteSaturation l cls n.sats,
      status := worseEcc w.2 q.2, sats := n.sats }

/-- Write the bits of every stored element of a raw destination (R84, R86). -/
def State.writeCodes (s : State) (p : Nat) (d : Desc) (codes : List Nat) : State × Status :=
  s.spaceWriteAll p d.space (d.writeRows codes)

/-- R75: the destination of a command that failed after it began holds free values (log 4). -/
def State.smear (s : State) (p : Nat) (d : Desc) : State :=
  let n := listProd d.storedDims
  let codes := (List.range n).map (fun i => (Config.freeValue (s.free + i)).toNat % 2 ^ elemBits d.elemType)
  let scales := (List.range d.scaleBytes).map (fun i => (Config.freeValue (s.free + n + i)).setWidth 8)
  let rows := d.writeRows codes ++ (if scales.isEmpty then [] else [(d.scaleBase, scales)])
  ({ s with free := s.free + n + d.scaleBytes }.spaceWriteAll p d.space rows).1

/-- The shape of a descriptor: its RANK and sizes. -/
def Desc.sameShape (a b : Desc) : Bool := a.rank == b.rank && a.size == b.size

/-- A dense tensor of one type, RANK and sizes below RANK. -/
def Desc.isForm (d : Desc) (elem : Nat) (sizes : List Nat) : Bool :=
  d.elemType == elem && d.layout == 0 && d.rank == sizes.length && (List.range sizes.length).all (fun i =>
    d.size.getD i 0 == sizes.getD i 0)

end Sys2Proof.Machine
end

