-- ==== Sys2Proof/Machine/Governor.lean ====
section
/-!
DEFINITION. The take governor: remaining reserved cycles of a logical tile, the forecast and the choice of the
shedding level (R46 to R48, R410).
-/

namespace Sys2Proof.Machine

open Sys2Proof

/-! ## Cue entries (R37) -/

/-- POSITION of a cue entry. -/
def cuePosition (c : BitVec 128) : Nat := bitsOf c.toNat 31 0

/-- ACTION. -/
def cueAction (c : BitVec 128) : Nat := bitsOf c.toNat 39 32

/-- MANDATORY. -/
def cueMandatory (c : BitVec 128) : Bool := bitAt c.toNat 40

/-- PHASE. -/
def cuePhase (c : BitVec 128) : Nat := bitsOf c.toNat 55 48

/-- FIRST_TILE. -/
def cueFirst (c : BitVec 128) : Nat := bitsOf c.toNat 79 64

/-- TILE_COUNT. -/
def cueCount (c : BitVec 128) : Nat := bitsOf c.toNat 95 80

/-- ARGUMENT. -/
def cueArgument (c : BitVec 128) : Nat := bitsOf c.toNat 127 96

/-- A logical tile lies in the range of a cue. -/
def cueCovers (c : BitVec 128) (l : Nat) : Bool := decide (cueFirst c ≤ l ∧ l < cueFirst c + cueCount c)

/-! ## Reel tables in HBM (R58, R443) -/

/-- The phase entry of a phase code. -/
def Reel.phaseIndex (r : Reel) (code : Nat) : Option Nat := r.phases.findIdx? (fun e => e.code == code)

/-- OFFSET and RECORD_COUNT of the stream of logical tile `l` and phase entry `j`. -/
def Reel.stream (r : Reel) (l j : Nat) : Nat × Nat := r.streams.getD (l * r.phases.length + j) (0, 0)

/-- Records of the streams ahead of a stream entry. -/
def Reel.recordsBefore (r : Reel) (l j : Nat) : Nat :=
  listSum ((r.streams.take (l * r.phases.length + j)).map (fun e => e.2))

/-- The reserved cycles of one record at a shedding level, from the table that the loader kept (R443, log 163). -/
def Reel.reserved (r : Reel) (l j idx level : Nat) : Nat :=
  bitsOf (r.reservations.getD (r.recordsBefore l j + idx) 0).toNat (32 * level + 31) (32 * level)

/-- The reserved cycles of several records. -/
def Reel.reservedAll (r : Reel) (l level : Nat) (cmds : List (Nat × Nat)) : Nat :=
  listSum (cmds.map (fun c => r.reserved l c.1 c.2 level))

/-! ## The forecast (R47) -/

/-- Records that the started streams of a logical tile have still to deliver, as phase entry and index. -/
def LogTile.unfetched (t : LogTile) : List (Nat × Nat) :=
  t.streams.flatMap (fun x => (List.range (x.count - x.next)).map (fun i => (x.phase, x.next + i)))

/-- The queue entries and repeated commands that are not yet completed and are no replay of completed work. -/
def LogTile.outstanding (t : LogTile) : List (Nat × Nat) :=
  (t.queue.filterMap (fun e => if e.isReplay && ((t.hist[e.pos]?).bind (fun h => h.status)).isSome then none
    else (t.hist[e.pos]?).map (fun h => (h.phase, h.idx)))) ++
  ((t.replays.filter (fun h => h.status.isNone)).map (fun h => (h.phase, h.idx)))

/-- Replays of work that had completed, still to run (R410). -/
def LogTile.replayWork (t : LogTile) : List (Nat × Nat) :=
  (t.queue.filterMap (fun e => if e.isReplay && ((t.hist[e.pos]?).bind (fun h => h.status)).isSome
    then (t.hist[e.pos]?).map (fun h => (h.phase, h.idx)) else none)) ++
  ((t.replays.filter (fun h => h.status.isSome)).map (fun h => (h.phase, h.idx)))

/-- Replay cycles of a phase entry beyond its remaining slack (R410). -/
def State.replayExcess (s : State) (r : Reel) (l level j : Nat) : Nat :=
  let t := s.lt l
  let work := r.reservedAll l level (t.replayWork.filter (fun c => c.1 == j))
  let slack := ((r.phases[j]?).map (fun e => e.slack)).getD 0
  work - (slack - Tab.read t.slackUsed 0 j)

/-- The armed cues of the active reel, or those of the reel whose activation is not finished, the held ones with them
(R60; log 154). -/
def State.cuesOf (s : State) (ofNew : Bool) : List ArmedCue :=
  s.take.cues.filter (fun a => a.ofNewReel == ofNew) ++ (if ofNew then s.take.heldCues else [])

/-- The phases of a reel whose START_PHASE cues for a logical tile are armed and have not started their streams. -/
def State.armedPhases (s : State) (r : Reel) (ofNew : Bool) (l : Nat) : List Nat :=
  (((s.cuesOf ofNew).filter (fun a => cueAction a.entry == 1 && cueCovers a.entry l)).filterMap
    (fun a => r.phaseIndex (cuePhase a.entry))).eraseDups

/-- The reserved cycles of the whole streams of those phases. -/
def State.armedCycles (s : State) (r : Reel) (ofNew : Bool) (l level : Nat) : Nat :=
  listSum ((s.armedPhases r ofNew l).map (fun j =>
    r.reservedAll l level ((List.range (r.stream l j).2).map (fun i => (j, i)))))

/-- What the active reel still needs of a logical tile: commands not completed, streams armed, replays beyond slack. -/
def State.remainingOf (s : State) (r : Reel) (l level : Nat) : Nat :=
  let t := s.lt l
  r.reservedAll l level (t.outstanding ++ t.unfetched) + s.armedCycles r false l level +
    listSum ((List.range r.phases.length).map (fun j => s.replayExcess r l level j))

/-- R_i of R47 with R410: remaining reserved cycles of a logical tile at a level, of the active reel and of a reel whose
activation is not finished. -/
def State.remaining (s : State) (l level : Nat) : Nat :=
  (match s.reels.active with
    | some r => s.remainingOf r l level
    | none => 0) +
  (match s.reels.activating with
    | some r => s.armedCycles r true l level
    | none => 0)

/-- The present ACLK of a logical tile in MHz: droop-adaptive and at most 3.6 GHz, so free within that bound (R55, log
136). -/
def State.aclkOf (s : State) (l : Nat) : Nat := Config.aclk s.time.tb l % 3600 + 1

/-- The time that a logical tile still needs, in wafers, 16.16 rounded up (log 132). -/
def State.needWafers (s : State) (l level : Nat) : Nat :=
  ceilDiv (s.remaining l level * 3600 * 2 ^ 16) (s.aclkOf l * s.time.period)

/-- The logical tiles that a forecast looks at. -/
def State.forecastTiles (s : State) : Nat :=
  max s.budget (match s.reels.activating with
    | some r => r.tileBudget
    | none => 0)

/-- F(ℓ) of R47, 16.16. -/
def State.forecastAt (s : State) (level : Nat) : Nat :=
  s.position + listMax 0 ((List.range s.forecastTiles).map (fun l => s.needWafers l level))

/-- The levels the governor may choose from, ascending. -/
def State.levelRange (s : State) : List Nat :=
  let lo := max (s.obj Obj.shedLevel) (s.governs Obj.shedFloor)
  (List.range (s.governs Obj.shedCeiling + 1)).filter (fun x => decide (lo ≤ x))

/-- The smallest level with F(ℓ) ≤ DL. -/
def State.choice (s : State) : Option Nat :=
  s.levelRange.find? (fun x => decide ((s.forecastAt x : Int) ≤ s.deadline))

/-- R47: evaluate the forecast. Within a take the level never falls. -/
def State.forecast (s : State) : State :=
  if !s.takeOpen then s
  else
    let present := s.obj Obj.shedLevel
    let c := s.choice
    let level := max present (c.getD (s.governs Obj.shedCeiling))
    let missed := match c with
      | none => { s with take := { s.take with forecastMiss := true } }.event 0x067 (unitOf 0xE 0) .ok 0
      | some _ => s
    let t := missed.setObj Obj.shedLevel level
    let f := t.forecastAt level
    { t.setObj Obj.forecast (min f (2 ^ 32 - 1)) with
      take := { t.take with margin := some (t.deadline - (f : Int)) } }

end Sys2Proof.Machine
end

