-- ==== Sys2Proof/Machine/Queue.lean ====
section
/-!
DEFINITION. The command queue of a logical tile: fetching, the ordering conditions, the tests that come first when a
command starts, and completion (R61 to R66, R74, R75, R128, R129, R180, R181, R409 to R411).
-/

namespace Sys2Proof.Machine

open Sys2Proof

/-- The units of R63; the copy engine and the fold engine are one block (R55, log 19). -/
inductive TileUnit where
  | copy | array | drain | vector | mask | rand | sync | fabric
  deriving DecidableEq, Repr

/-- The unit that runs an opcode. An unlisted opcode completes with MALFORMED at the sync port (log 20). -/
def opUnit (op : Nat) : TileUnit :=
  if op = opMove ∨ op = opFold then .copy
  else if op = opMma ∨ op = opSmma then .array
  else if op = opDrain then .drain
  else if op = opVec ∨ op = opRoute then .vector
  else if op = opTrim ∨ op = opTipin ∨ op = opScan ∨ op = opCheck then .mask
  else if op = opRand then .rand
  else if op = opPut ∨ op = opGet ∨ op = opAcc then .fabric
  else .sync

/-- The number of a record. -/
def QEntry.x (e : QEntry) : Nat := e.record.toNat

/-- Whether two commands use a unit in common; SCAN uses the array and the mask unit, and SIGNAL of KIND 1 and 2
passes through the fabric port (R63, R291). -/
def shareUnit (a b : Nat) : Bool :=
  let viaFabric (x : Nat) : Bool := recOpcode x == opSignal && (bitsOf x 67 64 == 1 || bitsOf x 67 64 == 2)
  opUnit (recOpcode a) == opUnit (recOpcode b) ||
    (recOpcode a == opScan && opUnit (recOpcode b) == .array) ||
    (recOpcode b == opScan && opUnit (recOpcode a) == .array) ||
    (viaFabric a && opUnit (recOpcode b) == .fabric) || (viaFabric b && opUnit (recOpcode a) == .fabric)

/-- A remote operation that has been issued no longer holds its unit (R291); a WAIT and a DISPATCH do until they
complete. -/
def QEntry.holdsUnit (e : QEntry) : Bool := e.st != .issued || recOpcode e.x == opWait || recOpcode e.x == opRoute

/-- R62: the ordering conditions of a command, given the entries ahead of it. -/
def orderOk (before : List QEntry) (e : QEntry) : Bool :=
  before.all (fun b => recOpcode b.x != opWait) && (!(recFence e.x) || before.isEmpty) &&
    before.all (fun b => !(b.holdsUnit && shareUnit b.x e.x)) &&
    (match recSlot e.x with
      | none => true
      | some k => before.all (fun b => recSlot b.x != some k))

/-- The entries ahead of an entry. -/
def LogTile.before (t : LogTile) (e : QEntry) : List QEntry := t.queue.takeWhile (fun b => b.id != e.id)

/-- A physical tile works: it is neither fenced nor asleep, and the part is not in Standby, entering or leaving it (R375,
R381, R383). -/
def State.tileWorks (s : State) (p : Nat) : Bool :=
  !(s.pt p).fenced && !(s.pt p).sleeping && decide (s.obj Obj.deviceState = 0)

/-- The entry that one of a row's commands can start with now: the first queued entry of the row, if the ordering
conditions hold, the tile is placed and works, and its issue is not stopped for a replay. -/
def State.startable (s : State) (l : Nat) (mine : Nat → Bool) : Option (Nat × QEntry) :=
  let t := s.lt l
  match t.phys, t.queue.find? (fun e => e.st == .queued && mine e.x) with
  | some p, some e =>
    if s.tileWorks p && t.replayPending.isNone && orderOk (t.before e) e then some (p, e) else none
  | _, _ => none

/-! ## The tests that come first (R64, R66) -/

/-- R181: a replayed command whose effect was applied before the fence and must not be repeated. -/
def appliedBefore (e : QEntry) : Option Status :=
  if recOpcode e.x = opSignal ∨ recOpcode e.x = opPut ∨ recOpcode e.x = opAcc then e.applied else none

/-- The policy class of a mask command (R149). -/
def policyClass (x : Nat) : Nat := bitsOf x 231 228

/-- INFER and PUBLISH are never shed (R50); a command's phase is its PHASE field (log 155). -/
def neverShed (x : Nat) : Bool := recPhase x == 1 || recPhase x == 2

/-- R49, R50, R64, R139: what the shedding tests answer. -/
def State.shedStatus (s : State) (l x : Nat) : Option Status :=
  let op := recOpcode x
  if neverShed x then (if recShed x = 2 then some .zeroWork else none)
  else if (op = opScan ∨ op = opTipin) ∧ 1 ≤ s.obj Obj.shedLevel then some .shed
  else if recShed x = 1 ∧ (s.lt l).stepLevel = 3 then some .shed
  else if recShed x = 2 ∧ (s.lt l).stepLevel < 3 then some .zeroWork
  else none

/-- The operand whose SIZE1 is the token count T of a ROUTE: SCORES of a SELECT, ASSIGN of a DISPATCH or COMBINE (R230). -/
def routeTokens (x : Nat) : Option Nat :=
  let lo := if bitsOf x 65 64 = 0 then 80 else 112
  if hasOp x lo && decide (bitsOf x 65 64 ≤ 2) then some (recOp x lo) else none

/-- R231: a ROUTE with CAPACITY, EXPERT_COUNT or T at 0 is zero work ahead of its field checks. -/
def State.routeZero (s : State) (p x : Nat) : Bool :=
  let empty (i : Nat) : Bool := (s.desc p i).headOk && (s.desc p i).rank == 2 && (s.desc p i).sz 1 == 0
  recOpcode x == opRoute && (recOp x 144 == 0 || bitsOf x 184 172 == 0 || (routeTokens x).any empty)

/-- The status with which a command completes before any class test, if it does. -/
def State.preStatus (s : State) (l : Nat) (e : QEntry) : Option Status :=
  let p := (s.lt l).phys.getD 0
  match appliedBefore e, s.shedStatus l e.x with
  | some st, _ => some st
  | none, some st => some st
  | none, none =>
    if s.routeZero p e.x then some .zeroWork
    else if recordOk e.x && streamOk (s.desc p) e.x then none else some .malformed

/-! ## Waiting at the start (R200, R208, R214) -/

/-- The operand fields of a command, each with whether the command writes it. -/
def operandFields (x : Nat) : List (Nat × Bool) :=
  let op := recOpcode x
  let all : List (Nat × Bool) :=
    if op = opMove ∨ op = opFold then [(64, false), (80, true)]
    else if op = opMma ∨ op = opSmma then [(64, false), (80, false)]
    else if op = opDrain then [(80, true), (112, false)]
    else if op = opVec then [(80, false), (96, false), (112, false), (128, true), (144, true)]
    else if op = opTipin then [(64, true)]
    else if op = opScan then [(112, false), (128, false)]
    else if op = opRoute then [(80, false), (96, false), (128, true)]
    else if op = opRand then [(64, true)]
    else []
  all.filter (fun f => hasOp x f.1)

/-- An update drain (FUNC 0x10 or 0x11). -/
def isUpdate (x : Nat) : Bool := recOpcode x == opDrain && (recFunc x == 0x10 || recFunc x == 0x11)

/-- Whether an update drain of the same step and tensor stands ahead of a command: its DST lies inside the extent of
the command's W (R200; log 21). -/
def State.afterUpdate (s : State) (l p pos x : Nat) : Bool :=
  let w := s.desc p (recOp x 64)
  (((s.lt l).hist.take pos).reverse.takeWhile (fun h => !(recStepEnd h.record.toNat))).any (fun h =>
    isUpdate h.record.toNat &&
      (let d := s.desc p (recOp h.record.toNat 80)
       d.space == 0 && decide (w.base ≤ d.base ∧ d.base < w.base + w.extentBytes)))

/-- How many steps after its own a command converts with: 1 for an update drain and for a TIPIN after the update
drains of its tensor, 0 otherwise (R200). -/
def State.versionAhead (s : State) (l p pos x : Nat) : Nat :=
  if isUpdate x || (recOpcode x == opTipin && s.afterUpdate l p pos x) then 1 else 0

/-- Every version that a command reads exists (R200). -/
def State.versionsExist (s : State) (l p pos x : Nat) : Bool :=
  (operandFields x).all (fun f => s.scaleReady l (s.desc p (recOp x f.1)) f.2
    (if f.2 then s.versionAhead l p pos x else 0)) &&
    (!(isUpdate x) || (s.versionFor l 0).isSome)

/-- R208: an update drain waits for the skip verdict of its step. A step that became final without one has none to wait for
when a replay returns to it. -/
def State.verdictFormed (s : State) (l x : Nat) : Bool :=
  !(isUpdate x && s.governs Obj.saturationAction == 1) || (Tab.look s.steps.skips (s.stepOf l)).isSome ||
    decide (0 < s.stepOf l ∧ s.stepOf l < s.steps.nextFinal)

/-- A MOVE has an operand in the host activation store. -/
def moveHost (a b : Desc) : Bool := a.space == 2 || b.space == 2

/-- A command that issues DMA waits while the function is in D3hot (R306). -/
def State.dmaWaits (s : State) (p x : Nat) : Bool :=
  s.host.d3hot && recOpcode x == opMove && moveHost (s.desc p (recOp x 64)) (s.desc p (recOp x 80))

/-- Nothing keeps the command waiting at its start. -/
def State.canStart (s : State) (l p : Nat) (e : QEntry) : Bool :=
  !(s.mayDraw l p e.x && (s.pt p).filling) && s.versionsExist l p e.pos e.x && s.verdictFormed l e.x &&
    !(s.dmaWaits p e.x)

/-! ## Completion (R74, R75) -/

/-- What running a command did, before its completion. -/
structure Done where
  s : State
  status : Status
  count0 : Nat
  count1 : Nat
  rejected : Nat                 -- quire bits rejected (R128)
  oor : Nat                      -- out-of-range indices (R129)
  noted : Bool := false          -- its failure has its event already (R246; log 156)
  report : Option (Nat × Nat) := none  -- present positions and NPOS, of a TRIM or TIPIN (R150)
  deriving DecidableEq, Repr

/-- A command that only completes. -/
def Done.only (s : State) (st : Status) : Done := { s := s, status := st, count0 := 0, count1 := 0, rejected := 0, oor := 0 }

/-- FROM_POLICY of a TRIM or TIPIN. -/
def fromPolicy (x : Nat) : Bool := bitAt x 176

/-- R150: a FROM_POLICY command that completes with OK or QUIRE_VIOLATION reports its tensor; a later report of a
TENSOR_ID replaces its earlier one. -/
def State.reportMask (s : State) (x : Nat) (d : Done) : State :=
  match d.report with
  | none => s
  | some r =>
    if fromPolicy x && (d.status == .ok || d.status == .quireViolation) then
      let id := bitsOf x 231 216
      { s with take := { s.take with
          maskReports := s.take.maskReports.filter (fun q => q.1 != id) ++ [(id, r.1, r.2)],
          trimRan := s.take.trimRan || recOpcode x == opTrim,
          tipinRan := if recOpcode x = opTipin then insertOnce s.take.tipinRan (policyClass x) else s.take.tipinRan } }
    else s

/-- The bits of a completion record (R74). -/
def completionRecord (x st l p cycles c0 c1 take tb : Nat) : BitVec 256 :=
  BitVec.ofNat 256 (recSeq x + recOpcode x <<< 16 + st <<< 24 + (l % 2 ^ 16) <<< 32 + (p % 2 ^ 16) <<< 48 +
    (min cycles (2 ^ 32 - 1)) <<< 64 + (c0 % 2 ^ 32) <<< 96 + (c1 % 2 ^ 32) <<< 128 + (take % 2 ^ 32) <<< 160 +
    (tb % 2 ^ 64) <<< 192)

/-- Write a completion record at WRITE_INDEX mod 256 (R74). -/
def LogTile.writeRecord (t : LogTile) (r : BitVec 256) : LogTile :=
  { t with ring := Tab.put t.ring (t.writeIndex % 256) r, writeIndex := (t.writeIndex + 1) % 2 ^ 32 }

/-- Whether a completion record is written (R66). -/
def recordWanted (x : Nat) (st : Status) : Bool :=
  recCr x || !(st == .ok || st == .zeroWork || st == .eccRecovered)

/-- The statuses of R75. -/
def raisesG6 (st : Status) : Bool :=
  st == .malformed || st == .outOfRange || st == .absentUnit || st == .eccLost || st == .isolated || st == .waitTimeout

/-- R75: the event of a failed command. -/
def State.commandEvent (s : State) (l x : Nat) (st : Status) : State :=
  if raisesG6 st then s.event 0x0C0 (unitOf 1 l) st (recOpcode x * 0x10000 + recSeq x) else s

/-- The event of a failed command, unless it has had its one event already. -/
def State.doneEvent (s : State) (l x : Nat) (d : Done) : State := if d.noted then s else s.commandEvent l x d.status

/-- R128, R129: count rejected bits and out-of-range indices on the tile and raise one event for each kind. -/
def State.countFindings (s : State) (l p rejected oor : Nat) : State :=
  let t := s.pt p
  let s1 := if rejected = 0 then s
    else (s.setPt p { t with quireViolations := (t.quireViolations + rejected) % 2 ^ 32 }).event 0x0A0 (unitOf 1 l)
      .quireViolation rejected
  if oor = 0 then s1
  else (s1.setPt p { s1.pt p with indexOor := ((s1.pt p).indexOor + oor) % 2 ^ 32 }).event 0x0A1 (unitOf 1 l) .ok oor

/-- Put the status of a completion on a command's place in the history. -/
def setHistStatus (h : List HistEntry) (pos : Nat) (st : Option Status) : List HistEntry :=
  h.modify pos (fun e => { e with status := st, done := true })

/-- R180: commands issue in queue order up to the first WAIT (R62); the step counter at the first issue is kept. -/
def LogTile.issue (t : LogTile) : LogTile :=
  let open_ := t.queue.takeWhile (fun e => recOpcode e.x != opWait)
  let n := open_.length + 1
  { t with hist := (t.queue.take n).foldl (fun h e =>
      h.modify e.pos (fun a => if a.step.isNone then { a with step := some t.stepCtr } else a)) t.hist }

/-- Every command of the tile in queue order: those fetched, then those to fetch again. -/
def LogTile.full (t : LogTile) : List HistEntry := t.hist ++ t.replays

/-- The latest restart mark at or before a place of the history (R57, R409). -/
def LogTile.markBefore (t : LogTile) (pos : Nat) : Option Nat :=
  ((List.range (min (pos + 1) t.full.length)).filter (fun i =>
    match t.full[i]? with
    | some h => recMark h.record.toNat
    | none => false)).getLast?

/-- Whether a started stream has records still to deliver. -/
def LogTile.moreToFetch (t : LogTile) : Bool := t.streams.any (fun x => decide (x.next < x.count))

/-- The place in queue order of the earliest command that has not completed: a command known already, or the next one
that a started stream will deliver. -/
def LogTile.earliest (t : LogTile) : Option Nat :=
  match t.full.findIdx? (fun h => !h.done) with
  | some i => some i
  | none => if t.moreToFetch then some t.full.length else none

/-- R57, R180: make the tile fetch its commands from a place of the history again; those up to `upTo`, the earliest one that
had not completed at the fault, are replays. -/
def LogTile.restartFrom (t : LogTile) (mark : Nat) (upTo : Option Nat) : LogTile :=
  { t with queue := [], run := none, staged := none, ops := [], replayPending := none, restartAt := none,
           replays := (t.full.drop mark).map (fun h => { h with done := false }), hist := t.full.take mark,
           replayTo := upTo, inPlace := false,
           stepCtr := ((t.full[mark]?).bind (fun h => h.step)).getD t.stepCtr }

/-- R180: a command that is fetched again is a replay if it completed before, or stands no later than the earliest one
that had not completed at the fault. -/
def LogTile.replayAt (t : LogTile) (h : HistEntry) (pos : Nat) : Bool :=
  h.status.isSome ||
    (match t.replayTo with
    | some k => decide (pos ≤ k)
    | none => true)

/-- R409: what a completion with ECC_LOST starts: a replay in place, which the fault then waits for, or, when there is no
mark, or the command has had its replay in the take or is itself a command of one, the failure of R411. A replay in place
that fails masks no fault any more. -/
def State.onEccLost (s : State) (l : Nat) (e : QEntry) : State :=
  let t := s.lt l
  let inPlace := e.isReplay && t.inPlace
  let again := inPlace || s.take.replayedInPlace.contains (l, e.pos)
  let s1 := { s with take := { s.take with replayedInPlace := insertOnce s.take.replayedInPlace (l, e.pos) } }
  match t.markBefore e.pos with
  | some m =>
    if again then
      (s1.setLt l { t with eccFaults := if inPlace then [] else t.eccFaults.filter (fun f => f.1 != e.pos) }).failTake
    else s1.setLt l { t with
      eccFaults := t.eccFaults.filter (fun f => f.1 != e.pos) ++ [(e.pos, s.faultTake)],
      replayPending := some (match t.replayPending with
        | some k => min k m
        | none => m) }
  | none => s.failTake

/-- R408, R409: a replay has completed a command that ended with ECC_LOST before: its fault is masked, and counted in the
take of its detection. -/
def State.maskEcc (s : State) (l : Nat) (e : QEntry) : State :=
  let t := s.lt l
  match t.eccFaults.find? (fun f => e.isReplay && f.1 == e.pos) with
  | some f => (s.setLt l { t with eccFaults := t.eccFaults.filter (fun g => g.1 != e.pos) }).countFaultOf f.2
  | none => s

/-- What a completed status does to the take's answers, with R409 for ECC_LOST. -/
def State.judge (s : State) (l : Nat) (e : QEntry) (st : Status) : State :=
  if st = .eccLost then s.onEccLost l e else (if st = .isolated then s else s.maskEcc l e).failOn st

/-- Count the cycles of a completed command: toward its phase (R65) and, in a replay, toward the slack (R410). -/
def LogTile.countCycles (t : LogTile) (e : QEntry) (cycles : Nat) : LogTile :=
  let j := ((t.hist[e.pos]?).map (fun h => h.phase)).getD 0
  let c := recPhase e.x
  { t with phaseCycles := Tab.store t.phaseCycles 0 c (Tab.read t.phaseCycles 0 c + cycles),
           completed := t.completed + 1,
           slackUsed := if e.isReplay then Tab.store t.slackUsed 0 j (Tab.read t.slackUsed 0 j + cycles)
             else t.slackUsed }

/-- STEP_END: the step counter increments and the step level is latched (R50, R72). -/
def LogTile.endStep (t : LogTile) (x level : Nat) : LogTile :=
  if recStepEnd x then { t with stepCtr := (t.stepCtr + 1) % 2 ^ 32, stepLevel := level } else t

/-- A replay has ended: no repeated command is queued or waits to be fetched (R410). What is still to be fetched beyond the
last replay had been fetched before the fault and not completed. -/
def LogTile.replayOver (t : LogTile) : Bool :=
  (t.replays.zipIdx t.hist.length).all (fun q => !(t.replayAt q.1 q.2)) && t.queue.all (fun e => !e.isReplay)

/-- The wrapper of the networks that hold a logical tile's SN hub is closed (R268, R375). -/
def State.hubDown (s : State) (l : Nat) : Bool :=
  match (s.lt l).phys with
  | some p => s.blockDown (.network (tileDie p))
  | none => false

/-- A tile with work is active (R381), and with it the segment of its column, the networks of its die and the lane group
of its row, which its requests may take (R260, log 175). -/
def State.activate (s : State) (p : Nat) : State :=
  let a := if (s.pt p).idle then s.setPt p { s.pt p with idle := false } else s
  ((a.wakeBlock (.segment (tileDie p) (p % 12))).wakeBlock (.network (tileDie p))).wakeBlock (.laneGroup (p % 96 / 12))

/-- Complete a command: count it, write its record, raise its events, judge the answers and free its place. -/
def State.complete (l p cycles : Nat) (e : QEntry) (d : Done) : State :=
  let s := (((d.s.activate p).reportMask e.x d).countFindings l p d.rejected d.oor).doneEvent l e.x d
  let t := s.lt l
  let r := completionRecord e.x (statusCode d.status) l p cycles d.count0 d.count1 (s.obj Obj.lineTakeNumber) s.time.tb
  let t1 := if recordWanted e.x d.status then t.writeRecord r else t
  let s1 := (s.setLt l t1).judge l e d.status
  let t2 := s1.lt l
  let t3 := { (t2.countCycles e cycles).endStep e.x (s1.obj Obj.shedLevel) with
    queue := t2.queue.filter (fun q => q.id != e.id),
    hist := setHistStatus t2.hist e.pos (some d.status),
    run := t2.run.map (fun (m : List Nat) => m.filter (fun i => i != e.id)),
    staged := t2.staged.map (fun (m : List Nat) => m.filter (fun i => i != e.id)) }
  let s2 := s1.setLt l t3.issue
  if e.isReplay && t3.replayOver then s2.forecast else s2

/-! ## Correctable errors (R407) -/

/-- Whether a place lies in one of some ranges. -/
def inRanges (rs : List (Nat × Nat)) (a : Nat) : Bool := rs.any (fun r => decide (r.1 ≤ a ∧ a < r.1 + r.2))

/-- The tile-store bytes that a command reads: the descriptors it names, and, where it works on them, its tensors. -/
def State.storeRead (s : State) (p x : Nat) (works : Bool) : List (Nat × Nat) :=
  (namedDescriptors x).map (fun i => (i * 64, 64)) ++
    (if works then (readDescriptors x).flatMap (fun i => if (s.desc p i).space = 0 then (s.desc p i).pieces else []) else [])

/-- The pairs of the accumulator memory that a command reads: its slot, or all levels of a reproducible one (R187). -/
def State.amRead (s : State) (x : Nat) : List (Nat × Nat) :=
  let repro := ((s.reels.active).map (fun (r : Reel) => r.repro)).getD false
  match recSlot x with
  | none => []
  | some k =>
    if recOpcode x = opDrain ∨ bitAt x 101 then
      (if repro then [(amKey (8 * k) 0 0, 8 * 4096)] else [(amKey k 0 0, 4096)])
    else []

/-- A command that read its operands. -/
def workedStatus (st : Status) : Bool := st == .ok || st == .eccRecovered || st == .quireViolation || st == .eccLost

/-- The correctable errors that a command meets: those of the tile store, then those of the accumulator memory. -/
def State.foundErrors (s : State) (p x : Nat) (works : Bool) : List Nat × List Nat :=
  ((s.pt p).storeErrors.filter (inRanges (s.storeRead p x works)),
   if works then (s.pt p).amErrors.filter (inRanges (s.amRead x)) else [])

/-- R407: found errors are corrected in place, and each counts in CORRECTABLE_ERRORS. -/
def State.correct (s : State) (p : Nat) (found : List Nat × List Nat) : State × Status :=
  if found.1.isEmpty && found.2.isEmpty then (s, .ok)
  else
    let t := s.pt p
    let v := s.setPt p { t with storeErrors := t.storeErrors.filter (fun a => !(found.1.contains a)),
                                amErrors := t.amErrors.filter (fun a => !(found.2.contains a)) }
    ({ v with take := { v.take with correctable := v.take.correctable + found.1.length + found.2.length } }, .eccRecovered)

/-- R407: the correctable errors in some ranges of a tile's store and of its accumulator memory are corrected. -/
def State.correctAt (s : State) (p : Nat) (store am : List (Nat × Nat)) : State × Status :=
  s.correct p ((s.pt p).storeErrors.filter (inRanges store), (s.pt p).amErrors.filter (inRanges am))

/-- R407: a command that met correctable errors in the state `s` of its start, and would end with OK, ends with
ECC_RECOVERED. -/
def Done.heal (s : State) (p x : Nat) (d : Done) : Done :=
  let r := d.s.correct p (s.foundErrors p x (workedStatus d.status))
  { d with s := r.1, status := if d.status = .ok then r.2 else d.status }

/-- A free number of cycles, where the spec states none (log 4). -/
def State.freeCycles (s : State) : Nat := s.freeNow.toNat % 2 ^ 32

/-- Run the next command of a row on its unit: nothing happens while it cannot start; a command that a first test
stops completes at once; otherwise `eff` is its effect. -/
def State.runUnit (s : State) (l cycles : Nat) (mine : Nat → Bool) (eff : State → Nat → Nat → QEntry → Done) : State :=
  match s.startable l mine with
  | none => s
  | some (p, e) =>
    match s.preStatus l e with
    | some st =>
      let s1 := if st = .shed ∧ recOpcode e.x = opTipin ∧ bitAt e.x 176 then
        { s with take := { s.take with tipinShed := insertOnce s.take.tipinShed (policyClass e.x) } } else s
      State.complete l p cycles e (Done.only s1 st)
    | none => if s.canStart l p e then State.complete l p cycles e ((eff s l p e).heal s p e.x) else s

/-! ## Fetching (R61) -/

/-- The record of a stream at an index, read from the reel image in HBM (R61). -/
def State.streamRecord (s : State) (r : Reel) (l j idx : Nat) : BitVec 512 :=
  let a := r.base + (r.stream l j).1 + 64 * idx
  BitVec.ofNat 512 (leNat ((List.range 64).map (fun i => s.hbmByte true (a + i))))

/-- Put one command in the queue. -/
def LogTile.enqueue (t : LogTile) (h : HistEntry) (replay : Bool) : LogTile :=
  let applied := match h.status with
    | some .ok => some Status.ok
    | some .zeroWork => some .zeroWork
    | some .eccRecovered => some .eccRecovered
    | _ => none
  { t with queue := t.queue ++ [{ id := t.nextId, record := h.record, pos := t.hist.length, step := t.stepCtr,
                                  isReplay := replay, applied := if replay then applied else none, sigmas := (0, 0),
                                  st := .queued }],
           nextId := t.nextId + 1, hist := t.hist ++ [h] }


/-- Fetch one record into a free place: repeated commands first, then the started streams in order. -/
def State.fetchNext (s : State) (l : Nat) : State :=
  let t := s.lt l
  if decide (64 ≤ t.queue.length) || t.phys.isNone || t.replayPending.isSome then s
  else match t.replays, t.streams, s.reels.active with
    | h :: hs, _, _ =>
      s.setLt l ({ t with replays := hs }.enqueue h (t.replayAt h t.hist.length)).issue
    | [], x :: xs, some r =>
      if x.next < x.count then
        let a := r.base + (r.stream l x.phase).1 + 64 * x.next
        let s1 := (s.hbmTouch true a 64).1
        let h : HistEntry := { phase := x.phase, idx := x.next, record := s.streamRecord r l x.phase x.next,
                               step := none, status := none, done := false }
        s1.setLt l ({ s1.lt l with streams := { x with next := x.next + 1 } :: xs }.enqueue h false).issue
      else s.setLt l { t with streams := xs }
    | _, _, _ => s

/-- Fetch one record on a tile that works. -/
def State.fetchOne (s : State) (l : Nat) : State := if (s.lt l).phys.any s.tileWorks then s.fetchNext l else s

/-- STREAM_FETCH: fill the free places of the queue in stream order (R61). -/
def State.fetchAll (s : State) (l : Nat) : State := (List.range 128).foldl (fun t _ => t.fetchOne l) s

/-- STREAM_FETCH (R61). -/
def execStreamFetch (tile : Nat) (s : State) : Host.Outcome State Fault Refusal := .next (s.fetchAll tile)

/-- REPLAY_IN_PLACE (R409): once every command running on the tile has completed, the tile replays from its restart
mark. -/
def State.replayInPlace (s : State) (l : Nat) : State :=
  let t := s.lt l
  match t.replayPending with
  | none => s
  | some m =>
    if t.queue.all (fun e => e.st == .queued) && t.ops.isEmpty
    then s.setLt l { t.restartFrom m t.earliest with inPlace := true } else s

/-- REPLAY_IN_PLACE (R409). -/
def execReplayInPlace (tile : Nat) (s : State) : Host.Outcome State Fault Refusal := .next (s.replayInPlace tile)

end Sys2Proof.Machine
end

