-- ==== Sys2Proof/Machine/Accum.lean ====
section
/-!
DEFINITION. The accumulator arithmetic: the pairwise tree (R76, R186), compensated addition (R188), the
reproducible stack (R191 to R194) and the reduction of a round (R196).
-/

namespace Sys2Proof.Machine

open Sys2Proof

/-! ## Trees -/

/-- One level of the pairwise tree: an odd last node passes up unchanged. -/
def treeLevel : List F32 → List F32
  | a :: b :: t => f32Add a b :: treeLevel t
  | l => l

/-- Levels until one node is left. -/
def treeLoop : Nat → List F32 → List F32
  | 0, l => l
  | n + 1, l => if l.length ≤ 1 then l else treeLoop n (treeLevel l)

/-- R76: the fixed pairwise tree of a list, +0 for an empty one. -/
def treeSum (l : List F32) : F32 := (treeLoop (l.length + 1) l).headD 0

/-- R186: the sum of a slice of at most 256 products; positions past its end are +0 (R184). -/
def sliceSum (products : List F32) : F32 := treeSum (products ++ List.replicate (256 - products.length) 0)

/-! ## Compensated addition (R188) -/

/-- An FP32 value is −0. -/
def isNegZero (a : F32) : Bool := a == 0x80000000

/-- R188: the pair of an exact sum; `bothNeg` holds when both value addends are −0. -/
def pairOf (sum : Val) (bothNeg : Bool) : Pair :=
  let s := roundF32 sum
  if !(f32Val s).isFinite then { v := s, e := 0 }
  else if (f32Val s).isZero then { v := if bothNeg then 0x80000000 else 0, e := 0 }
  else
    let e := roundF32 (Val.sub sum (f32Val s))
    { v := s, e := if (f32Val e).isZero then 0 else e }

/-- (v, e) ⊕ (v₂, e₂). -/
def Pair.add (a b : Pair) : Pair :=
  pairOf (Val.add (Val.add (f32Val a.v) (f32Val a.e)) (Val.add (f32Val b.v) (f32Val b.e)))
    (isNegZero a.v && isNegZero b.v)

/-- R189: add one slice sum. -/
def Pair.addSlice (a : Pair) (x : F32) : Pair := a.add { v := x, e := 0 }

/-- fp32(value + error), one rounding (R169). -/
def Pair.sum (a : Pair) : Val := Val.add (f32Val a.v) (f32Val a.e)

/-! ## Reproducible stacks (R191 to R194) -/

/-- Mark a level of a stack occupied or empty. -/
def PhysTile.setLevel (t : PhysTile) (r level : Nat) (on : Bool) : PhysTile :=
  let old := Tab.read t.occupied 0 r
  { t with occupied := Tab.store t.occupied 0 r (setBits old level level (if on then 1 else 0)) }

/-- The physical slot that holds a level of a reproducible slot (R187). -/
def stackSlot (r level : Nat) : Nat := 8 * r + level

/-- Pairwise ⊕ of two slots. -/
def addSlots (a b : List Pair) : List Pair := List.zipWith Pair.add a b

/-- What a level holds at a position whose leaf no slice computed. R188 forms no such pair: a zero error is +0. -/
def Pair.absent : Pair := { v := 0x80000000, e := 0x80000000 }

/-- ⊕ of two levels at one position. Where no leaf stands on one side no addition takes place (R188), and the other passes
through as an absent contribution lets it in R196 (log 23). -/
def Pair.join (a b : Pair) : Pair := if a = Pair.absent then b else if b = Pair.absent then a else a.add b

/-- Position by position ⊕ of two levels of a stack. -/
def joinLevels (a b : List Pair) : List Pair := List.zipWith Pair.join a b

/-- A stack's value at a position: without a leaf it is (+0, +0), as that of an empty stack. -/
def Pair.read (a : Pair) : Pair := if a = Pair.absent then Pair.zero else a

/-- The leaf of a slice at a position, if the slice computes one (R191). -/
def leafPair (x : Option F32) : Pair :=
  match x with
  | some v => { v := v, e := 0 }
  | none => Pair.absent

/-- R191: the binary carry of `y` into N[j] and above. -/
def PhysTile.carry (p r : Nat) : Nat → Nat → List Pair → PhysTile → PhysTile
  | 0, _, _, t => t
  | n + 1, j, y, t =>
    if t.levelOccupied r (j + 1)
    then PhysTile.carry p r n (j + 1) (joinLevels (t.slot p (stackSlot r (j + 1))) y) (t.setLevel r (j + 1) false)
    else (t.setSlot (stackSlot r (j + 1)) y).setLevel r (j + 1) true

/-- R191: insert the leaves of one slice in slot r. -/
def PhysTile.insertLeaf (t : PhysTile) (p r : Nat) (leaf : List (Option F32)) : PhysTile :=
  let t1 := if t.levelOccupied r 0 then PhysTile.carry p r 7 0 (t.slot p (stackSlot r 0)) t else t
  (t1.setSlot (stackSlot r 0) (leaf.map leafPair)).setLevel r 0 true

/-- R191: the value read by DRAIN and by ACC. -/
def PhysTile.collapse (t : PhysTile) (p r : Nat) : List Pair :=
  if !(t.levelOccupied r 0) then List.replicate 4096 Pair.zero
  else ((List.range 7).foldl (fun y j =>
    if t.levelOccupied r (j + 1) then joinLevels (t.slot p (stackSlot r (j + 1))) y else y)
    (t.slot p (stackSlot r 0))).map Pair.read

/-- R192: the leaf count of a slot. -/
def PhysTile.leaves (t : PhysTile) (r : Nat) : Nat :=
  if !(t.levelOccupied r 0) then 0
  else 1 + listSum ((List.range 7).map (fun j => if t.levelOccupied r (j + 1) then 2 ^ j else 0))

/-- Empty all eight levels. -/
def PhysTile.emptyStack (t : PhysTile) (r : Nat) : PhysTile := { t with occupied := Tab.store t.occupied 0 r 0 }

/-- The active reel has REPRO set (R58). -/
def State.repro (s : State) : Bool :=
  match s.reels.active with
  | some r => r.repro
  | none => false

/-- What a slot holds as DRAIN, ACC and a reduction read it (R189, R194). -/
def State.slotValue (s : State) (p slot : Nat) : List Pair :=
  if s.repro then (s.pt p).collapse p slot else (s.pt p).slot p slot

/-- DRAIN's CLEAR (R70, R194): the slot zeroed, or its levels emptied. -/
def State.clearSlot (s : State) (p slot : Nat) : State :=
  if s.repro then s.setPt p ((s.pt p).emptyStack slot)
  else s.setPt p ((s.pt p).setSlot slot (List.replicate 4096 Pair.zero))

/-! ## Reduction of a round (R196) -/

/-- R196 without REPRO: the chain in ascending KSLICE. -/
def chainReduce : List (List Pair) → List Pair
  | [] => []
  | c :: cs => cs.foldl addSlots c

/-- R196 with REPRO: value(lo, 2^n) over contributions given by KSLICE. -/
def valueOf (cs : List (Nat × List Pair)) : Nat → Nat → Option (List Pair)
  | 0, lo => (cs.find? (fun c => c.1 == lo)).map (fun c => c.2)
  | n + 1, lo =>
    if cs.all (fun c => decide (c.1 < lo) || decide (lo + 2 ^ (n + 1) ≤ c.1)) then none
    else match valueOf cs n lo, valueOf cs n (lo + 2 ^ n) with
      | none, b => b
      | a, none => a
      | some a, some b => some (addSlots a b)

end Sys2Proof.Machine
end

