-- ==== Sys2Proof/Machine/Array.lean ====
section
/-!
DEFINITION. The collator and the array: operands of MMA and SMMA (R109 to R118, R185), products and slices
(R183, R184), strips, gather, sampling and quires (R113, R125 to R129), and runs (R121 to R123).
-/

namespace Sys2Proof.Machine

open Sys2Proof

/-! ## Classes (R111) -/

/-- The width class of an element type of the array: 4, 8 or 16; 0 outside R111. -/
def classWidth (t : Nat) : Nat :=
  if t = 0x08 ∨ t = 0x0A ∨ t = 0x18 then 4
  else if t = 0x02 ∨ t = 0x03 then 16
  else if (4 ≤ t ∧ t ≤ 7) ∨ t = 0x09 ∨ (0x14 ≤ t ∧ t ≤ 0x17) ∨ t = 0x19 then 8
  else 0

/-- An integer type: INT8, INT4 and MXINT8 (log 22). -/
def isIntType (t : Nat) : Bool := t == 0x09 || t == 0x0A || t == 0x19

/-- R111: both types are in a class and integers are not mixed with floating point. -/
def classOk (a b : Nat) : Bool := classWidth a != 0 && classWidth b != 0 && isIntType a == isIntType b

/-- The class of a command: that of the wider operand. -/
def classOf (a b : Nat) : Nat := max (classWidth a) (classWidth b)

/-! ## Operands -/

/-- The operands of an MMA or SMMA (R69, R112), with the σ of A and B. -/
structure Product where
  a : Desc
  b : Desc
  sa : Int
  sb : Int
  abmp : Option Desc
  bbmp : Option Desc
  quires : Option Desc
  omask : Option Desc
  gather : Option Desc
  deriving DecidableEq, Repr

/-- An optional operand. -/
def State.optDesc (s : State) (p x lo : Nat) : Option Desc :=
  if hasOp x lo then some (s.desc p (recOp x lo)) else none

/-- The operands that a record names, read under the given σ. -/
def State.product (s : State) (p x : Nat) (sigmas : Int × Int) : Product :=
  { a := s.desc p (recOp x 64), b := s.desc p (recOp x 80), sa := sigmas.1, sb := sigmas.2,
    abmp := s.optDesc p x 112, bbmp := s.optDesc p x 128,
    quires := s.optDesc p x 144, omask := s.optDesc p x 160, gather := s.optDesc p x 192 }

/-- The σ of A and B as a command reads them at its start (R87). -/
def State.productSigmas (s : State) (l p x : Nat) : Int × Int :=
  (s.sigmaOf l (s.desc p (recOp x 64)) false 0, s.sigmaOf l (s.desc p (recOp x 80)) false 0)

/-- K (R109). -/
def Product.k (o : Product) : Nat := o.a.sz 0

/-- N. -/
def Product.n (o : Product) : Nat := o.b.sz 0

/-- M: A's SIZE1, or the number of gathered rows (R109, R112). -/
def Product.m (o : Product) : Nat :=
  match o.gather with
  | some g => g.sz 0
  | none => o.a.sz 1

/-- STRIP. -/
def recStrip (x : Nat) : Bool := bitAt x 102

/-- QMODE of a product. -/
def recQmode (x : Nat) : Nat := bitsOf x 104 103

/-- SAMPLED. -/
def recSampled (x : Nat) : Bool := bitAt x 105

/-- ACC. -/
def recAcc (x : Nat) : Bool := bitAt x 101

/-- M, N or K is 0 (R63), judged on descriptors that pass the first checks of R100. -/
def Product.zeroWork (o : Product) : Bool :=
  o.a.headOk && o.b.headOk && (o.gather.map Desc.headOk).getD true &&
    (decide (o.m = 0) || decide (o.n = 0) || decide (o.k = 0))

/-- An optional operand, where given, passes R100 in the tile store. -/
def State.optFault (s : State) (d : Option Desc) : Option Status :=
  match d with
  | some d => s.descFault d false [0]
  | none => none

/-- R112, R114: the side operands have their forms and are given exactly when their conditions hold. -/
def Product.sidesOk (o : Product) (x : Nat) : Bool :=
  let bitmap (d : Desc) : Bool := d.elemType == 0x0D && d.layout == 0 && d.rank == 1 && decide (o.k ≤ d.sz 0)
  (if recStrip x then (o.abmp.isSome || o.bbmp.isSome) else o.abmp.isNone && o.bbmp.isNone) &&
    (o.abmp.map bitmap).getD true && (o.bbmp.map bitmap).getD true &&
    (o.quires.isSome == decide (recQmode x ≠ 0)) &&
    (o.quires.map (fun d => d.elemType == 0x0C && d.layout == 0 && d.hasSizes [o.n / 4, o.k / 4])).getD true &&
    (o.omask.isSome == recSampled x) &&
    (o.omask.map (fun d => d.layout == 0 && ((d.elemType == 0x0D && d.hasSizes [o.n, o.m]) ||
      (d.elemType == 0x0C && d.hasSizes [o.n / 4, o.m / 4] && o.n % 4 == 0 && o.m % 4 == 0)))).getD true &&
    (o.gather.map (fun d => d.isForm 0x0B [o.m])).getD true

/-- R109, R111, R118, R185. -/
def Product.shapeOk (o : Product) (x : Nat) : Bool :=
  o.a.rank == 2 && o.b.rank == 2 && o.a.layout == 0 && o.b.layout == recQmode x && o.b.sz 1 == o.k &&
    classOk o.a.elemType o.b.elemType && (!(isMxType o.a.elemType) || o.a.blockDim == 0) &&
    (!(isMxType o.b.elemType) || o.b.blockDim == 1)

/-- The number of slices (R183). -/
def Product.slices (o : Product) : Nat := ceilDiv o.k 256

/-- R192: the leaves that a reproducible slot would hold. -/
def State.leavesAfter (s : State) (p x : Nat) (o : Product) : Nat :=
  (if recAcc x then (s.pt p).leaves (bitsOf x 100 96) else 0) + o.slices

/-- R69, R192: M, N and SLOT are in range. -/
def State.productInRange (s : State) (p x : Nat) (o : Product) : Bool :=
  decide (o.m ≤ 64) && decide (o.n ≤ 64) && (!s.repro || (decide (bitsOf x 100 96 ≤ 3) &&
    decide (s.leavesAfter p x o ≤ 128)))

/-- The status of the first check that an MMA or SMMA fails. -/
def State.productFault (s : State) (p x : Nat) (o : Product) : Option Status :=
  firstFault [s.descFault o.a false [0], s.descFault o.b false [0], s.optFault o.abmp, s.optFault o.bbmp,
    s.optFault o.quires, s.optFault o.omask, s.optFault o.gather, need (o.shapeOk x) .malformed,
    need (o.sidesOk x) .malformed, need (s.productInRange p x o) .outOfRange]

/-! ## Strips, gather, marks -/

/-- The surviving bit of every K position (R113); a bitmap that is not given reads as all bits set. -/
def State.alive (s : State) (p : Nat) (o : Product) : List Bool :=
  let bits (d : Option Desc) : List Bool :=
    match d with
    | some d => ((s.codes p d).take o.k).map (fun c => decide (c ≠ 0))
    | none => List.replicate o.k true
  List.zipWith (fun a b => a && b) (bits o.abmp) (bits o.bbmp)

/-- R114: bits set at or beyond K. -/
def State.bitmapOor (s : State) (p : Nat) (o : Product) : Nat :=
  let beyond (d : Option Desc) : Nat :=
    match d with
    | some d => (((s.codes p d).drop o.k).filter (fun c => decide (c ≠ 0))).length
    | none => 0
  beyond o.abmp + beyond o.bbmp

/-- The row of A that each row of the product uses; none for an index out of range (R125). -/
def State.rowsOf (s : State) (p : Nat) (o : Product) : List (Option Nat) :=
  match o.gather with
  | none => (List.range o.m).map some
  | some g => (s.codes p g).map (fun c => if c < o.a.sz 1 then some c else none)

/-- R126: the marks of the outputs. -/
def State.marks (s : State) (p : Nat) (o : Product) : Nat → Nat → Bool :=
  match o.omask with
  | none => fun _ _ => true
  | some d =>
    let arr := (s.codes p d).toArray
    if d.elemType = 0x0D then fun m n => decide (arr.getD (m * o.n + n) 0 ≠ 0)
    else fun m n => bitAt (arr.getD (m / 4 * (o.n / 4) + n / 4) 0) (4 * (m % 4) + n % 4)

/-- The weights of B at k × N + n; none where no weight is present (R127, R184). -/
def State.weights (s : State) (p : Nat) (o : Product) : List (Option Val) :=
  match o.quires with
  | none => (o.b.readVals (s.spaceByte p o.b.space) o.sb).map some
  | some md =>
    let slots := (o.b.readVals (s.spaceByte p o.b.space) o.sb).toArray
    let qs := ((s.codes p md).map (readQuire o.b.layout)).toArray
    let w := o.n / 4
    (List.range (o.k * o.n)).map (fun i =>
      let k := i / o.n
      let n := i % o.n
      let q := qs.getD (k / 4 * w + n / 4) { accepted := [], rejected := 0 }
      (q.slotOf (4 * (k % 4) + n % 4)).map (fun t => slots.getD ((k / 4 * w + n / 4) * o.b.slots + t) Val.zero))

/-- R128: the bits rejected in the quires of B. -/
def State.rejectedBits (s : State) (p : Nat) (o : Product) : Nat :=
  match o.quires with
  | none => 0
  | some md => listSum ((s.codes p md).map (fun c => (readQuire o.b.layout c).rejected))

/-- R122: the command's own surviving K positions. -/
def State.survivors (s : State) (p x : Nat) (o : Product) : Nat :=
  if !(recStrip x) then o.k
  else
    let al := (s.alive p o).toArray
    if recQmode x = 0 then (al.toList.filter id).length
    else 4 * ((List.range (o.k / 4)).filter (fun u => (List.range 4).any (fun i => al.getD (4 * u + i) false))).length

/-! ## Products and slices (R183, R184) -/

/-- The FP32 product at one K position, +0 where nothing is multiplied (R184). -/
def oneProduct (alive : Bool) (a : Option Val) (b : Option Val) : F32 :=
  match alive, a, b with
  | true, some x, some y => roundF32 (Val.mul x y)
  | _, _, _ => 0

/-- The slice sums of output (m, n): `row` is A's row, none when it is out of range. -/
def State.sliceSums (o : Product) (alive : Array Bool) (av : Array Val) (bv : Array (Option Val))
    (row : Option Nat) (n : Nat) : List F32 :=
  (List.range o.slices).map (fun j => sliceSum ((List.range (min 256 (o.k - 256 * j))).map (fun i =>
    let k := 256 * j + i
    oneProduct (alive.getD k true) (row.map (fun r => av.getD (r * o.k + k) Val.zero)) (bv.getD (k * o.n + n) none))))

/-- What each slot position receives: none where nothing is computed (R110, R126), else its slice sums. -/
def State.outputs (s : State) (p : Nat) (o : Product) : List (Option (List F32)) :=
  let al := (s.alive p o).toArray
  let av := (o.a.readVals (s.spaceByte p o.a.space) o.sa).toArray
  let bv := (s.weights p o).toArray
  let rows := (s.rowsOf p o).toArray
  let mark := s.marks p o
  (List.range 4096).map (fun i =>
    let m := i / 64
    let n := i % 64
    if decide (m < o.m) && decide (n < o.n) && mark m n
    then some (State.sliceSums o al av bv (rows.getD m none) n) else none)

/-- R189: the slot after the command, without REPRO. -/
def chainSlot (acc : Bool) (old : List Pair) (outs : List (Option (List F32))) : List Pair :=
  List.zipWith (fun q r =>
    match r with
    | some xs => xs.foldl Pair.addSlice (if acc then q else Pair.zero)
    | none => if acc then q else Pair.zero) old outs

/-- R191: the stack after the command. A position for which nothing is computed is written as +0 with ACC = 0, and has no
leaf otherwise, so that it keeps its contents (R110, R126, log 23). -/
def PhysTile.stackSlices (t : PhysTile) (p r slices : Nat) (acc : Bool) (outs : List (Option (List F32))) : PhysTile :=
  (List.range slices).foldl (fun u j =>
    u.insertLeaf p r (outs.map (fun o => match o with
      | some xs => some (xs.getD j 0)
      | none => if acc || decide (0 < j) then none else some 0))) (if acc then t else t.emptyStack r)

/-- The AM after the command (R187). -/
def State.accumulate (s : State) (p x : Nat) (o : Product) (outs : List (Option (List F32))) : State :=
  let slot := bitsOf x 100 96
  let t := s.pt p
  if s.repro then s.setPt p (t.stackSlices p slot o.slices (recAcc x) outs)
  else s.setPt p (t.setSlot slot (chainSlot (recAcc x) (t.slot p slot) outs))

/-- The product of an MMA or SMMA once its checks have passed (R122, R128, R129). -/
def State.productRun (s : State) (p x : Nat) (o : Product) : Done :=
  let rej := s.rejectedBits p o
  let oor := s.bitmapOor p o + ((s.rowsOf p o).filter Option.isNone).length
  { s := s.accumulate p x o (s.outputs p o), status := if rej = 0 then .ok else .quireViolation,
    count0 := if rej = 0 then oor else rej, count1 := s.survivors p x o, rejected := rej, oor := oor }

/-- The status with which an MMA or SMMA ends without entering a run: shed, malformed, no work, or a failed check. -/
def State.productEnd (s : State) (l p : Nat) (e : QEntry) : Option Status :=
  match s.preStatus l e with
  | some st => some st
  | none =>
    let o := s.product p e.x e.sigmas
    if o.zeroWork then some .zeroWork else s.productFault p e.x o

/-! ## Runs (R121, R122) -/

/-- The fields that the commands of a run have in common (R121). -/
def State.runKey (s : State) (p x : Nat) : List Nat :=
  let o := s.product p x (0, 0)
  [recOp x 80, recOp x 144, recOp x 128, o.k, recOp x 176, recQmode x, if recStrip x then 1 else 0,
   classOf o.a.elemType o.b.elemType]

/-- An MMA or an SMMA. -/
def isProduct (x : Nat) : Bool := recOpcode x == opMma || recOpcode x == opSmma

/-- A later command that joins a run: issued, ready but for the array itself, matching, without FENCE. -/
def State.joins (s : State) (l p : Nat) (key : List Nat) (e : QEntry) : Bool :=
  let before := (s.lt l).before e
  isProduct e.x && !(recFence e.x) && before.all (fun b => recOpcode b.x != opWait) &&
    before.all (fun b => recSlot b.x != recSlot e.x) && s.runKey p e.x == key && (s.productEnd l p e).isNone &&
    s.canStart l p e

/-- The members of the run that a head command forms: at most eight, ended by the first that does not join. -/
def State.runMembers (s : State) (l p : Nat) (h : QEntry) : List QEntry :=
  let later := (s.lt l).queue.filter (fun e => decide (h.id < e.id) && shareUnit e.x h.x)
  (h :: later.takeWhile (s.joins l p (s.runKey p h.x))).take 8

/-- A member of a run. -/
def QEntry.inRun (e : QEntry) : Bool :=
  match e.st with
  | .inRun _ => true
  | _ => false

/-- The first command of the next run while one is in progress: it meets R62 but for the array, which only the members of
that run hold (R120, R121). -/
def State.stageable (s : State) (l : Nat) : Option (Nat × QEntry) :=
  let t := s.lt l
  match t.phys, t.queue.find? (fun e => e.st == .queued && isProduct e.x) with
  | some p, some e =>
    let free := (t.before e).filter (fun b => !b.inRun)
    if s.tileWorks p && t.replayPending.isNone && orderOk free e && !(recFence e.x) &&
      (t.before e).all (fun b => recSlot b.x != recSlot e.x) then some (p, e) else none
  | _, _ => none

/-- The command that a run can start with, and whether the run is staged behind another. -/
def State.runHead (s : State) (l : Nat) : Option (Nat × QEntry × Bool) :=
  let t := s.lt l
  match t.run, t.staged with
  | none, _ => (s.startable l isProduct).map (fun h => (h.1, h.2, false))
  | some _, none => (s.stageable l).map (fun h => (h.1, h.2, true))
  | some _, some _ => none

/-- The queue with some products put in a run; each reads its σ here (R87). -/
def State.enterRun (s : State) (l p : Nat) (ids : List Nat) : List QEntry :=
  let t := s.lt l
  t.queue.map (fun e =>
    if ids.contains e.id then
      { e with st := .inRun none, step := t.stepCtr, sigmas := s.productSigmas l p e.x } else e)

/-- RUN_FORMATION (R121): the first command of the array and those that join it form a run; with one in progress, the
next is staged while its last block streams (R120). -/
def State.formRun (s : State) (l : Nat) : State :=
  match s.runHead l with
  | some (p, h, behind) =>
    if (s.productEnd l p h).isNone && s.canStart l p h then
      let ids := (s.runMembers l p h).map (fun e => e.id)
      let t : LogTile := { s.lt l with queue := s.enterRun l p ids }
      s.setLt l (if behind then { t with staged := some ids } else { t with run := some ids })
    else s
  | none => s

/-- Keep what the array did for a member. -/
def LogTile.setDone (t : LogTile) (id : Nat) (d : ArrayDone) : LogTile :=
  { t with queue := t.queue.map (fun e => if e.id = id then { e with st := .inRun (some d) } else e) }

/-- MMA and SMMA: form the product of the run's next member; a head that ends without a run completes at once, after a free
number of cycles (R74 gives it none; log 4). -/
def State.multiply (s : State) (l op : Nat) : State :=
  let t := s.lt l
  match t.run, t.phys with
  | some _, some p =>
    match t.queue.find? (fun e => e.st == .inRun none) with
    | some e =>
      if recOpcode e.x != op then s
      else
        let o := s.product p e.x e.sigmas
        let d := (match s.productFault p e.x o with
          | some st => Done.only s st
          | none => s.productRun p e.x o).heal s p e.x
        d.s.setLt l ((d.s.lt l).setDone e.id ⟨d.status, d.count0, d.count1, d.rejected, d.oor⟩)
    | none => s
  | none, some _ =>
    match s.startable l (fun x => recOpcode x == op) with
    | some (p, e) =>
      match s.productEnd l p e with
      | some st => State.complete l p s.freeCycles e (Done.only s.useFree st)
      | none => s
    | none => s
  | _, none => s

/-- The members of the run with what the array did for them, if it has done all of them. -/
def LogTile.runDone (t : LogTile) : Option (List (QEntry × ArrayDone)) :=
  match t.run with
  | none => none
  | some ids =>
    let ms := t.queue.filter (fun e => ids.contains e.id)
    ms.mapM (fun e => match e.st with
      | .inRun (some d) => some (e, d)
      | _ => none)

/-- What the array did for a member, as its completion takes it. -/
def ArrayDone.done (d : ArrayDone) (s : State) : Done :=
  { s := s, status := d.status, count0 := d.count0, count1 := d.count1, rejected := d.rejected, oor := d.oor }

/-- RUN_COMPLETE (R122): the commands of the run complete in issue order, and a run staged behind it takes its place. -/
def State.completeRun (s : State) (l cycles : Nat) : State :=
  match (s.lt l).runDone, (s.lt l).phys with
  | some ms, some p =>
    let t := ms.foldl (fun (u : State) m => State.complete l p cycles m.1 (m.2.done u)) s
    t.setLt l { t.lt l with run := (t.lt l).staged, staged := none }
  | _, _ => s

/-- MMA (R69). -/
def execMma (tile : Nat) (s : State) : Host.Outcome State Fault Refusal := .next (s.multiply tile opMma)

/-- SMMA (R69, R112). -/
def execSmma (tile : Nat) (s : State) : Host.Outcome State Fault Refusal := .next (s.multiply tile opSmma)

/-- RUN_FORMATION (R121). -/
def execRunFormation (tile : Nat) (s : State) : Host.Outcome State Fault Refusal := .next (s.formRun tile)

/-- RUN_COMPLETE (R122). -/
def execRunComplete (tile cycles : Nat) (s : State) : Host.Outcome State Fault Refusal :=
  .next (s.completeRun tile cycles)

end Sys2Proof.Machine
end

