-- ==== Sys2Proof/Machine/Cues.lean ====
section
/-!
DEFINITION. Cues: their validity, arming, firing and what a firing does (R37 to R42, R60, R165, R267).
-/

namespace Sys2Proof.Machine

open Sys2Proof

/-! ## Validity (R41) -/

/-- The fields of a cue entry that are judged without a reel: ACTION, reserved fields, PHASE and the ARGUMENT of every
action but START_PHASE. -/
def cueFieldsOk (c : BitVec 128) : Bool :=
  let a := cueAction c
  let g := cueArgument c
  decide (1 ≤ a ∧ a ≤ 5) && zeroAt c.toNat 47 41 && zeroAt c.toNat 63 56 && (a != 1 || decide (cuePhase c ≤ 5)) &&
    (!(a == 2 || a == 3) || decide (g < 1024)) && (a != 4 || decide (16 ≤ g ∧ g ≤ 31)) && (a != 5 || g == 0)

/-- The offset of a START_PHASE cue lies inside the stream of every logical tile named (R41). -/
def Reel.cueOffsetOk (r : Reel) (c : BitVec 128) : Bool :=
  cueAction c != 1 || (List.range (cueCount c)).all (fun i =>
    match r.phaseIndex (cuePhase c) with
    | some j => decide (cueFirst c + i < r.tileBudget) && decide (cueArgument c < 64 * (r.stream (cueFirst c + i) j).2)
    | none => false)

/-- The range of a cue lies inside the tile budget (R40, R59). -/
def cueInBudget (budget : Nat) (c : BitVec 128) : Bool := decide (cueFirst c + cueCount c ≤ budget)

/-- R41 against the active reel, as a SIGNAL of KIND 3 is checked. -/
def State.cueValid (s : State) (c : BitVec 128) : Bool :=
  cueFieldsOk c && (match s.reels.active with
    | some r => r.cueOffsetOk c
    | none => cueAction c != 1 || cueCount c == 0)

/-! ## Firing -/

/-- START_PHASE: the stream of the phase starts at the record that ARGUMENT points to (R37, R61). -/
def LogTile.startStream (t : LogTile) (r : Reel) (l : Nat) (c : BitVec 128) : LogTile :=
  match r.phaseIndex (cuePhase c) with
  | some j => { t with streams := t.streams ++ [{ phase := j, next := cueArgument c / 64, count := (r.stream l j).2 }] }
  | none => t

/-- START_PHASE on every tile of the range. -/
def State.startPhase (s : State) (c : BitVec 128) : State :=
  match s.reels.active with
  | some r => (List.range (cueCount c)).foldl (fun (t : State) i =>
      t.setLt (cueFirst c + i) ((t.lt (cueFirst c + i)).startStream r (cueFirst c + i) c)) s
  | none => s

/-- PREFETCH and SET_FLAG: 1 is on its way to flag ARGUMENT of every tile of the range (R165, R267), but for those whose hub
answers ISOLATED (R375, log 175). -/
def State.cueFlags (s : State) (c : BitVec 128) : State :=
  let add := ((List.range (cueCount c)).map (fun i => (cueFirst c + i, cueArgument c, 1))).filter (fun a => !(s.hubDown a.1))
  let t := { s with mem := { s.mem with snQueue := s.mem.snQueue ++ add } }
  if cueAction c = 2
  then { t with take := { t.take with prefetchCues := t.take.prefetchCues + 1 } }
  else { t with take := { t.take with setFlagCues := t.take.setFlagCues + 1 } }

/-- R40, R41: a firing with OUT_OF_RANGE. -/
def State.cueFails (s : State) (c : BitVec 128) : State :=
  (((s.incObj Obj.cuesFailed).setObj Obj.lastCueFailure (cuePosition c)).event 0x069 (unitOf 0xE 0) .outOfRange
    (cuePosition c)).failTake

/-- R40: the status of a firing. -/
def State.cueStatus (s : State) (c : BitVec 128) : Status :=
  if !(cueInBudget s.budget c) then .outOfRange
  else if cueCount c = 0 ∧ cueAction c ≤ 3 then .zeroWork
  else .ok

/-- What a firing does (R37, R40). The ARGUMENT of an EVENT cue is a source number of G3, 16 to 31 (R41). -/
def State.cueEffect (s : State) (c : BitVec 128) : State :=
  match s.cueStatus c with
  | .outOfRange => s.cueFails c
  | .zeroWork => s
  | _ =>
    if cueAction c = 1 then s.startPhase c
    else if cueAction c ≤ 3 then s.cueFlags c
    else if cueAction c = 4 then s.event (0x060 + cueArgument c % 32) (unitOf 0xE 0) .ok 0
    else s.forecast

/-- A firing: a cue of a reel whose activation is not finished is held (R60). -/
def State.fireCue (s : State) (a : ArmedCue) : State :=
  let t := { s with take := { s.take with cues := s.take.cues.filter (fun b => b.order != a.order) } }
  if a.ofNewReel && s.reels.activating.isSome
  then { t with take := { t.take with heldCues := t.take.heldCues ++ [a] } }
  else t.cueEffect a.entry

/-- The firing order of R39: ascending POSITION, then arming order. -/
def cueBefore (a b : ArmedCue) : Bool :=
  decide (cuePosition a.entry < cuePosition b.entry) ||
    (decide (cuePosition a.entry = cuePosition b.entry) && decide (a.order ≤ b.order))

/-- Insert a cue in firing order. -/
def insertCue (a : ArmedCue) : List ArmedCue → List ArmedCue
  | [] => [a]
  | b :: t => if cueBefore a b then a :: b :: t else b :: insertCue a t

/-- Cues in firing order. -/
def inFiringOrder (l : List ArmedCue) : List ArmedCue := l.foldr insertCue []

/-- The unfired cues whose POSITION the line has reached at a TB_COUNT. -/
def State.dueCues (s : State) (t : Nat) : List ArmedCue :=
  inFiringOrder (s.take.cues.filter (fun a => decide (cuePosition a.entry ≤ s.positionAt t)))

/-- R39: fire every cue that is due at a TB_COUNT, in firing order. -/
def State.fireDueAt (s : State) (t : Nat) : State :=
  if s.takeOpen then (s.dueCues t).foldl (fun (u : State) a => u.fireCue a) s else s

/-- R39 now. -/
def State.fireDue (s : State) : State := s.fireDueAt s.time.tb

/-! ## Arming -/

/-- R38, R40: arm one cue at a TB_COUNT. More than 1,024 armed cues are refused with OUT_OF_RANGE; a cue whose POSITION is
already passed counts in CUES_LATE. R38 speaks only of a cue armed while a take is open. DESIGN CHOICE (log 182): a cue
armed by a SIGNAL while no take is open enters the table and stays there for the next take. -/
def State.armCueAt (s : State) (ts : Nat) (c : BitVec 128) (ofNew : Bool) : State × Status :=
  if 1024 ≤ s.take.cues.length then (s, .outOfRange)
  else
    let late := s.takeOpen && decide (cuePosition c < s.positionAt ts)
    let t := { s with take := { s.take with
      cues := s.take.cues ++ [{ entry := c, order := s.take.cueOrder, ofNewReel := ofNew }],
      cueOrder := s.take.cueOrder + 1 } }
    (if late then t.incObj Obj.cuesLate else t, .ok)

/-- Arm one cue now. -/
def State.armCue (s : State) (c : BitVec 128) (ofNew : Bool) : State × Status := s.armCueAt s.time.tb c ofNew

/-- Arm a reel's cue entries in entry order at a TB_COUNT (R38, R43). -/
def State.armReel (s : State) (ts : Nat) (r : Reel) (ofNew : Bool) : State :=
  r.cues.foldl (fun (t : State) c => (t.armCueAt ts c ofNew).1) s

/-! ## Take close (R42, R60) -/

/-- Whether an unfired cue fires at the close: MANDATORY, and not of a reel whose activation is abandoned there. -/
def State.firesAtClose (s : State) (a : ArmedCue) : Bool :=
  cueMandatory a.entry && !(a.ofNewReel && s.reels.activating.isSome)

/-- R42, R60: the mandatory cues fire, every other unfired cue and every held cue is discarded and counted. -/
def State.closeCues (s : State) : State :=
  let fired := (inFiringOrder (s.take.cues.filter s.firesAtClose)).foldl (fun (u : State) a => u.fireCue a) s
  let n := fired.take.cues.length + fired.take.heldCues.length
  { fired.addObj Obj.lineCuesDiscarded 32 n with
    take := { fired.take with cues := [], heldCues := [], cuesDiscarded := fired.take.cuesDiscarded + n } }

/-- R60: an activation that has not finished is abandoned; its reel stays staged unless a newer one is. -/
def State.abandonActivation (s : State) : State :=
  match s.reels.activating with
  | some r => { s with reels := { s.reels with
      activating := none, staged := if s.reels.staged.isSome then s.reels.staged else some r } }
  | none => s

/-- CUE_FIRE (R39): time passes and the cues that are due fire. -/
def execCueFire (dt : Nat) (s : State) : Host.Outcome State Fault Refusal := .next (s.advance dt).fireDue

end Sys2Proof.Machine
end

