-- ==== Sys2Proof/Machine/Sync.lean ====
section
/-!
DEFINITION. The sync port and the SN hubs: SIGNAL of KIND 0 and 3, WAIT and its timeout, and the additions that a hub
applies (R38, R73, R181, R267, R268).
-/

namespace Sys2Proof.Machine

open Sys2Proof

/-- SN flags of a logical tile (R267). -/
def snFlags : Nat := 1024

/-- KIND of a SIGNAL. -/
def sigKind (x : Nat) : Nat := bitsOf x 67 64

/-- FLAG of a SIGNAL or a WAIT. -/
def sigFlag (x : Nat) : Nat := bitsOf x 79 68

/-- ADDEND of a SIGNAL. -/
def sigAddend (x : Nat) : Nat := bitsOf x 111 80

/-- CUE of a SIGNAL of KIND 3. -/
def sigCue (x : Nat) : BitVec 128 := BitVec.ofNat 128 (bitsOf x 319 192)

/-- THRESHOLD of a WAIT. -/
def waitThreshold (x : Nat) : Nat := bitsOf x 111 80

/-- TIMEOUT of a WAIT. -/
def waitTimeoutOf (x : Nat) : Nat := bitsOf x 143 112

/-- CONSUME of a WAIT. -/
def waitConsume (x : Nat) : Bool := bitAt x 144

/-! ## Flags -/

/-- A flag's counter. -/
def LogTile.flag (t : LogTile) (f : Nat) : Nat := Tab.read t.flags 0 f

/-- Put a value in a flag's counter. -/
def LogTile.setFlag (t : LogTile) (f v : Nat) : LogTile := { t with flags := Tab.store t.flags 0 f (v % 2 ^ 32) }

/-- The test of a WAIT: the counter is at least THRESHOLD (R267). -/
def LogTile.waitMet (t : LogTile) (x : Nat) : Bool := decide (waitThreshold x ≤ t.flag (sigFlag x))

/-- CONSUME: THRESHOLD is subtracted in the step of the test. -/
def LogTile.consume (t : LogTile) (x : Nat) : LogTile :=
  if waitConsume x then t.setFlag (sigFlag x) (t.flag (sigFlag x) - waitThreshold x) else t

/-- Test the pending WAIT of a logical tile, and complete it when it is met. An addition carries no cycle count, so
CYCLES of a WAIT that it meets is a free value (log 4). -/
def State.testWait (s : State) (l : Nat) : State :=
  let t := s.lt l
  match t.phys, t.queue.find? (fun e => e.st == .issued && recOpcode e.x == opWait) with
  | some p, some e =>
    if t.waitMet e.x
    then State.complete l p (s.freeNow.toNat % 2 ^ 32) e (Done.only (s.useFree.setLt l (t.consume e.x)) .ok) else s
  | _, _ => s

/-- An addition to a flag, modulo 2^32, followed by the test of a pending WAIT (R267); a closed wrapper answers it with
ISOLATED (R375, log 175). -/
def State.addFlag (s : State) (l f n : Nat) : State :=
  let t := s.lt l
  if s.hubDown l then s else (s.setLt l (t.setFlag f (t.flag f + n))).testWait l

/-! ## SN_FLAG_ADD -/

/-- The hub of a logical tile is that of the die on which it is placed (R268); without a place, and while the wrapper of the
die's networks is closed, nothing is applied (log 139, log 175). -/
def State.hubOf (s : State) (l : Nat) : Option Nat :=
  ((s.lt l).phys.map tileDie).filter (fun d => !(s.blockDown (.network d)))

/-- The hub of a die applies the oldest addition that has reached it. -/
def State.hubStep (s : State) (die : Nat) : State :=
  match s.mem.snQueue.findIdx? (fun a => s.hubOf a.1 == some die) with
  | some i =>
    match s.mem.snQueue[i]? with
    | some a => { s with mem := { s.mem with snQueue := s.mem.snQueue.eraseIdx i } }.addFlag a.1 a.2.1 a.2.2
    | none => s
  | none => s

/-- SN_FLAG_ADD (R267). -/
def execSnFlagAdd (die : Nat) (s : State) : Host.Outcome State Fault Refusal := .next (s.hubStep die)

/-! ## SIGNAL -/

/-- The pending WAIT of a logical tile ends with ISOLATED; its CYCLES is a free value (log 4). -/
def State.isolateWait (s : State) (l : Nat) : State :=
  match (s.lt l).phys, (s.lt l).queue.find? (fun e => e.st == .issued && recOpcode e.x == opWait) with
  | some p, some e => State.complete l p s.freeCycles e (Done.only s.useFree .isolated)
  | _, _ => s

/-- The wrapper of a die's networks closes: every request to its SN hub that is in flight is answered with ISOLATED
(R375). A pending WAIT completes so; an addition under way, whose command has completed already, is not applied, and R411
applies to it (log 175). -/
def State.isolateHub (s : State) : State :=
  let gone := s.mem.snQueue.filter (fun a => s.hubDown a.1)
  let a := { s with mem := { s.mem with snQueue := s.mem.snQueue.filter (fun a => !(s.hubDown a.1)) } }
  let b := if gone.isEmpty then a else a.failOn .isolated
  ((b.tiles.map (fun e => e.1)).filter b.hubDown).foldl (fun (t : State) l => t.isolateWait l) b

/-- SIGNAL KIND 0: ADDEND 0 is no work; a FLAG beyond 1,023 is OUT_OF_RANGE; a hub behind its wrapper answers with ISOLATED
(R375); otherwise the addition is on its way. -/
def signalAddEff (s : State) (l _p : Nat) (e : QEntry) : Done :=
  if sigAddend e.x = 0 then Done.only s .zeroWork
  else if snFlags ≤ sigFlag e.x then Done.only s .outOfRange
  else if s.hubDown l then Done.only s .isolated
  else Done.only { s with mem := { s.mem with snQueue := s.mem.snQueue ++ [(l, sigFlag e.x, sigAddend e.x)] } } .ok

/-- SIGNAL KIND 3: the cue entry is checked (R41) and armed (R38); one already passed fires at once (R40). -/
def armCueEff (s : State) (_l _p : Nat) (e : QEntry) : Done :=
  let c := sigCue e.x
  if !(s.cueValid c) then Done.only s .malformed
  else
    let r := s.armCue c false
    if r.2 = .ok then Done.only r.1.fireDue .ok else Done.only s .outOfRange

/-- SIGNAL KIND 0; a KIND that R73 does not list and an opcode that R63 does not list complete here with MALFORMED
(log 20). -/
def execSignalAdd (tile cycles : Nat) (s : State) : Host.Outcome State Fault Refusal :=
  .next (s.runUnit tile cycles (fun x => !(listedOpcodes.contains (recOpcode x)) ||
    (recOpcode x == opSignal && (sigKind x == 0 || decide (3 < sigKind x)))) signalAddEff)

/-- SIGNAL KIND 3. -/
def execArmCue (tile cycles : Nat) (s : State) : Host.Outcome State Fault Refusal :=
  .next (s.runUnit tile cycles (fun x => recOpcode x == opSignal && sigKind x == 3) armCueEff)

/-! ## WAIT -/

/-- A WAIT. -/
def isWait (x : Nat) : Bool := recOpcode x == opWait

/-- A replayed WAIT whose threshold was consumed before the fence (R181). -/
def waitConsumed (e : QEntry) : Bool := waitConsume e.x && e.applied == some .ok

/-- A WAIT that is not met keeps waiting at the hub. -/
def LogTile.holdWait (t : LogTile) (e : QEntry) : LogTile :=
  { t with queue := t.queue.map (fun q => if q.id = e.id then { q with st := .issued, step := t.stepCtr } else q) }

/-- Start a WAIT: with nothing to wait for it completes, else it stays pending (R63, R73). -/
def State.startWait (s : State) (l p cycles : Nat) (e : QEntry) : State :=
  let t := s.lt l
  let done (u : State) (st : Status) : State := State.complete l p cycles e (Done.only u st)
  match s.preStatus l e with
  | some st => done s st
  | none =>
    if waitThreshold e.x = 0 then done s .zeroWork
    else if snFlags ≤ sigFlag e.x then done s .outOfRange
    else if waitConsumed e then done s .ok
    else if s.hubDown l then done s .isolated
    else if t.waitMet e.x then done (s.setLt l (t.consume e.x)) .ok
    else if waitTimeoutOf e.x = 0 then done s .waitTimeout
    else s.setLt l (t.holdWait e)

/-- WAIT (R73). -/
def execWait (tile cycles : Nat) (s : State) : Host.Outcome State Fault Refusal :=
  .next (match s.startable tile isWait with
    | some (p, e) => s.startWait tile p cycles e
    | none => s)

/-- A pending WAIT whose TIMEOUT has passed. -/
def LogTile.timedOut (t : LogTile) (cycles : Nat) : Option QEntry :=
  t.queue.find? (fun e => e.st == .issued && isWait e.x && waitTimeoutOf e.x != 0xFFFFFFFF &&
    decide (waitTimeoutOf e.x ≤ cycles))

/-- WAIT_TIMEOUT (R73): `cycles` have passed since the WAIT started. -/
def execWaitTimeout (tile cycles : Nat) (s : State) : Host.Outcome State Fault Refusal :=
  .next (match (s.lt tile).phys, (s.lt tile).timedOut cycles with
    | some p, some e => State.complete tile p cycles e (Done.only s .waitTimeout)
    | _, _ => s)

end Sys2Proof.Machine
end

