-- ==== Sys2Proof/Machine/Scales.lean ====
section
/-!
DEFINITION. The step-dependent values: the σ of delayed entries from their histories, the versions of a newly active
reel, and the participating tiles that the loader records (R199, R200, R204, R207).
-/

namespace Sys2Proof.Machine

open Sys2Proof

/-- The largest of some magnitudes. -/
def largestOf (l : List F32) : Val := (l.map f32Val).foldl maxFinite Val.zero

/-- R204: σ of a delayed entry from its history and the ELEM_TYPE of its last delivery. -/
def State.delayedSigma (s : State) (id : Nat) : Int :=
  let h := largestOf (Tab.read s.steps.history [] id)
  match fmtOf (Tab.read s.steps.format 0 id) with
  | none => 0
  | some f => if h.isZero then 0
    else clampInt (-127) 127 (floorLog2Quot f.maxVal h - (s.governs Obj.scaleMargin : Int))

/-- The running loss scale. -/
def State.runningScale (s : State) : Int := s.objInt Obj.lossScale 8

/-- The version of a step, from the histories and the running loss scale as they stand (R200). -/
def State.newVersion (s : State) (step : Nat) : Version :=
  { step := step, lossScale := s.runningScale,
    sigma := (s.steps.history.map (fun e => (e.1, s.delayedSigma e.1))).filter (fun e => decide (e.2 ≠ 0)) }

/-- Keep the versions of four consecutive steps (R200). -/
def keepFour (v : Version) (vs : List Version) : List Version := (v :: vs).take 4

/-- A stream of a logical tile holds a record with STEP_END (R199). -/
def State.streamHasStepEnd (s : State) (r : Reel) (l j : Nat) : Bool :=
  (List.range (r.stream l j).2).any (fun i =>
    bitAt (s.hbmByte true (r.base + (r.stream l j).1 + 64 * i + 1)).toNat 4)

/-- The logical tiles of a reel whose streams hold a STEP_END (R199). -/
def State.participantsOf (s : State) (r : Reel) : List Nat :=
  (List.range r.tileBudget).filter (fun l =>
    (List.range r.phases.length).any (fun j => s.streamHasStepEnd r l j))

/-- What the steps start from when a reel becomes active: versions 0 and 1 from the state at activation, no step
final, held deliveries discarded (R199, R200, R207). -/
def State.startSteps (s : State) (r : Reel) : State :=
  let t := s.setObj Obj.finalStep 0xFFFFFFFF
  { t with steps := { t.steps with
      participants := s.participantsOf r, nextFinal := 0,
      versions := [s.newVersion 1, s.newVersion 0], deliveries := [], saturated := [], ownSentTb := [],
      records := [], lapsed := [], skips := [] } }

end Sys2Proof.Machine
end

