-- ==== Sys2Proof/Machine/Takes.lean ====
section
/-!
DEFINITION. Takes: the dailies of a closing take, closing and opening (R42 to R51, R149, R150, R157, R361 to R363),
slates and ADV pulses (R22 to R36), and the activation of a reel (R56, R60).
-/

namespace Sys2Proof.Machine

open Sys2Proof

/-! ## The dailies set -/

/-- An object of the dailies set (R361, R363), DAILIES_GENERATION apart. -/
def dailiesKey (k : Nat) : Bool :=
  let i := k / 256
  let sub := k % 256
  (i == 0x3000 && decide (2 ≤ sub)) || (i == 0x3001 && decide (1 ≤ sub)) || (i == 0x3002 && sub == 9) ||
    (decide (0x3100 ≤ i ∧ i ≤ 0x31BF) && decide (1 ≤ sub)) || (decide (0x2320 ≤ i ∧ i ≤ 0x2323) && decide (1 ≤ sub)) ||
    ((i == 0x2482 || i == 0x2483) && decide (1 ≤ sub)) ||
    (decide (0x2410 ≤ i ∧ i ≤ 0x241F) && (sub == 0x0B || sub == 0x0C)) ||
    (i == 0x2500 && decide (0x10 ≤ sub ∧ sub ≤ 0x13)) || (i == 0x2A20 && decide (4 ≤ sub ∧ sub ≤ 6)) ||
    (i == 0x2600 && decide (0x0B ≤ sub ∧ sub ≤ 0x11))

/-- The value of an object as the last frozen set has it, or as it is shown. -/
def State.latest (s : State) (k : Nat) : Nat :=
  match s.dailies.reverse.findSome? (fun (t : Tab Nat) => Tab.look t k) with
  | some v => v
  | none => s.obj k

/-- The sum of a count over the physical tiles. -/
def State.tileSum (s : State) (f : PhysTile → Nat) : Nat := listSum (s.phys.map (fun e => f e.2))

/-- The sum over the tiles of one conversion count (R209). -/
def State.convSum (s : State) (cls slot kind : Nat) : Nat :=
  s.tileSum (fun t => Tab.read t.conv 0 (convKey cls slot kind))

/-- A share of R361. -/
def dailiesShare (count converted : Nat) : Nat := if converted = 0 then 0 else min 0xFFFF (count * 2 ^ 16 / converted)

/-- The conversion counts and shares of the closing take. -/
def State.convDailies (s : State) : List (Nat × Nat) :=
  (List.range 4).flatMap (fun c => (List.range 16).flatMap (fun i =>
    let f := i + 1
    let a := s.convSum c f 0
    let v := s.convSum c f 1
    let n := s.convSum c f 2
    [(Obj.saturations + 256 * c + i, a % 2 ^ 64), (Obj.vanishes + 256 * c + i, v % 2 ^ 64),
     (Obj.converted + 256 * c + i, n % 2 ^ 64), (Obj.saturationShare + 16 * c + i, dailiesShare a n),
     (Obj.vanishShare + 16 * c + i, dailiesShare v n)]))

/-- The mean ACLK of a tile that was busy: free within the bound of R55 (log 101). With no cycles the quotient is not stated
(log 4). -/
def State.meanAclk (s : State) (l total : Nat) : Nat :=
  (Config.freeValue (s.free + l)).toNat % (if total = 0 then 2 ^ 16 else 3601)

/-- The objects of one logical tile. A tile without a place shows a free value (log 4). -/
def State.tileDailies (s : State) (l : Nat) : List (Nat × Nat) :=
  let t := s.lt l
  let cycles := (List.range 6).map (fun p => Tab.read t.phaseCycles 0 p)
  let place := match t.phys with
    | some p => p
    | none => (Config.freeValue (s.free + 192 + l)).toNat % 2 ^ 16
  ((List.range 6).map (fun p => (Obj.phaseCycles + 256 * l + p, cycles.getD p 0 % 2 ^ 64))) ++
    [(Obj.physicalTile + 256 * l, place), (Obj.commandsCompleted + 256 * l, t.completed % 2 ^ 32),
     (Obj.meanAclkMhz + 256 * l, s.meanAclk l (listSum cycles))]

/-- MEASURED_DENSITY of a class at the close (R150). -/
def State.measuredAt (s : State) (c : Nat) : Nat :=
  let reports := s.take.maskReports.filter (fun r => r.1 / 4096 == c)
  let n := listSum (reports.map (fun r => r.2.2))
  if n = 0 then s.latest (Obj.measuredDensity + 256 * c) else listSum (reports.map (fun r => r.2.1)) * 2 ^ 16 / n

/-- DEFERRED_TAKES of a class at the close (R150; log 32). -/
def State.deferredAt (s : State) (c : Nat) : Nat :=
  let d := s.latest (Obj.deferredTakes + 256 * c)
  if s.take.tipinShed.contains c then satAdd 8 d 1 else if s.take.tipinRan.contains c then 0 else d

/-- The mask items of the dailies. -/
def State.maskDailies (s : State) : List (Nat × Nat) :=
  (List.range 16).flatMap (fun c =>
    [(Obj.measuredDensity + 256 * c, s.measuredAt c), (Obj.deferredTakes + 256 * c, s.deferredAt c)])

/-- R150: the classes whose deferrals reach DEFERRAL_LIMIT at this close. -/
def State.deferralEvents (s : State) : State :=
  (List.range 16).foldl (fun (t : State) c =>
    if decide (s.latest (Obj.deferredTakes + 256 * c) < s.deferredAt c) &&
      decide (s.deferredAt c = s.governs (Obj.deferralLimit + 256 * c))
    then t.event 0x068 (unitOf 0xE 0) .ok c else t) s

/-- Clamp an FP32 value between two others. -/
def f32Clamp (lo hi x : F32) : F32 :=
  if Val.lt (f32Val x) (f32Val lo) then lo else if Val.lt (f32Val hi) (f32Val x) then hi else x

/-- R157: the margin of a predictor after a take, if the take audited enough. DESIGN CHOICE (log 194): R157 does not say
whether the close updates the margin in force or one that the host has written for the next take; the latest written value
is updated. -/
def State.marginAt (s : State) (p : Nat) : Option Nat :=
  let a := Tab.read s.take.audited 0 p
  if a < s.governs Obj.auditMinSamples then none
  else
    let share := Tab.read s.take.misses 0 p * 2 ^ 16 / a
    let step := BitVec.ofNat 32 (s.governs Obj.marginStep)
    let target := s.governs Obj.missTarget
    let m : F32 := BitVec.ofNat 32 (s.latest (Obj.predictorMargin + p))
    let m1 := if target < share then f32Add m step else if 2 * share < target then f32Sub m step else m
    some (f32Clamp (BitVec.ofNat 32 (s.governs Obj.marginMin)) (BitVec.ofNat 32 (s.governs Obj.marginMax)) m1).toNat

/-- The predictor items, with the margins that appear after the switch. -/
def State.predictorDailies (s : State) : List (Nat × Nat) :=
  (List.range 64).flatMap (fun p =>
    [(Obj.audited + p, Tab.read s.take.audited 0 p % 2 ^ 32), (Obj.misses + p, Tab.read s.take.misses 0 p % 2 ^ 32)] ++
      (match s.marginAt p with
        | some m => [(Obj.predictorMargin + p, m)]
        | none => []))

/-- The routing, HBM and fabric items. -/
def State.unitDailies (s : State) : List (Nat × Nat) :=
  [(Obj.tokensDropped, s.tileSum (fun t => t.tokensDropped) % 2 ^ 32),
   (Obj.choicesDropped, s.tileSum (fun t => t.choicesDropped) % 2 ^ 32),
   (Obj.tokensSkipped, s.tileSum (fun t => t.tokensSkipped) % 2 ^ 32),
   (Obj.dispatchNacks, s.take.dispatchNacks % 2 ^ 32), (Obj.eccCorrected, s.take.eccCorrected % 2 ^ 32),
   (Obj.eccFromPartner, s.take.eccFromPartner % 2 ^ 32), (Obj.eccLostCount, s.take.eccLost % 2 ^ 32)] ++
  (List.range 7).map (fun i => (Obj.wavelengthSwitches + i, Tab.read s.take.fabric 0 (0x0B + i) % 2 ^ 32))

/-- TAKE_FLAGS (R361, R411). -/
def State.takeFlags (s : State) : Nat :=
  (if s.take.selfSlated then 1 else 0) + (if s.take.lateAnchored then 2 else 0) + (if s.take.forecastMiss then 4 else 0) +
    (if s.take.overrun then 8 else 0) + (if 0 < s.take.faultsMasked then 16 else 0) +
    (if s.take.failed || decide (0 < s.take.publishedInvalid) then 32 else 0)

/-- The wafers ingested for a take (R315). -/
def State.wafersOf (s : State) (take : Nat) : Nat :=
  listSum ((s.take.answers.filter (fun a => a.take == take)).map (fun a => a.wafers.length))

/-- The items of 0x3000. -/
def State.takeDailies (s : State) (kind ts : Nat) : List (Nat × Nat) :=
  let n := s.obj Obj.lineTakeNumber
  [(Obj.dailiesTakeNumber, n), (Obj.openTimestamp, s.take.openTb), (Obj.closeTimestamp, ts), (Obj.closeKind, kind),
   (Obj.takeFlags, s.takeFlags), (Obj.shedLevelOpen, s.take.levelOpen), (Obj.shedLevelClose, s.obj Obj.shedLevel),
   (Obj.dailiesLotId, s.take.lotId), (Obj.wafersIngested, s.wafersOf n % 2 ^ 16),
   (Obj.answersPublished, s.take.published % 2 ^ 16), (Obj.answersInvalid, s.take.publishedInvalid % 2 ^ 16),
   (Obj.latePublished, s.take.latePublished % 2 ^ 16), (Obj.faultsMasked, s.take.faultsMasked),
   (Obj.correctableErrors, s.take.correctable % 2 ^ 32),
   (Obj.quireViolations, s.tileSum (fun t => t.quireViolations) % 2 ^ 32),
   (Obj.indexOor, s.tileSum (fun t => t.indexOor) % 2 ^ 32),
   (Obj.lastForecast, if s.take.margin.isSome then s.obj Obj.forecast else 0),
   (Obj.dailiesDeadline, s.obj Obj.takeDeadline), (Obj.roleMigrations, s.take.roleMigrations % 2 ^ 8),
   (Obj.roleMigrationsTotal, s.intr.migrations),
   (Obj.dailiesCuesDiscarded, s.take.cuesDiscarded % 2 ^ 16), (Obj.prefetchCues, s.take.prefetchCues % 2 ^ 16),
   (Obj.setFlagCues, s.take.setFlagCues % 2 ^ 16)]

/-- R361: the set frozen at the close. -/
def State.frozenSet (s : State) (kind ts : Nat) : Tab Nat :=
  (s.takeDailies kind ts ++ s.convDailies ++ s.maskDailies ++ s.predictorDailies ++ s.unitDailies ++
    (List.range s.budget).flatMap s.tileDailies).foldl (fun (t : Tab Nat) e => Tab.put t e.1 e.2) []

/-- The tile counts start again (R209, R238, R361). -/
def PhysTile.clearCounts (t : PhysTile) : PhysTile :=
  { t with conv := [], quireViolations := 0, indexOor := 0, tokensDropped := 0, choicesDropped := 0, tokensSkipped := 0 }

/-- The counts of a logical tile start again. -/
def LogTile.clearCounts (t : LogTile) : LogTile := { t with phaseCycles := [], completed := 0, slackUsed := [] }

/-- The counts of a take start again; cues, governor margin and answers stay. -/
def TakeSt.clearCounts (t : TakeSt) : TakeSt :=
  { t with forecastMiss := false, overrun := false, prefetchCues := 0, setFlagCues := 0, cuesDiscarded := 0,
           faultsMasked := 0, roleMigrations := 0, correctable := 0, published := 0, publishedInvalid := 0,
           latePublished := 0, failed := false, maskReports := [], trimRan := false, tipinShed := [], tipinRan := [],
           audited := [], misses := [], dispatchNacks := 0, eccCorrected := 0, eccFromPartner := 0, eccLost := 0,
           fabric := [], replayedInPlace := [], slates := 0 }

/-- R150, R157, R361: freeze the dailies of the closing take, update the policies and clear the counts. -/
def State.freezeDailies (s : State) (kind ts : Nat) : State :=
  let set := s.frozenSet kind ts
  let t := if s.take.trimRan then s.deferralEvents.incObj Obj.scheduleCount else s.deferralEvents
  { t with dailies := t.dailies ++ [set], take := t.take.clearCounts,
           phys := t.phys.map (fun e => (e.1, e.2.clearCounts)),
           tiles := t.tiles.map (fun e => (e.1, e.2.clearCounts)), free := t.free + 384 }

/-- DAILIES_SWITCH (R362): the oldest frozen set is shown as a whole, and one source in G0 is raised. -/
def State.switchDailies (s : State) : State :=
  match s.dailies with
  | [] => s
  | set :: rest =>
    let cleared := { s with objs := s.objs.filter (fun e => !(dailiesKey e.1)), dailies := rest }
    ((set.foldl (fun (t : State) e => t.setObj e.1 e.2) cleared).incObj Obj.dailiesGeneration).event 0x002
      (unitOf 0xE 0) .ok 0

/-- A mailbox request has read something and has not ended: the dictionary server is within it. -/
def State.withinRequest (s : State) : Bool :=
  match s.server.jobs with
  | j :: _ => j.path == .pcie && j.answers.any (fun a => !a.1.write)
  | [] => false

/-- DAILIES_SWITCH (R362): a mailbox request always reads one set, so the switch waits for its end. -/
def execDailiesSwitch (dt : Nat) (s : State) : Host.Outcome State Fault Refusal :=
  let a := s.advance dt
  .next (if a.withinRequest then a else a.switchDailies)

/-! ## Closing -/

/-- A logical tile that has work of the take still queued or unfetched (R44). -/
def LogTile.hasWork (t : LogTile) : Bool :=
  !(t.queue.isEmpty) || t.streams.any (fun x => decide (x.next < x.count)) || !(t.replays.isEmpty)

/-- R44: each tile with work still queued counts one overrun. -/
def State.countOverruns (s : State) : State :=
  (s.tiles.filter (fun e => e.2.hasWork)).foldl (fun (t : State) e =>
    { t.incObj Obj.takeOverruns with take := { t.take with overrun := true } }.event 0x066 (unitOf 1 e.1) .ok 0) s

/-- R27: where the plant stands relative to the next take: known where a close without a slate opens it, found at the first
latch after the slate otherwise (log 36). -/
def State.rebasePlant (s : State) (bySlate : Bool) (ts : Nat) : State :=
  let pos := s.plantPosition ts
  let slateOpens := bySlate || decide (s.obj Obj.takeControl = 0)
  { s.countLimited with time := { s.time with
      plantBase := if slateOpens || !s.plantSource then none else s.time.plantBase.map (fun b => (b + pos) % 2 ^ 32),
      plantValid := false, plantPos := 0, plantAdvance := 0, plantHeld := 0, plantWraps := 0 } }

/-- R6, R29: the mode and the position source written take force at a take boundary. -/
def State.forceModes (s : State) : State :=
  (s.setObj Obj.modeInForce (s.obj Obj.combinationMode)).setObj Obj.sourceInForce (s.obj Obj.positionSource)

/-- R214: start a fill in every usable tile that is awake, where `want` asks for one. -/
def State.startFills (s : State) (want : PhysTile → Bool) : State :=
  { s with phys := (List.range s.part.variant.tiles).foldl (fun (t : Tab PhysTile) p =>
      let x := Tab.read t PhysTile.fresh p
      if s.tilePlaceable p && !x.sleeping && want x then Tab.put t p { x with filling := true } else t) s.phys }

/-- An activation under way brings another SEED, so that the fills of the opening that started it wait (R215). -/
def State.fillsWait (s : State) : Bool :=
  match s.reels.activating, s.reels.active with
  | some r, some a => decide (r.seed ≠ a.seed)
  | _, _ => false

/-- R60, R214: an activation is abandoned, and the fills that waited for its placement start with the SEED that stays. -/
def State.dropActivation (s : State) : State :=
  if s.fillsWait then s.abandonActivation.startFills (fun _ => true) else s.abandonActivation

/-- R42 to R44: close the open take at a timestamp; `kind` is CLOSE_KIND. -/
def State.closeTake (s : State) (kind ts : Nat) : State :=
  let a := ((s.fireDueAt ts).closeCues.dropActivation.countOverruns).freezeDailies kind ts
  let b := a.rebasePlant (kind == 0) ts
  let c := ((b.setObj Obj.takeState 0).forceModes).event 0x001 (unitOf 0xE 0) .ok 0
  { c with take := { c.take with
      closedTb := some ts, closedTake := s.obj Obj.lineTakeNumber,
      answers := c.take.answers.map (fun r => { r with closed := true }), selfSlated := false, lateAnchored := false } }

/-! ## Opening -/

/-- R48: the level at an opening. -/
def State.openingLevel (s : State) : Nat :=
  let prev := s.obj Obj.shedLevel
  let floor := s.obj Obj.shedFloor
  match s.take.margin with
  | some m => if (s.obj Obj.relaxMargin : Int) ≤ m then max floor (prev - 1) else min (max prev floor) (s.obj Obj.shedCeiling)
  | none => min (max prev floor) (s.obj Obj.shedCeiling)

/-- The exchange share a of R149. -/
def State.exchangeShare (s : State) (c : Nat) : Int :=
  let o := 256 * c
  let n := s.obj (Obj.exchangeTakes + o)
  let k := s.obj Obj.scheduleCount
  let e : Int := s.obj (Obj.exchangeEnd + o)
  let b : Int := s.obj (Obj.exchangeStart + o)
  if n = 0 ∨ n ≤ k then e else b + Int.tdiv ((e - b) * k) n

/-- R149: GOAL, TRIM_DENSITY and REGROW_DENSITY of a class. -/
def State.classDensities (s : State) (c : Nat) : Nat × Nat × Nat :=
  let o := 256 * c
  let measured := s.latest (Obj.measuredDensity + o)
  if measured = 0xFFFF then (0xFFFF, 0xFFFF, 0)
  else
    let prev : Int := if s.obj (Obj.goal + o) = 0xFFFF then measured else s.obj (Obj.goal + o)
    let step : Int := s.obj (Obj.densityStep + o)
    let goal := prev + clampInt (-step) step ((s.obj (Obj.targetDensity + o) : Int) - prev)
    let t := goal * (2 ^ 16 - s.exchangeShare c) / 2 ^ 16
    (goal.toNat, t.toNat, (goal - min (measured : Int) t).toNat)

/-- R149 for every class. -/
def State.setDensities (s : State) : State :=
  (List.range 16).foldl (fun (t : State) c =>
    let d := s.classDensities c
    ((t.setObj (Obj.goal + 256 * c) d.1).setObj (Obj.trimDensity + 256 * c) d.2.1).setObj (Obj.regrowDensity + 256 * c)
      d.2.2) s

/-- The values that take force at this opening: the written ones, and the margins that R157 has just computed. -/
def State.valuesToForce (s : State) : Tab Nat :=
  let written := s.objs.filter (fun e => forcedKey e.1)
  (List.range 64).foldl (fun (t : Tab Nat) p =>
    Tab.store t (objDefault (Obj.predictorMargin + p)) (Obj.predictorMargin + p) (s.latest (Obj.predictorMargin + p)))
    written

/-- R242: a staged destination table that differs takes force. -/
def State.forceTable (s : State) : State :=
  if s.route.staged = s.route.inForce then s
  else { s.incObj Obj.tableGeneration with
    route := { s.route with inForce := s.route.staged } }

/-- R337: write the lot block, from the values of the last latch at or before the opening. A block that a later
DUPLEX_SIZE made a duplex copy is not written (R254, log 164). -/
def State.writeLotBlock (s : State) (take : Nat) : State :=
  let v := s.time.lotWords
  let t := { s with take := { s.take with lotId := v.getD 1 0 } }
  let a := s.obj Obj.lotBlockAddr
  if a = 0 || t.meetsDuplexCopy a 256 then t
  else (t.hbmWrite a (leBytes 4 take ++ leBytes 4 (v.getD 0 0) ++ leBytes 8 (v.getD 1 0) ++ List.replicate 48 0 ++
    (List.range 48).flatMap (fun i => leBytes 4 (v.getD (i + 2) 0)))).1

/-- R214, R215 at an opening: a newly active reel with another SEED fills the tables at its placement instead. -/
def State.openingFills (s : State) : State :=
  if s.reels.active.isSome && !s.fillsWait then s.startFills (fun _ => true) else s

/-- R50: every tile latches its step level, one with a TRAIN step in progress too (log 148). -/
def State.latchLevels (s : State) (level : Nat) : State :=
  { s with tiles := s.tiles.map (fun e => (e.1, { e.2 with stepLevel := level })) }

/-- R60 steps 1 and 2 with step 7 of R43: start the activation of a staged reel, and arm the cues at the opening's
timestamp. -/
def State.startActivation (s : State) (ts : Nat) : State :=
  match s.reels.staged with
  | some r => { s with reels := { s.reels with staged := none, activating := some r } }.armReel ts r true
  | none =>
    match s.reels.active with
    | some r => s.armReel ts r false
    | none => s

/-- TAKE_NUMBER of the next take (R23). -/
def nextTake (n : Nat) : Nat := if n = 0xFFFFFFFF then 1 else n + 1

/-- The answers of a take that opens. -/
def TakeAnswers.fresh (take : Nat) (selfSlated : Bool) : TakeAnswers :=
  { take := take, wafers := [], toPublish := [], selfSlated := selfSlated, lateAnchored := false, closed := false,
    valid := true, faultMasked := false }

/-- Steps 3 and 4 of R43: TAKE_NUMBER, POSITION and the values in force. -/
def State.beginTake (s : State) (selfSlated : Bool) (ts : Nat) : State :=
  let n := nextTake (s.obj Obj.lineTakeNumber)
  let a := (((s.setObj Obj.lineTakeNumber n).setObj Obj.takeState 1).forceModes).applyCals 2
  let b := a.applyCals 3
  let c := { b with
    take := { b.take with
      opened := true, openTb := ts, selfSlated := selfSlated, lateAnchored := false, inForce := s.valuesToForce,
      slates := 0, answers := b.take.answers.filter (fun (r : TakeAnswers) => !(r.toPublish.isEmpty)) ++ [TakeAnswers.fresh n selfSlated] },
    time := { b.time with anchor := ts, advSinceAnchor := 0 },
    host := { b.host with segmentsInForce := b.host.segments } }
  (c.setObj Obj.takeDeadline c.deadline.toNat).forceTable

/-- Step 5 of R43 with R50 and R149. -/
def State.setOpeningLevel (s : State) : State :=
  let level := s.openingLevel
  let t := (s.setObj Obj.shedLevel level).latchLevels level
  { t with take := { t.take with levelOpen := level, margin := none } }.setDensities

/-- R43, R45: open the next take at a timestamp, if TAKE_CONTROL is RUN. -/
def State.openTake (s : State) (selfSlated : Bool) (ts : Nat) : State :=
  if s.obj Obj.takeControl = 0 then s
  else
    let a := (s.beginTake selfSlated ts).setOpeningLevel
    let b := (a.writeLotBlock (a.obj Obj.lineTakeNumber)).event 0x000 (unitOf 0xE 0) .ok 0
    (b.startActivation ts).openingFills.fireDue

/-- A take boundary: the open take closes and the next opens (R33, R43). -/
def State.boundary (s : State) (kind : Nat) (selfSlated : Bool) (ts : Nat) : State :=
  (s.closeTake kind ts).openTake selfSlated ts

/-! ## Slates -/

/-- The part accepts pulses: the journal is restored (R30), and it is not in or on its way to or from Standby (R385). -/
def State.linePaused (s : State) : Bool := !s.rst.restored || decide (s.obj Obj.deviceState ≠ 0)

/-- A pulse without effect (R30, R45); in reset it is not even counted (R377). -/
def State.ignorePulse (s : State) : State :=
  if s.inReset then s else (s.incObj Obj.ignoredPulses).log 0x202 (unitOf 0xE 0) .ok 0

/-- A slate ignored under the storm rules (R33). -/
def State.stormSlate (s : State) : State := (s.incObj Obj.slateStormCount).log 0x201 (unitOf 0xE 0) .ok 0

/-- A slate within SLATE_HOLDOFF_US of the last accepted one. -/
def State.heldOff (s : State) (ts : Nat) : Bool :=
  match s.time.lastSlate with
  | some t => decide (ts < t + s.governs Obj.slateHoldoffUs * tbPerUs)
  | none => false

/-- Remember an accepted slate. -/
def State.acceptSlate (s : State) (ts : Nat) : State :=
  { s with time := { s.time with lastSlate := some ts }, take := { s.take with slates := s.take.slates + 1 } }

/-- R34: re-anchor the open take at a late slate. -/
def State.reanchor (s : State) (ts : Nat) : State :=
  let a := (s.incObj Obj.lateSlates).event 0x064 (unitOf 0xE 0) .ok 0
  let n := a.obj Obj.lineTakeNumber
  { a.rebasePlant true ts with
    time := { (a.rebasePlant true ts).time with anchor := ts, advSinceAnchor := 0 },
    take := { a.take with lateAnchored := true, answers := a.take.answers.map (fun r =>
      if r.take = n then { r with lateAnchored := true } else r) } }

/-- R33: an early violation. -/
def State.earlyViolation (s : State) : State :=
  ((s.incObj Obj.earlySlates).event 0x063 (unitOf 0xE 0) .ok 0).setObj Obj.takeState 2

/-- R33, R35: classify an accepted slate of the open take. An early one too starts the hold-off anew (log 146). -/
def State.classifySlate (s : State) (ts : Nat) : State :=
  let pos := s.positionAt ts
  let first := decide (s.take.slates = 0)
  let t := s.acceptSlate ts
  if s.lengthL ≤ pos + s.earlyE ∧ pos ≤ s.lengthL + s.lateD then t.boundary 0 false ts
  else if s.take.selfSlated && first && decide (pos < s.lateD) then t.reanchor ts
  else t.earlyViolation

/-- What becomes of a slate (R30, R33, R45). Within the hold-off it is ignored and counted with no take open too
(log 146). -/
def State.takeSlate (s : State) (ts : Nat) : State :=
  if s.takeOpen then
    if s.heldOff ts || decide (s.obj Obj.takeState = 2) then s.stormSlate else s.classifySlate ts
  else if s.obj Obj.takeControl = 0 then s.ignorePulse
  else if s.heldOff ts then s.stormSlate
  else (s.acceptSlate ts).openTake false ts

/-- A pulse that stayed high long enough (R22). -/
def pulseQualifies (width : Nat) : Bool := decide (64 ≤ width)

/-! ## Accepted ADV pulses -/

/-- R26: the smoothed period after an interval. -/
def State.smoothed (s : State) (p : Nat) : Nat :=
  ((s.time.period : Int) + Int.tdiv ((p : Int) - s.time.period) (2 ^ s.governs Obj.advSmoothShift)).toNat

/-- R26: an ADV pulse with this timestamp comes early enough after the last one to be ignored. -/
def State.advStorm (s : State) (ts : Nat) : Bool := s.time.advSeen && decide (ts < s.time.lastAdv + s.advMinTb)

/-- An accepted ADV pulse (R24 to R26, R47). -/
def State.acceptAdv (s : State) (ts : Nat) : State :=
  let counts := s.takeOpen && !s.plantSource
  let t := { s.incObj Obj.advAccepted with time := { s.time with
      period := if s.time.advSeen then s.smoothed (ts - s.time.lastAdv) else s.time.period,
      advSeen := true, lastAdv := ts, silenceRaised := false,
      advSinceAnchor := if counts then satAdd 32 s.time.advSinceAnchor 1 else s.time.advSinceAnchor } }
  (t.fireDueAt ts).forecast

/-! ## Equal timestamps (R35) -/

/-- The TB counts that pass before a command. -/
def elapsedBefore : Instr → Nat
  | .sync0 dt _ => dt
  | .processDataUpdate dt _ => dt
  | .advPulse dt _ => dt
  | .advSilence dt => dt
  | .slate dt _ => dt
  | .earlyClose dt => dt
  | .selfSlate dt => dt
  | .reelPlacement dt => dt
  | .dailiesSwitch dt => dt
  | .cueFire dt => dt
  | .reorderHoldExpiry dt _ => dt
  | .remoteTimeout dt _ => dt
  | .reissue dt _ => dt
  | .peerSilence dt _ => dt
  | .laserLow dt _ => dt
  | .laserRestored dt _ => dt
  | .bringupRetry dt _ => dt
  | .fabricUpTimeout dt => dt
  | .stepRecordLapse dt _ _ => dt
  | .arbCommitInstant dt => dt
  | .sequencerStall dt _ => dt
  | .cnRequestTimeout dt _ => dt
  | .deviceWatchdogExpiry dt => dt
  | .coalesceTimeRelease dt _ => dt
  | .functionLevelReset dt => dt
  | .answerPublish dt => dt
  | .dictionaryResetStart dt => dt
  | .standbyEntry dt => dt
  | .standbyExit dt => dt
  | .journalRecordDurable dt _ => dt
  | .compaction dt _ => dt
  | .regionEraseDone dt => dt
  | .journalRestore dt => dt
  | .syncError dt => dt
  | .sm2Watchdog dt => dt
  | .pwrGoodFall dt => dt
  | .pwrGoodRise dt => dt
  | .rstNAssert dt => dt
  | .rstNRise dt => dt
  | .perstNAssert dt => dt
  | .perstNRise dt => dt
  | .cfgSenseSample dt _ => dt
  | .clockGood dt _ => dt
  | .clockGoodTimeout dt _ => dt
  | .bootVerify dt => dt
  | .bistComplete dt _ => dt
  | .tempSample dt _ => dt
  | .thermalRelease dt _ => dt
  | .sync0Absence dt => dt
  | _ => 0

/-- Whether one of the commands that wait, with its TB_COUNT, is of a kind. -/
def eventWaits (hit : Nat → Instr → Bool) : Nat → List Instr → Bool
  | _, [] => false
  | t, c :: cs => hit (t + elapsedBefore c) c || eventWaits hit (t + elapsedBefore c) cs

/-- An ADV pulse with this timestamp waits, and will be accepted (R35). What carries the same timestamp and is not in the
queue yet cannot be known (log 150). -/
def State.advWaits (s : State) (ts : Nat) : Bool :=
  s.rst.restored && !(s.advStorm ts) && eventWaits (fun t c =>
    match c with
    | .advPulse _ w => pulseQualifies w && minusDelay t (s.objInt Obj.effAdvInDelay 16) == ts
    | _ => false) s.time.tb s.pending

/-- A slate with this timestamp waits, from the pin or from process data, and the hold-off lets it through (R35; log 150). -/
def State.slateWaits (s : State) (ts : Nat) : Bool :=
  !(s.heldOff ts) && eventWaits (fun t c =>
    match c with
    | .slate _ w => !s.plantSource && pulseQualifies w && minusDelay t (s.objInt Obj.effSlateInDelay 16) == ts
    | .sync0 _ _ => s.latchesPlant && s.lotChanged && t == ts
    | _ => false) s.time.tb s.pending

/-- R35: an ADV pulse that carries the timestamp of a slate is applied ahead of it. -/
def State.applyWaitingAdv (s : State) (ts : Nat) : State :=
  if s.advWaits ts then
    let t := s.acceptAdv ts
    { t with time := { t.time with advApplied := some ts } }
  else s

/-- A slate with its timestamp, from a pin or from process data. -/
def State.slateAt (s : State) (ts : Nat) : State := (s.applyWaitingAdv ts).takeSlate ts

/-- SLATE (R22, R30, R33): a pulse on SLATE_IN. Under the process-data source the pin has no effect (R27). -/
def execSlate (dt width : Nat) (s : State) : Host.Outcome State Fault Refusal :=
  let t := s.advance dt
  .next (if !(pulseQualifies width) then t
    else if t.linePaused then t.ignorePulse
    else if t.plantSource then t
    else t.slateAt t.slateStamp)

/-- EARLY_CLOSE (R33): POSITION has reached L − E in EARLY_PENDING. -/
def execEarlyClose (dt : Nat) (s : State) : Host.Outcome State Fault Refusal :=
  let t := s.advance dt
  .next (if t.obj Obj.takeState = 2 ∧ t.lengthL ≤ t.position + t.earlyE then t.boundary 1 false t.time.tb else t)

/-- SELF_SLATE (R33, R35): POSITION has reached L + D with no accepted slate, and none comes at this very count. -/
def execSelfSlate (dt : Nat) (s : State) : Host.Outcome State Fault Refusal :=
  let t := s.advance dt
  .next (if t.obj Obj.takeState = 1 ∧ t.lengthL + t.lateD ≤ t.position ∧ t.slateWaits t.time.tb = false then
    ((t.incObj Obj.selfSlates).event 0x065 (unitOf 0xE 0) .ok 0).boundary 2 true t.time.tb else t)

/-! ## ADV pulses -/

/-- An ADV pulse that stayed high long enough (R26, R30); one applied ahead of a slate has had its effect (R35). -/
def State.takeAdv (s : State) (ts : Nat) : State :=
  if !s.rst.restored then s.ignorePulse
  else if s.time.advApplied = some ts then { s with time := { s.time with advApplied := none } }
  else if s.advStorm ts then (s.incObj Obj.advStormCount).log 0x200 (unitOf 0xE 0) .ok 0
  else s.acceptAdv ts

/-- ADV_PULSE (R22, R26, R30). -/
def execAdvPulse (dt width : Nat) (s : State) : Host.Outcome State Fault Refusal :=
  let t := s.advance dt
  .next (if pulseQualifies width then t.takeAdv t.advStamp else t)

/-- R32: the silence has lasted ADV_SILENCE_PERIODS × P; it runs from the restore while no pulse has come, whose
TB_COUNT the restore puts in `lastAdv`. -/
def State.silent (s : State) : Bool :=
  s.rst.restored && !s.time.silenceRaised &&
    decide (s.time.lastAdv + s.governs Obj.advSilencePeriods * s.time.period ≤ s.time.tb)

/-- ADV_SILENCE (R32). -/
def execAdvSilence (dt : Nat) (s : State) : Host.Outcome State Fault Refusal :=
  let t := s.advance dt
  .next (if t.silent then
    { t with time := { t.time with silenceRaised := true } }.event 0x062 (unitOf 0xE 0) .ok 0 else t)

/-! ## Placement (R56, R60) -/

/-- R56: the physical tiles of logical tiles 0, 1, ... -/
def State.placement (s : State) (r : Reel) : List Nat :=
  let e0 := s.placeable.filter (fun p => tileDie p == 0)
  let e1 := s.placeable.filter (fun p => tileDie p == 1)
  let n0 := min (min r.dx0Share r.tileBudget) e0.length
  (e0.take n0 ++ e1 ++ e0.drop n0).take r.tileBudget

/-- The bytes of a logical tile's descriptors in the image (R58, R443). -/
def State.descriptorBytes (s : State) (r : Reel) (l : Nat) : List Byte :=
  (List.range (r.descriptorCount * 64)).map (fun i =>
    s.hbmByte true (r.base + r.descriptorTable + l * r.descriptorCount * 64 + i))

/-- The loader copies a logical tile's descriptors to its tile store (R58), with what its reads of HBM find (R257); lost
bytes arrive as zeros (log 163). -/
def State.loadDescriptors (s : State) (r : Reel) (l p : Nat) : State :=
  (s.hbmTouch true (r.base + r.descriptorTable + l * r.descriptorCount * 64) (r.descriptorCount * 64)).1.storeWrite p 0
    (s.descriptorBytes r l)

/-- A logical tile of a newly active reel: queue and ring empty, flags 0; what belongs to the package's fabric port or
to the take's counts stays (R60). -/
def LogTile.renew (t : LogTile) (phys : Option Nat) (level : Nat) : LogTile :=
  { LogTile.fresh with phys := phys, lastDie := tileDie (phys.getD 0), stepLevel := level, seqs := t.seqs,
                       phaseCycles := t.phaseCycles, completed := t.completed }

/-- Every logical tile is free of commands of the earlier reel. -/
def State.reelDone (s : State) : Bool := s.tiles.all (fun e => e.2.phys.isNone || !(e.2.hasWork))

/-! ## Sleep (R381, R382) -/

/-- A tile goes to sleep: its memories and its random table are lost. -/
def PhysTile.sleep (t : PhysTile) : PhysTile := { t.afterReset with sleeping := true, waking := false, idle := false }

/-- The PLL of a sleeping tile is off: its domain is in reset until clock-good releases it again (R373, R381). -/
def State.stopClock (s : State) (p : Nat) : State :=
  { s with rst := { s.rst with domains := s.rst.domains.filter (fun d => d != .tile p) } }

/-- A tile is put to sleep. -/
def State.sleepTile (s : State) (p : Nat) : State := (s.setPt p (s.pt p).sleep).stopClock p

/-- A tile out of Sleep: its random table is filled (R214). What was written to it since its power came up stays (log
183). -/
def PhysTile.wake (t : PhysTile) : PhysTile := { t with sleeping := false, waking := false, filling := true }

/-- A tile that sleeps is woken (R381): at once where its domain is released, as at the exit from Standby; else its clock
is started, and clock-good ends the wake (R373). -/
def State.wakeTile (s : State) (p : Nat) : State :=
  let t := s.pt p
  if !t.sleeping then s
  else if s.rst.domains.contains (.tile p) then s.setPt p t.wake
  else s.setPt p { t with waking := true }

/-- R382: with RESERVE_SLEEP 1 every reserve tile sleeps, with 0 none does. -/
def State.restReserve (s : State) : State :=
  s.reserve.foldl (fun (t : State) p =>
    if t.obj Obj.reserveSleep = 1 then (if (t.pt p).sleeping && !(t.pt p).waking then t else t.sleepTile p)
    else t.wakeTile p) s

/-- Place the logical tiles of a reel. -/
def State.placeReel (s : State) (r : Reel) : State :=
  let place := s.placement r
  let level := s.take.levelOpen
  let tiles := (s.tiles.filter (fun e => decide (r.tileBudget ≤ e.1))).map (fun e => (e.1, e.2.renew none level))
  let used := (List.range r.tileBudget).map (fun l => (l, (s.lt l).renew place[l]? level))
  let a : State := { s with
    tiles := used ++ tiles, mem := { s.mem with snQueue := [] },
    phys := s.phys.map (fun e => (e.1, { e.2 with vregs := [], vgen := e.2.vgen + 1 })) }
  (place.zipIdx.foldl (fun (t : State) q => (t.wakeTile q.1).loadDescriptors r q.2 q.1) a).restReserve

/-- Step 3 of R60: the reel becomes active. -/
def State.completeActivation (s : State) (r : Reel) : State :=
  let a := ({ s with reels := { s.reels with active := some r, activating := none, activatedTb := s.time.tb } }.startSteps
    r).placeReel r
  let b := a.startFills (fun x => !(x.filling || x.tableFill == .filled r.seed))
  let held := b.take.heldCues
  let c := { b with take := { b.take with
    heldCues := [], cues := b.take.cues.map (fun x => { x with ofNewReel := false }) } }
  held.foldl (fun (t : State) x => t.cueEffect x.entry) c

/-- R60: too few tiles remain; the earlier reel stays active and its cues are armed. -/
def State.failActivation (s : State) : State :=
  let t := s.dropActivation
  let u := { t with take := { t.take with
    heldCues := [], cues := t.take.cues.filter (fun x => !x.ofNewReel) } }
  let v := match u.reels.active with
    | some r => u.armReel u.time.tb r false
    | none => u
  (v.log 0x240 0 .outOfRange 0).fireDue

/-- REEL_PLACEMENT (R60): once the earlier reel's commands have completed, the reel being activated is placed; never at
TB_COUNT 0 (R168). -/
def execReelPlacement (dt : Nat) (s : State) : Host.Outcome State Fault Refusal :=
  let t := (s.advance dt).fireDue
  .next (match t.reels.activating with
    | none => t
    | some r =>
      if !t.reelDone || t.time.tb == 0 then t
      else if t.enabledTiles < r.tileBudget then t.failActivation
      else t.completeActivation r)

end Sys2Proof.Machine
end

