-- ==== Sys2Proof/Machine/Spare.lean ====
section
/-!
DEFINITION. Fencing a tile and moving its logical number to a reserve tile (R57, R180, R181, R374, R375, R382, R412).
-/

namespace Sys2Proof.Machine

open Sys2Proof

/-! ## Completions of a fenced tile -/


/-- A completion record with ISOLATED for a command in flight or queued that will be fetched again (R57); its cycles count
toward its phase as those of any completed command (R65). -/
def State.isolateEntry (s : State) (l p : Nat) (e : QEntry) : State :=
  let t := (s.lt l).writeRecord (completionRecord e.x (statusCode .isolated) l p s.freeCycles 0 0
    (s.obj Obj.lineTakeNumber) s.time.tb)
  (s.useFree.setLt l (t.countCycles e s.freeCycles)).commandEvent l e.x .isolated

/-- Complete the command at the head of the queue with ISOLATED for good, or fetch the next one (R57). -/
def State.isolateNext (s : State) (l p : Nat) : State :=
  match (s.lt l).queue with
  | e :: _ => State.complete l p s.freeCycles e (Done.only s.useFree .isolated)
  | [] => s.fetchNext l

/-- Commands of a tile that are queued or still to be fetched. -/
def LogTile.remainingCount (t : LogTile) : Nat :=
  t.queue.length + t.replays.length + listSum (t.streams.map (fun x => x.count - x.next))

/-- R57 with no restart point: every command of the streams in progress completes with ISOLATED, and R411 applies. -/
def State.isolateAll (s : State) (l p : Nat) : State :=
  let t := s.lt l
  let a := (List.range (2 * t.remainingCount + t.streams.length)).foldl (fun (u : State) _ => u.isolateNext l p)
    (s.setLt l { t with replayPending := none })
  a.failTake

/-! ## The restart point (R57, R180) -/

/-- The next record that a tile's streams will deliver carries RESTART_MARK. -/
def State.nextIsMark (s : State) (l : Nat) : Bool :=
  match (s.lt l).streams.find? (fun x => decide (x.next < x.count)), s.reels.active with
  | some x, some r => recMark (s.streamRecord r l x.phase x.next).toNat
  | _, _ => false

/-- The restart point of a tile with a command that has not completed: the latest mark at or before the earliest such
command, if there is one. A replay in place that was still to start begins no later, and is by itself a reason to restart
(R409). -/
def State.restartPoint (s : State) (l : Nat) : Option (Option Nat) :=
  let t := s.lt l
  match t.earliest with
  | none => t.replayPending.map some
  | some i =>
    let mark := if i = t.full.length && s.nextIsMark l then some i else t.markBefore i
    some (mark.map (fun m => min m (t.replayPending.getD m)))

/-- The logical tile loses its place: its commands are answered, and where it will restart and what it will replay is kept
(R180). Remote operations that have left the port stay until they are answered (R181). -/
def State.unplace (s : State) (l p : Nat) : State :=
  let point := s.restartPoint l
  let upTo := (s.lt l).earliest
  let a := match point with
    | some (some _) => (s.lt l).queue.foldl (fun (u : State) e => u.isolateEntry l p e) s
    | some none => s.isolateAll l p
    | none => s
  let t := a.lt l
  a.setLt l { t with phys := none, queue := [], run := none, staged := none, replayPending := none, lastDie := tileDie p,
                     ops := t.ops.filter (fun o => o.sent), restartAt := point.join, replayTo := upTo }

/-! ## Placement on a reserve tile -/

/-- The reserve tile that R57 names: the lowest-numbered on the die that held the tile, else on the other die. -/
def State.spareFor (s : State) (die : Nat) : Option Nat :=
  match s.reserve.find? (fun p => tileDie p == die) with
  | some p => some p
  | none => s.reserve.head?

/-- Move a logical tile onto a physical tile: descriptors are loaded, and the stream restarts at its mark. -/
def State.placeOn (s : State) (l p : Nat) : State :=
  let a := s.wakeTile p
  let t := a.lt l
  let u := match t.restartAt with
    | some m => t.restartFrom m t.replayTo
    | none => { t with queue := [], run := none, staged := none }
  let b := a.setLt l { u with phys := some p }
  match b.reels.active with
  | some r => b.loadDescriptors r l p
  | none => b

/-- The logical tile waits for a place: it belongs to the active reel, has none, and its fabric port is quiet. -/
def State.needsPlace (s : State) (l : Nat) : Bool :=
  let t := s.lt l
  decide (l < s.budget) && t.phys.isNone && t.ops.isEmpty

/-- Place a logical tile that needs it, if a reserve tile is left. -/
def State.tryPlace (s : State) (l : Nat) : State :=
  if !(s.needsPlace l) then s
  else match s.spareFor (s.lt l).lastDie with
    | some p => s.placeOn l p
    | none => s

/-- R412: without a reserve tile the logical tile is unplaced, and R411 applies. -/
def State.noteUnplaced (s : State) (l : Nat) : State :=
  if decide (l < s.budget) && (s.lt l).phys.isNone && s.reserve.isEmpty then s.failTake else s

/-- The reduction rounds of a logical tile end with the tile store that held them. -/
def State.dropRounds (s : State) (l : Nat) : State :=
  { s with fabric := { s.fabric with
      rounds := s.fabric.rounds.filter (fun (r : Round) => r.tile != l),
      ready := s.fabric.ready.filter (fun r => r.1 != l) } }

/-! ## Fencing a tile -/

/-- A block is fenced: one event in G10 (R375), one counted fault (R407). -/
def State.noteFence (s : State) (b : Block) : State := (s.event 0x143 (blockUnit b) .isolated 0).countFault

/-- The tile is fenced: a second fence since the last reset makes it unusable (R375), and then it sleeps (R382). -/
def PhysTile.fence (t : PhysTile) : PhysTile :=
  if 1 ≤ t.fences then { t.sleep with fenced := true, fences := t.fences + 1, unusable := true }
  else { t with fenced := true, fences := t.fences + 1 }

/-- R57: the logical tile that a physical tile holds, if any, leaves it for a reserve tile. -/
def State.moveFrom (s : State) (p : Nat) : State :=
  match s.logicalOf p with
  | none => s
  | some l => (((s.unplace l p).dropRounds l).tryPlace l).noteUnplaced l

/-- R57, R375: fence a physical tile and move its logical number. -/
def State.fenceTile (s : State) (p : Nat) : State :=
  if s.inReset ∨ s.part.variant.tiles ≤ p then s
  else if (s.pt p).fenced then s
  else
    let b := s.setPt p (s.pt p).fence
    ((if (b.pt p).unusable then b.stopClock p else b).noteFence (.tile p)).moveFrom p

/-- A tile passes its self-test after a fence: it returns as a reserve tile, its memories unspecified (R375, R444), and
takes the first logical tile that has no place (R412). -/
def State.returnTile (s : State) (p : Nat) : State :=
  let a := s.setPt p { (s.pt p).afterReset with fenced := false }
  match (List.range a.budget).find? a.needsPlace with
  | some l => a.tryPlace l
  | none => if a.obj Obj.reserveSleep = 1 then a.sleepTile p else a

end Sys2Proof.Machine
end

