-- ==== Sys2Proof/Machine/Fabric.lean ====
section
/-!
DEFINITION. The ports and links of the optical fabric: routing, channels, credits, replay, refusals and a port going
down (R276 to R282, R285 to R288, R297, R299, R301).
-/

namespace Sys2Proof.Machine

open Sys2Proof

/-! ## Codes -/

/-- OP codes of R280. -/
def pktIdle : Nat := 0
def pktPut : Nat := 1
def pktPutSignal : Nat := 2
def pktGetReq : Nat := 3
def pktSignal : Nat := 4
def pktAcc : Nat := 5
def pktResponse : Nat := 6
def pktGetData : Nat := 7
def pktControl : Nat := 8

/-- Channel codes of R288. -/
def chRequest : Nat := 0
def chResponse : Nat := 1
def chControl : Nat := 2
def chDispatch : Nat := 3

/-- STATE of PORT_STATUS (R301). -/
def portDark : Nat := 0
def portTraining : Nat := 1
def portUp : Nat := 2
def portDownState : Nat := 3
def portHeldDark : Nat := 4
def portMismatch : Nat := 5

/-- FABRIC_STATE (R300). -/
def fabricDark : Nat := 0
def fabricBringup : Nat := 1
def fabricUp : Nat := 2
def fabricHeldDark : Nat := 3
def fabricAbsent : Nat := 4

/-- OP belongs to its CHANNEL (R288). -/
def channelCarries (ch op : Nat) : Bool :=
  if ch = chRequest then decide (1 ≤ op ∧ op ≤ 5)
  else if ch = chResponse then op == pktResponse || op == pktGetData
  else if ch = chControl then op == pktControl
  else op == pktPut || op == pktPutSignal

/-! ## The header (R279) -/

/-- Fields laid side by side, the first lowest, each cut to its width. -/
def packFields : List (Nat × Nat) → Nat
  | [] => 0
  | f :: fs => f.2 % 2 ^ f.1 + 2 ^ f.1 * packFields fs

/-- Header bits [223:0]: bytes 0 to 27. -/
def packetHead (q : Packet) : Nat :=
  packFields [(4, q.op), (2, q.channel), (1, q.first.toNat), (1, q.last.toNat), (6, q.dstRack), (6, q.dstPackage),
    (6, q.srcRack), (6, q.srcPackage), (8, q.srcTile), (9, q.length), (6, q.hops), (1, q.linkNak.toNat), (48, q.addr),
    (10, q.flag), (6, q.reserved), (32, q.addend), (16, q.kslice), (16, q.e2eSeq), (8, q.status), (12, q.linkSeq),
    (12, q.ackSeq), (2, q.creditChannel), (6, q.creditCount)]

/-- The header of 256 bits, with its payload. -/
def packetOfLine (h : Nat) (payload : List Byte) : Packet :=
  { op := bitsOf h 3 0, channel := bitsOf h 5 4, first := bitAt h 6, last := bitAt h 7, dstRack := bitsOf h 13 8,
    dstPackage := bitsOf h 19 14, srcRack := bitsOf h 25 20, srcPackage := bitsOf h 31 26, srcTile := bitsOf h 39 32,
    length := bitsOf h 48 40, hops := bitsOf h 54 49, linkNak := bitAt h 55, addr := bitsOf h 103 56,
    flag := bitsOf h 113 104, reserved := bitsOf h 119 114, addend := bitsOf h 151 120, kslice := bitsOf h 167 152,
    e2eSeq := bitsOf h 183 168, status := bitsOf h 191 184, linkSeq := bitsOf h 203 192, ackSeq := bitsOf h 215 204,
    creditChannel := bitsOf h 217 216, creditCount := bitsOf h 223 218, hcrc := bitsOf h 255 224, payload := payload }

/-- HCRC: CRC-32C over header bytes 0 to 27 and the payload. -/
def packetCrc (q : Packet) : Nat := (crc32c (leBytes 28 (packetHead q) ++ q.payload)).toNat

/-- The packet with its HCRC. -/
def sealPacket (q : Packet) : Packet := { q with hcrc := packetCrc q }

/-! ## Ports -/

/-- Packet buffers of a channel at a receiving port (R281). -/
def linkBuffers (ch : Nat) : Nat := if ch = chControl then 16 else 64

/-- A port as bring-up leaves the link: numbers at 0, every buffer of the peer free. -/
def Port.fresh : Port :=
  { state := 0, rxSpare := none, txSpare := none, peerRack := 0, peerPackage := 0, peerRole := 0, txSeq := 0, rxSeq := 0,
    replayBuffer := [], txQueue := [], owners := [112, 112, 112, 112], credits := [64, 64, 16, 64], owed := [0, 0, 0, 0],
    waited := [0, 0, 0, 0],
    replays := 0, nakWanted := false, unusable := false, dead := false }

/-- A port that is down, its link gone. -/
def Port.heldDown (p : Port) : Port := { Port.fresh with state := portDownState, unusable := p.unusable, dead := p.dead }

/-- A port that is dark; one that failed BIST or was marked unusable is held down instead (R389). -/
def Port.dark (p : Port) : Port := if p.unusable then p.heldDown else { Port.fresh with dead := p.dead }

/-- A port. -/
def State.port (s : State) (k : Nat) : Port := Tab.read s.fabric.ports Port.fresh k

/-- Replace a port. -/
def State.setPort (s : State) (k : Nat) (p : Port) : State :=
  { s with fabric := { s.fabric with ports := Tab.put s.fabric.ports k p } }

/-- PORT_ROLE (R285). -/
def State.portRole (s : State) (k : Nat) : Nat := s.obj (Obj.portRole + k)

/-- The part has optics. -/
def State.hasOptics (s : State) : Bool := decide (0 < s.part.variant.ports)

/-- CFG_SENSE holds the fabric dark (R378). -/
def State.heldDark (s : State) : Bool := bitAt s.rst.cfgCode 3

/-- The ports that take part in bring-up: fitted, with a role, and neither fenced nor marked unusable (R375, R390). -/
def State.enabledPorts (s : State) : List Nat :=
  (List.range s.part.variant.ports).filter (fun k =>
    decide (s.portRole k ≠ 0) && !(s.port k).unusable && !(s.blockDown (.port k)))

/-- Count in a fabric counter of the take, by its subindex of 0x2600. -/
def State.bumpFabric (s : State) (sub n : Nat) : State :=
  { s with take := { s.take with fabric := Tab.store s.take.fabric 0 sub (Tab.read s.take.fabric 0 sub + n) } }

/-- PORTS_UP as the ports stand. -/
def State.portsUpMask (s : State) : Nat :=
  listSum ((List.range s.part.variant.ports).map (fun k => if (s.port k).state = portUp then 2 ^ k else 0))

/-- FABRIC_STATE becomes UP, with one event in G8 (R299). -/
def State.fabricComesUp (s : State) : State := (s.setObj Obj.fabricState fabricUp).event 0x104 0 .ok 0

/-- PORTS_UP follows the ports, and the fabric is up once every enabled port is (R299). -/
def State.refreshFabric (s : State) : State :=
  let t := s.setObj Obj.portsUp s.portsUpMask
  if t.obj Obj.fabricState = fabricBringup ∧ t.enabledPorts.all (fun k => (t.port k).state == portUp)
  then t.fabricComesUp else t

/-! ## Sending over a link (R281, R288) -/

/-- The channels from the highest priority to the lowest (R288). -/
def channelOrder : List Nat := [chResponse, chControl, chDispatch, chRequest]

/-- The requester class codes that reach an optical injection arbiter (R271). -/
def classTile : Nat := 1
def classFabric : Nat := 2
def classDispatch : Nat := 3
def classFirmware : Nat := 5

/-- A tile at an injection arbiter: DISPATCH for ROUTE's puts, TILE otherwise (R271). -/
def tileVia (p channel : Nat) : Via :=
  { requester := p % 96, cls := if channel = chDispatch then classDispatch else classTile }

/-- An optical port with a response or with transit traffic (R271). -/
def portVia (k : Nat) : Via := { requester := 96 + k % 16, cls := classFabric }

/-- The control complex (R271). -/
def controlVia : Via := { requester := 112, cls := classFirmware }

/-- The packets that wait on a channel, each requester's in its order. -/
def Port.waiting (p : Port) (ch : Nat) : List TxEntry := p.txQueue.filter (fun e => e.pkt.channel == ch)

/-- PRIORITY_IN_FORCE of a class at the injection arbiters (R275). -/
def State.injectPriority (s : State) (cls : Nat) : Nat := s.obj (objKey 0x2A12 cls)

/-- How far a requester lies behind the most recent owner in requester order; the owner itself lies last (R272). -/
def afterOwner (owner r : Nat) : Nat := (r + 112 - owner) % 113

/-- R272: one waiting packet goes before another. -/
def State.goesBefore (s : State) (owner : Nat) (a b : TxEntry) : Bool :=
  decide (s.injectPriority b.via.cls < s.injectPriority a.via.cls) ||
    (s.injectPriority b.via.cls == s.injectPriority a.via.cls &&
      decide (afterOwner owner a.via.requester < afterOwner owner b.via.requester))

/-- R272: the packet that a channel's injection arbiter grants. The requester whose burst has just ended is left out
while another is seen. -/
def State.grant (s : State) (p : Port) (ch : Nat) (ended : Option Nat) : Option TxEntry :=
  let all := p.waiting ch
  let others := all.filter (fun e => ended != some e.via.requester)
  (if others.isEmpty then all else others).foldl (fun (best : Option TxEntry) e =>
    match best with
    | some b => if s.goesBefore (p.owners.getD ch 112) e b then some e else some b
    | none => some e) none

/-- A channel may send: it has a packet and a credit. -/
def Port.eligible (p : Port) (ch : Nat) : Bool := !(p.waiting ch).isEmpty && decide (0 < p.credits.getD ch 0)

/-- R288: the channel that sends next; one that seven packets have passed comes first. -/
def Port.nextChannel (p : Port) : Option Nat :=
  match channelOrder.find? (fun c => p.eligible c && decide (7 ≤ p.waited.getD c 0)) with
  | some c => some c
  | none => channelOrder.find? p.eligible

/-- A channel whose buffers the part has still to return. -/
def Port.owedChannel (p : Port) : Option Nat := [0, 1, 2, 3].find? (fun c => decide (0 < p.owed.getD c 0))

/-- Put the acknowledgment and the returned credits of a port into a header that leaves it, and its HCRC (R279, R281). -/
def Port.stamp (p : Port) (q : Packet) : Port × Packet :=
  let ack := (p.rxSeq + 4095) % 4096
  match p.owedChannel with
  | some c =>
    let n := min (p.owed.getD c 0) 63
    ({ p with owed := p.owed.modify c (fun x => x - n) },
     sealPacket { q with ackSeq := ack, creditChannel := c, creditCount := n })
  | none => (p, sealPacket { q with ackSeq := ack, creditChannel := 0, creditCount := 0 })

/-- The channels below `c` that wait with a packet have been passed once more (R288). -/
def Port.passed (p : Port) (c : Nat) : List Nat :=
  (List.range 4).map (fun d =>
    if d = c then 0
    else if (channelOrder.idxOf c < channelOrder.idxOf d) && !(p.waiting d).isEmpty then p.waited.getD d 0 + 1
    else p.waited.getD d 0)

/-- Send one packet of a channel: numbered, kept for replay, against a credit; its requester is the most recent owner. -/
def Port.sendOne (p : Port) (c : Nat) (e : TxEntry) : Port × TxEntry :=
  let r := p.stamp { e.pkt with linkSeq := p.txSeq, linkNak := false }
  let sent := { e with pkt := r.2 }
  ({ r.1 with txSeq := (p.txSeq + 1) % 4096, replayBuffer := p.replayBuffer ++ [sent], txQueue := p.txQueue.erase e,
              owners := p.owners.set c e.via.requester, credits := p.credits.modify c (fun x => x - 1),
              waited := p.passed c }, sent)

/-- A packet leaves a port. -/
def State.emitEntry (s : State) (k : Nat) (e : TxEntry) : State :=
  let t := s.wakeBlock (.port k)
  match e.msg with
  | some m => t.emit (.control k e.pkt m)
  | none => t.emit (.packet k e.pkt)

/-- Send queued packets while the port is up, its replay buffer has room and a channel may send. `ended` is the channel
and the requester of the packet just sent. -/
def State.pumpPort (k : Nat) : Nat → Option (Nat × Nat) → State → State
  | 0, _, s => s
  | n + 1, ended, s =>
    let p := s.port k
    if decide (p.state ≠ portUp) || decide (2048 ≤ p.replayBuffer.length) then s
    else match p.nextChannel with
      | none => s
      | some c =>
        match s.grant p c ((ended.filter (fun x => x.1 == c)).map (fun x => x.2)) with
        | none => s
        | some e =>
          let r := p.sendOne c e
          State.pumpPort k n (some (c, e.via.requester)) ((s.setPort k r.1).emitEntry k r.2)

/-- Send what a port can send now. -/
def State.pump (s : State) (k : Nat) : State := State.pumpPort k ((s.port k).txQueue.length + 1) none s

/-- A blank header. -/
def blankPacket : Packet :=
  { op := 0, channel := 0, first := true, last := true, dstRack := 0, dstPackage := 0, srcRack := 0, srcPackage := 0,
    srcTile := 0, length := 0, hops := 0, linkNak := false, addr := 0, flag := 0, reserved := 0, addend := 0, kslice := 0,
    e2eSeq := 0, status := 0, linkSeq := 0, ackSeq := 0, creditChannel := 0, creditCount := 0, hcrc := 0, payload := [] }

/-- Send an IDLE with the port's acknowledgment, and LINK_NAK where replay is requested (R281). -/
def State.sendIdle (s : State) (k : Nat) (nak : Bool) : State :=
  let r := (s.port k).stamp { blankPacket with linkNak := nak }
  (s.setPort k r.1).emit (.packet k r.2)

/-- IDLE packets carry the credits that nothing else has carried. -/
def State.returnCredits (s : State) (k : Nat) : State :=
  if (s.port k).owedChannel.isSome then s.sendIdle k false else s

/-! ## Routing (R286) -/

/-- The part's own global identity. -/
def State.ownId (s : State) : Nat := 64 * s.obj Obj.ownRack + s.obj Obj.ownPackage

/-- The ports of a route entry, primary first. -/
def routePorts (e : Nat) : List Nat :=
  (if bitAt e 5 then [bitsOf e 4 0] else []) ++ (if bitAt e 13 then [bitsOf e 12 8] else []) ++
    (if bitAt e 21 then [bitsOf e 20 16] else [])

/-- Whether an entry for another rack, or for a package of the own rack, may use a port of a role. -/
def roleAllowed (otherRack : Bool) (role : Nat) : Bool :=
  if otherRack then role == 3 else role == 1 || role == 2

/-- R286: the port toward a package. -/
def State.routePort (s : State) (rack pkg : Nat) : Option Nat :=
  let other := decide (rack ≠ s.obj Obj.ownRack)
  let e := if other then s.obj (Obj.rackRoute + rack) else s.obj (Obj.packageRoute + pkg)
  (routePorts e).find? (fun k => roleAllowed other (s.portRole k) && (s.port k).state == portUp)

/-- R286: why a packet cannot go on, if so. -/
def State.routeFault (s : State) (q : Packet) : Option Status :=
  if s.obj Obj.hopLimit ≤ q.hops then some .hopLimit
  else if (s.routePort q.dstRack q.dstPackage).isNone then some .unmapped
  else none

/-- A packet as it waits at a port: one more transmission (R286). -/
def TxEntry.hop (e : TxEntry) : TxEntry := { e with pkt := { e.pkt with hops := e.pkt.hops + 1 } }

/-- Queue a packet on a port and send what can be sent. -/
def State.queueOn (s : State) (k : Nat) (e : TxEntry) : State :=
  (s.setPort k { s.port k with txQueue := (s.port k).txQueue ++ [e.hop] }).pump k

/-- R286 for a packet that passes: forward it. -/
def State.forward (s : State) (e : TxEntry) : State :=
  match s.routePort e.pkt.dstRack e.pkt.dstPackage with
  | some k => s.queueOn k e
  | none => s

/-- Route a packet that is never refused: with no way on it is lost (R297). -/
def State.routeOrDrop (s : State) (via : Via) (q : Packet) : State :=
  if (s.routeFault q).isNone then s.forward { pkt := q, msg := none, via := via } else s

/-! ## Refusals and responses (R279, R297) -/

/-- The sender of a packet. -/
def pktSrc (q : Packet) : SrcId := { rack := q.srcRack, package := q.srcPackage, tile := q.srcTile, channel := q.channel }

/-- The global identity of a packet's destination. -/
def pktDst (q : Packet) : Nat := 64 * q.dstRack + q.dstPackage

/-- The global identity of a packet's source. -/
def pktSrcId (q : Packet) : Nat := 64 * q.srcRack + q.srcPackage

/-- The RESPONSE to an operation, given its LAST packet: SRC_TILE names the tile that issued the operation, E2E_SEQ its
LAST packet (log 38). -/
def responseTo (s : State) (q : Packet) (st : Status) : Packet :=
  { blankPacket with
    op := pktResponse, channel := chResponse, dstRack := q.srcRack, dstPackage := q.srcPackage,
    srcRack := s.obj Obj.ownRack, srcPackage := s.obj Obj.ownPackage, srcTile := q.srcTile, e2eSeq := q.e2eSeq,
    status := statusCode st }

/-- Give the answer to an operation of a tile's fabric port. -/
def LogTile.answerOp (t : LogTile) (f : RemoteOp → Bool) (st : Status) : LogTile :=
  { t with ops := t.ops.map (fun o => if f o then { o with answer := some st, reissuing := false } else o) }

/-- An operation awaits the answer that names its LAST packet; of two channels the operation issued first (log 38). -/
def RemoteOp.awaits (o : RemoteOp) (dst seq : Nat) : Bool :=
  o.sent && !o.own && o.answer.isNone && o.dst == dst && o.lastSeq == seq

/-- The place of the operation that an answer is for. -/
def LogTile.awaiting (t : LogTile) (dst seq : Nat) : Option Nat := t.ops.findIdx? (fun o => o.awaits dst seq)

/-- Take an answer: ISOLATED makes the port re-issue (R413). -/
def RemoteOp.take (o : RemoteOp) (st : Status) : RemoteOp :=
  if st = .isolated then { o with reissuing := true } else { o with answer := some st, reissuing := false }

/-- Statuses of a RESPONSE that are no NACK (R300). -/
def isNack (st : Status) : Bool := !(st == .ok || st == .zeroWork || st == .eccRecovered)

/-- A RESPONSE for an operation of this part, wherever it was formed. -/
def State.answered (s : State) (tile dst seq : Nat) (st : Status) : State :=
  let t := s.lt tile
  match t.awaiting dst seq with
  | some i => (if isNack st then s.bumpFabric 0x0F 1 else s).setLt tile { t with ops := t.ops.modify i (fun o => o.take st) }
  | none => s.log 0x231 0 st 0

/-- Send the RESPONSE to an operation, or give the answer where the operation is this part's own. -/
def State.respond (s : State) (via : Via) (q : Packet) (st : Status) : State :=
  if pktSrcId q = s.ownId then s.answered q.srcTile (pktDst q) q.e2eSeq st
  else s.routeOrDrop via (responseTo s q st)

/-- A refusal counts in NACKS_SENT and makes one log entry (R297, R419). -/
def State.noteRefusal (s : State) (q : Packet) (st : Status) : State :=
  (s.bumpFabric 0x0E 1).log 0x230 0 st (q.srcRack + 64 * q.srcPackage + 4096 * q.srcTile)

/-- RESPONSE and GET_DATA are never refused (R297). -/
def neverRefused (q : Packet) : Bool := q.op == pktResponse || q.op == pktGetData

/-- The stream that a passing packet belongs to. -/
def TransitTrack.ofPacket (r : TransitTrack) (q : Packet) : Bool := r.src == pktSrc q && r.dst == pktDst q

/-- What is kept of a packet's stream. -/
def State.trackOf (s : State) (q : Packet) : Option TransitTrack := s.fabric.transit.find? (fun r => r.ofPacket q)

/-- Replace what is kept of a stream. -/
def State.setTrack (s : State) (t : TransitTrack) : State :=
  { s with fabric := { s.fabric with
      transit := s.fabric.transit.filter (fun (r : TransitTrack) => !(r.src == t.src && r.dst == t.dst)) ++ [t] } }

/-- A packet of a stream has been seen; `st` says how its operation was refused here, if it was. -/
def State.seen (s : State) (q : Packet) (st : Option Status) : State :=
  s.setTrack { src := pktSrc q, dst := pktDst q, seq := q.e2eSeq, inOp := !q.last, status := if q.last then none else st }

/-- FIRST or LAST out of sequence, judged between packets of consecutive numbers (R297, log 170). -/
def State.outOfSequence (s : State) (q : Packet) : Bool :=
  match s.trackOf q with
  | some t => q.e2eSeq == (t.seq + 1) % 2 ^ 16 && q.first == t.inOp
  | none => false

/-- The refusal that the operation of a packet met here. -/
def State.refusedHere (s : State) (q : Packet) : Option Status :=
  if q.first then none else (s.trackOf q).bind (fun t => t.status)

/-- Refuse the first packet of an operation to fail: it is counted and logged once, and the operation is answered with
its LAST packet. -/
def State.refuseOp (s : State) (via : Via) (q : Packet) (st : Status) : State :=
  let a := s.noteRefusal q st
  if q.last then a.respond via q st else a

/-- A later packet of a refused operation is discarded; with the LAST one the operation is answered. -/
def State.discardOp (s : State) (via : Via) (q : Packet) (st : Status) : State := if q.last then s.respond via q st else s

/-- The header checks that the first package to see a packet makes (R297). -/
def pktWellFormed (q : Packet) : Bool :=
  decide (q.op ≤ 8) && channelCarries q.channel q.op && q.reserved == 0 && decide (q.length ≤ 256) &&
    (!(q.op == pktPut || q.op == pktPutSignal || q.op == pktAcc || q.op == pktGetData) || decide (0 < q.length))

/-- The first check of R297 that a packet fails on its way. -/
def State.transitFault (s : State) (q : Packet) : Option Status :=
  if !(pktWellFormed q) || s.outOfSequence q then some .malformed else s.routeFault q

/-- R286, R297: a packet for another package passes through, or is refused. -/
def State.transit (s : State) (e : TxEntry) : State :=
  if neverRefused e.pkt then s.routeOrDrop e.via e.pkt
  else match s.refusedHere e.pkt with
    | some st => (s.seen e.pkt (some st)).discardOp e.via e.pkt st
    | none =>
      match s.transitFault e.pkt with
      | some st => (s.seen e.pkt (some st)).refuseOp e.via e.pkt st
      | none => (s.seen e.pkt none).forward e

/-! ## A port goes down, and trains (R287, R299) -/

/-- A CONTROL packet of this part; what its payload looks like is not stated (log 41). -/
def State.controlEntry (s : State) (rack pkg : Nat) (msg : ControlMsg) : TxEntry :=
  let bytes := (Config.controlPayload msg).take 256
  { pkt := { blankPacket with
      op := pktControl, channel := chControl, dstRack := rack, dstPackage := pkg, srcRack := s.obj Obj.ownRack,
      srcPackage := s.obj Obj.ownPackage, srcTile := 0xFF, length := bytes.length, payload := bytes },
    msg := some msg, via := controlVia }

/-- A message of one link, which is never routed. -/
def TxEntry.linkLocal (e : TxEntry) : Bool :=
  match e.msg with
  | some (.spareSwitch _) => true
  | _ => false

/-- Send the identity of bring-up, before the link numbers packets and counts credits (log 169). -/
def State.sendIdentity (s : State) (k : Nat) : State :=
  let e := s.controlEntry 0 0 (.identity (s.obj Obj.ownRack) (s.obj Obj.ownPackage) (s.portRole k) s.part.variant)
  s.emitEntry k { e with pkt := sealPacket e.pkt }

/-- Start bring-up on a port: it trains, unless it has no role and so stays dark, is unusable and so held down (R389), is
fenced (R375), or has no light. -/
def State.trainPort (s : State) (k : Nat) : State :=
  let p := s.port k
  if decide (s.portRole k = 0) || p.unusable then s.setPort k p.dark
  else if p.dead || s.blockDown (.port k) then s.setPort k p.heldDown
  else (s.setPort k { Port.fresh with state := portTraining }).sendIdentity k

/-- The rerouting of a port's packets under way: the ports that have taken some, and the operations refused in it. -/
structure Rerouting where
  s : State
  done : List Nat
  refused : List TransitTrack

/-- Queue a rerouted packet ahead of newer ones, behind those rerouted before it. -/
def State.requeue (s : State) (k n : Nat) (e : TxEntry) : State :=
  let p := s.port k
  s.setPort k { p with txQueue := p.txQueue.take n ++ [e.hop] ++ p.txQueue.drop n }

/-- Route one packet of a dead port again, or refuse its operation once (R287, R297). -/
def rerouteOne (r : Rerouting) (e : TxEntry) : Rerouting :=
  let q := e.pkt
  let others := r.refused.filter (fun (t : TransitTrack) => !(t.ofPacket q))
  match (if q.first then none else r.refused.find? (fun t => t.ofPacket q)), r.s.routeFault q with
  | some t, _ =>
    { r with s := r.s.discardOp e.via q (t.status.getD .unmapped), refused := if q.last then others else r.refused }
  | none, some st =>
    if neverRefused q then r
    else { r with
      s := r.s.refuseOp e.via q st,
      refused := others ++
        (if q.last then [] else [{ src := pktSrc q, dst := pktDst q, seq := q.e2eSeq, inOp := true, status := some st }]) }
  | none, none =>
    match r.s.routePort q.dstRack q.dstPackage with
    | some k => { r with s := r.s.requeue k (r.done.count k) e, done := k :: r.done }
    | none => r

/-- An operation refused in rerouting stays refused for its packets that come later. -/
def State.keepRefused (s : State) (t : TransitTrack) : State :=
  match s.fabric.transit.find? (fun (r : TransitTrack) => r.src == t.src && r.dst == t.dst) with
  | some r => if r.inOp then s.setTrack { r with status := t.status } else s
  | none => s.setTrack t

/-- R287: route the packets of a dead port again; a message of the dead link goes with it. -/
def State.reroute (s : State) (es : List TxEntry) : State :=
  let r := (es.filter (fun (e : TxEntry) => !e.linkLocal)).foldl rerouteOne { s := s, done := [], refused := [] }
  (List.range s.part.variant.ports).foldl (fun (t : State) k => t.pump k)
    (r.refused.foldl (fun (t : State) x => t.keepRefused x) r.s)

/-- R287: declare a port down. A laser input counts its one fault itself (R407). -/
def State.portDown (s : State) (k : Nat) (counted : Bool) : State :=
  let p := s.port k
  if decide (p.state ≠ portUp) then s
  else
    let a := (((s.trainPort k).bumpFabric 0x0C 1).event 0x102 (unitOf 0x4 k) .ok 0)
    let b := if counted then a.countFault else a
    (b.reroute (p.replayBuffer ++ p.txQueue)).refreshFabric

/-- A port that comes up with a peer (R299). -/
def State.portComesUp (s : State) (k rack pkg role : Nat) : State :=
  (s.setPort k { s.port k with state := portUp, peerRack := rack, peerPackage := pkg, peerRole := role % 4 }).refreshFabric

/-- The identity of a peer has arrived at a port (R285, R299), whose receive domain has lock on all nine wavelengths (R372). -/
def State.meetPeer (s : State) (k rack pkg role : Nat) : State :=
  let p := s.port k
  if decide (p.state ≠ portTraining ∧ p.state ≠ portMismatch) || !(s.rst.domains.contains (.opticalRx k)) then s
  else if role = s.portRole k ∧ 64 * rack + pkg ≠ s.ownId then (s.sendIdentity k).portComesUp k rack pkg role
  else
    let t := s.setPort k { p with state := portMismatch, peerRack := rack, peerPackage := pkg, peerRole := role % 4 }
    if p.state = portMismatch then t else t.event 0x103 (unitOf 0x4 k) .ok 0

/-- Firmware enables the ports after BIST and the journal restore, and at the exit from Standby (R299, R384). -/
def State.enablePorts (s : State) : State :=
  if !s.hasOptics then s.setObj Obj.fabricState fabricAbsent
  else if s.heldDark then
    let a := (List.range s.part.variant.ports).foldl (fun (t : State) k =>
      t.setPort k { Port.fresh with state := portHeldDark, unusable := (t.port k).unusable }) s
    a.setObj Obj.fabricState fabricHeldDark
  else
    let a := { s with fabric := { s.fabric with enabled := true, enabledTb := s.time.tb } }.setObj Obj.fabricState
      fabricBringup
    ((List.range s.part.variant.ports).foldl (fun (t : State) k => t.trainPort k) a).refreshFabric

/-- Every port goes dark (R383). -/
def State.darkenPorts (s : State) : State :=
  let a := (List.range s.part.variant.ports).foldl (fun (t : State) k =>
    t.setPort k (t.port k).dark) s
  { ((a.setObj Obj.fabricState fabricDark).setObj Obj.portsUp 0) with fabric := { a.fabric with enabled := false } }

/-- An accepted write of an identity or a role retrains every port (R299). -/
def State.retrainPorts (s : State) : State :=
  if s.fabric.enabled
  then ((List.range s.part.variant.ports).foldl (fun (t : State) k => t.trainPort k) s).refreshFabric else s

/-! ## Receiving over a link (R281) -/

/-- A LINK_SEQ that an ACK_SEQ covers. -/
def linkAcked (ack seq : Nat) : Bool := decide ((ack + 4096 - seq) % 4096 < 2048)

/-- Take the acknowledgment and the credits of a header. -/
def Port.takeReturns (p : Port) (q : Packet) : Port :=
  let left := p.replayBuffer.dropWhile (fun b => linkAcked q.ackSeq b.pkt.linkSeq)
  { p with replayBuffer := left, replays := if left.length < p.replayBuffer.length then 0 else p.replays,
           credits := p.credits.modify q.creditChannel (fun x => min (x + q.creditCount) (linkBuffers q.creditChannel)) }

/-- Send the replay buffer again; eight times in a row bring the port down (R281, R287). Each packet sent again counts
in LINK_REPLAYS (log 39). -/
def State.replayLink (s : State) (k : Nat) : State :=
  let p := s.port k
  if p.replayBuffer.isEmpty then s
  else if 8 ≤ p.replays + 1 then (s.bumpFabric 0x0D p.replayBuffer.length).portDown k true
  else
    let a := (s.setPort k { p with replays := p.replays + 1 }).bumpFabric 0x0D p.replayBuffer.length
    p.replayBuffer.foldl (fun (t : State) e =>
      let r := (t.port k).stamp e.pkt
      (t.setPort k r.1).emitEntry k { e with pkt := r.2 }) a

/-- What a header brings back to its port: acknowledgment, credits and a replay request. -/
def State.takeHeader (s : State) (k : Nat) (q : Packet) : State :=
  let a := s.setPort k ((s.port k).takeReturns q)
  (if q.linkNak then a.replayLink k else a).pump k

/-- Request replay, and discard every later packet until it arrives. -/
def State.requestReplay (s : State) (k : Nat) : State :=
  (s.setPort k { s.port k with nakWanted := true }).sendIdle k true

/-- A numbered packet is accepted in LINK_SEQ order only; a packet out of order requests replay once. -/
def State.acceptPacket (s : State) (k : Nat) (q : Packet) : State × Bool :=
  let p := s.port k
  if p.rxSeq = q.linkSeq then
    (s.setPort k { p with rxSeq := (p.rxSeq + 1) % 4096, nakWanted := false, owed := p.owed.modify q.channel (fun x => x + 1) },
     true)
  else (if p.nakWanted then s else s.requestReplay k, false)

/-- Run what a received numbered packet does, inside its link: a port that is not up ignores it, and one that fails HCRC
is discarded, with a request for replay each time (R281). -/
def State.onPacket (s : State) (k : Nat) (q : Packet) (act : State → State) : State :=
  if decide ((s.port k).state ≠ portUp) then s
  else if q.hcrc ≠ packetCrc q then s.requestReplay k
  else
    let a := (s.wakeBlock (.port k)).takeHeader k q
    if decide ((a.port k).state ≠ portUp) then a
    else
      let r := a.acceptPacket k q
      if r.2 then (act r.1).returnCredits k else r.1

end Sys2Proof.Machine
end

