-- ==== Sys2Proof/Machine/Elementary.lean ====
section
/-!
DEFINITION. The vendor routines of R441: each is the FP32 value nearest to the exact value of its expression.
Each expression is evaluated in fixed point with 320 fractional bits and rounded once (DEDUCED, log 10: the
evaluation error, below 2^-280 of every result that does not underflow, is taken to lie on the same side of
each rounding boundary as the exact value).
-/

namespace Sys2Proof.Machine

open Sys2Proof

/-- The fractional bits of the fixed-point evaluation. -/
def fxBits : Nat := 320

/-- The fixed-point 1. -/
def fxOne : Int := ((1 <<< fxBits : Nat) : Int)

/-- Fixed-point product. -/
def fxMul (a b : Int) : Int := (a * b) >>> fxBits

/-- Fixed-point quotient. -/
def fxDiv (a b : Int) : Int := (a <<< fxBits) / b

/-- The fixed-point form of ±m × 2^e. -/
def fxOf (neg : Bool) (m : Nat) (e : Int) : Int :=
  let k := e + (fxBits : Nat)
  let x : Int := if 0 ≤ k then ((m <<< k.toNat : Nat) : Int) else ((m >>> (-k).toNat : Nat) : Int)
  if neg then -x else x

/-- A fixed-point number that stands for an inexact result: its last bit is sticky. -/
def fxVal (x : Int) : Val := .fin (decide (x < 0)) (2 * x.natAbs + 1) (-((fxBits : Nat) : Int) - 1)

/-- Σ of the terms `t`, `t × f 0`, `t × f 0 × f 1`, …: `n` of them. -/
def fxSeries (f : Nat → Int → Int) : Nat → Nat → Int → Int → Int
  | 0, _, _, acc => acc
  | n + 1, i, t, acc => fxSeries f n (i + 1) (f i t) (acc + t)

/-- 2 × atanh of a fixed-point number of magnitude at most 1/3. -/
def fxTwoAtanhLoop (t2 : Int) : Nat → Nat → Int → Int → Int
  | 0, _, _, acc => 2 * acc
  | n + 1, i, p, acc => fxTwoAtanhLoop t2 n (i + 1) (fxMul p t2) (acc + p / (2 * (i : Nat) + 1))

/-- 2 × atanh t. -/
def fxTwoAtanh (t : Int) : Int := fxTwoAtanhLoop (fxMul t t) 130 0 t 0

/-- ln 2 = 2 atanh (1/3). -/
def fxLn2 : Int := fxTwoAtanh (fxOne / 3)

/-- arctan (1/n) by its alternating series. -/
def fxAtanInvLoop (n2 : Int) : Nat → Nat → Int → Int → Int
  | 0, _, _, acc => acc
  | k + 1, i, p, acc =>
    fxAtanInvLoop n2 k (i + 1) (p / n2) (if i % 2 = 0 then acc + p / (2 * (i : Nat) + 1) else acc - p / (2 * (i : Nat) + 1))

/-- arctan (1/n). -/
def fxAtanInv (n : Int) : Int := fxAtanInvLoop (n * n) 150 0 (fxOne / n) 0

/-- π by Machin's formula. -/
def fxPi : Int := 16 * fxAtanInv 5 - 4 * fxAtanInv 239

/-- e^x of a fixed-point x: the mantissa as a fixed-point number in [1, 2) and the power of two. -/
def fxExp (x : Int) : Int × Int :=
  let k := x / fxLn2
  let r := x - k * fxLn2
  (fxSeries (fun i t => fxMul t r / ((i : Nat) + 1)) 100 0 fxOne 0, k)

/-- e^x as a fixed-point number. -/
def fxExpFlat (x : Int) : Int :=
  let p := fxExp x
  if 0 ≤ p.2 then p.1 <<< p.2.toNat else p.1 >>> (-p.2).toNat

/-- ln of the positive fixed-point number x. -/
def fxLn (x : Int) : Int :=
  let n := x.natAbs
  let k : Int := ((Nat.log2 n : Nat) : Int) - (fxBits : Nat)
  let f : Int := if 0 ≤ k then x >>> k.toNat else x <<< (-k).toNat
  k * fxLn2 + fxTwoAtanh (fxDiv (f - fxOne) (f + fxOne))

/-- The square root of a non-negative fixed-point number. -/
def fxSqrt (x : Int) : Int := ((isqrt (x.natAbs <<< fxBits) : Nat) : Int)

/-- sin of a fixed-point angle in [0, π/2). -/
def fxSin (x : Int) : Int :=
  let x2 := fxMul x x
  fxSeries (fun i t => -(fxMul t x2) / ((2 * (i : Nat) + 2) * (2 * (i : Nat) + 3))) 60 0 x 0

/-- cos of a fixed-point angle in [0, π/2). -/
def fxCos (x : Int) : Int :=
  let x2 := fxMul x x
  fxSeries (fun i t => -(fxMul t x2) / ((2 * (i : Nat) + 1) * (2 * (i : Nat) + 2))) 60 0 fxOne 0

/-- φ(x) = e^(−x²/2) / √(2π). -/
def fxPhi (x : Int) : Int := fxDiv (fxExpFlat (-(fxMul x x) / 2)) (fxSqrt (2 * fxPi))

/-- Φ(x) = 1/2 + φ(x) × Σ x^(2n+1) / (2n+1)!!, for |x| below 16. The series is summed before it is multiplied,
with the exponential kept at its own scale. -/
def fxCdf (x : Int) : Int :=
  let x2 := fxMul x x
  let sum := fxSeries (fun i t => fxMul t x2 / (2 * (i : Nat) + 3)) 900 0 x 0
  let p := fxExp (-x2 / 2)
  let y := fxDiv (fxMul sum p.1) (fxSqrt (2 * fxPi))
  fxOne / 2 + (if 0 ≤ p.2 then y <<< p.2.toNat else y >>> (-p.2).toNat)

/-- σ(x) = 1 / (1 + e^−x), for |x| below 130. -/
def fxLogistic (x : Int) : Int :=
  if 0 ≤ x then fxDiv fxOne (fxOne + fxExpFlat (-x))
  else
    let p := fxExp x
    let d := fxOne + (if 0 ≤ p.2 then p.1 <<< p.2.toNat else p.1 >>> (-p.2).toNat)
    let y := fxDiv p.1 d
    if 0 ≤ p.2 then y <<< p.2.toNat else y >>> (-p.2).toNat

/-- The magnitude of a finite value is at least n. -/
def absAtLeast (n : Nat) (m : Nat) (e : Int) : Bool := Val.le (.fin false n 0) (.fin false m e)

/-- A value too small to survive the rounding of R441, with its sign. -/
def tinyVal (neg : Bool) : Val := .fin neg 1 (-400)

/-- A value just below or above `v`, at 2^-200 of 1. -/
def nudge (v : Val) (up : Bool) : Val := Val.add v (.fin (!up) 1 (-200))

/-- GELU: x × Φ(x). -/
def vendorGelu (x : F32) : F32 :=
  match f32Val x with
  | .nan => f32Nan
  | .inf n => if n then f32Zero true else f32Inf false
  | .fin n m e =>
    if m = 0 then f32Zero false
    else if absAtLeast 16 m e then (if n then roundF32 (tinyVal true) else x)
    else roundF32 (Val.mul (.fin n m e) (fxVal (fxCdf (fxOf n m e))))

/-- SiLU: x × σ(x). -/
def vendorSilu (x : F32) : F32 :=
  match f32Val x with
  | .nan => f32Nan
  | .inf n => if n then f32Zero true else f32Inf false
  | .fin n m e =>
    if m = 0 then f32Zero false
    else if absAtLeast 130 m e then (if n then roundF32 (tinyVal true) else x)
    else roundF32 (Val.mul (.fin n m e) (fxVal (fxLogistic (fxOf n m e))))

/-- GELU derivative: Φ(a) + a × φ(a); the caller handles NaN (R162). -/
def vendorGeluDerivative (a : Val) : F32 :=
  match a with
  | .nan => f32Nan
  | .inf n => if n then f32Zero false else 0x3F800000
  | .fin n m e =>
    if absAtLeast 16 m e then (if n then roundF32 (tinyVal true) else 0x3F800000)
    else
      let x := fxOf n m e
      roundF32 (fxVal (fxCdf x + fxMul x (fxPhi x)))

/-- SiLU derivative: σ(a) × (1 + a × (1 − σ(a))); the caller handles NaN (R162). -/
def vendorSiluDerivative (a : Val) : F32 :=
  match a with
  | .nan => f32Nan
  | .inf n => if n then f32Zero false else 0x3F800000
  | .fin n m e =>
    if absAtLeast 130 m e then (if n then roundF32 (tinyVal true) else 0x3F800000)
    else
      let x := fxOf n m e
      let s := fxLogistic x
      roundF32 (Val.mul (fxVal s) (fxVal (fxOne + fxMul x (fxOne - s))))

/-- e^x. -/
def vendorExp (x : F32) : F32 :=
  match f32Val x with
  | .nan => f32Nan
  | .inf n => if n then f32Zero false else f32Inf false
  | .fin n m e =>
    if m = 0 then 0x3F800000
    else if absAtLeast 128 m e then (if n then roundF32 (tinyVal false) else f32Inf false)
    else
      let p := fxExp (fxOf n m e)
      roundF32 (Val.scale (fxVal p.1) p.2)

/-- Bias correction 1 − β^t, exact before its rounding. -/
def vendorBias (beta : F32) (t : Nat) : F32 :=
  match f32Val beta with
  | .nan => f32Nan
  | .inf n => if t = 0 then f32Zero false else f32Inf (!(n && t % 2 == 1))
  | .fin n m e => roundF32 (Val.add Val.one (.fin (!(n && t % 2 == 1)) (m ^ t) (e * (t : Nat))))

/-- sqrt(−2 ln(1 − u)) × cos(2π × U2 × 2^−24) with u = U1 × 2^−24; every zero is +0 (R222). -/
def vendorNormal (u1 u2 : Nat) : F32 :=
  let q := u2 / 2 ^ 22
  let r := u2 % 2 ^ 22
  if u1 = 0 || (r == 0 && q % 2 == 1) then f32Zero false
  else
    let l := fxLn (fxOf false (2 ^ 24 - u1) (-24))
    let radius := fxSqrt (-2 * l)
    let angle := (fxPi * (r : Nat)) / ((2 ^ 23 : Nat) : Int)
    let c := if q = 0 then fxCos angle else if q = 1 then -(fxSin angle) else if q = 2 then -(fxCos angle) else fxSin angle
    roundF32 (fxVal (fxMul radius c))

/-- −ln(−ln((U1 + 0.5) × 2^−24)) (R223). -/
def vendorGumbel (u1 : Nat) : F32 :=
  let inner := -(fxLn (fxOf false (2 * u1 + 1) (-25)))
  roundF32 (fxVal (-(fxLn inner)))

end Sys2Proof.Machine
end

