-- ==== Sys2Proof/Machine/Move.lean ====
section
/-!
DEFINITION. The copy and fold engine: MOVE (R106, R107, R252) and FOLD (R130 to R132).
-/

namespace Sys2Proof.Machine

open Sys2Proof

/-! ## MOVE -/

/-- PERM[3i + 2 : 3i] (R68). -/
def movePerm (x i : Nat) : Nat := bitsOf x (98 + 3 * i) (96 + 3 * i)

/-- PERM is the identity. -/
def permIdentity (x : Nat) : Bool := bitsOf x 119 96 == 0x00FAC688

/-- R106: the conditions under which a MOVE is MALFORMED do not hold. -/
def moveShapeOk (x : Nat) (a b : Desc) : Bool :=
  a.rank == b.rank &&
    (List.range a.rank).all (fun i => decide (movePerm x i < a.rank) && b.size.getD i 0 == a.size.getD (movePerm x i) 0) &&
    a.layout == b.layout && (a.layout == 0 || (permIdentity x && a.elemType == b.elemType)) &&
    (if isRawType a.elemType || isRawType b.elemType then a.elemType == b.elemType else true)

/-- R107: some byte read meets some byte written. -/
def moveOverlaps (a b : Desc) : Bool :=
  a.space == b.space && a.pieces.any (fun q => b.pieces.any (fun r => overlaps q.1 q.2 r.1 r.2))

/-- R107: the engine exchanges line blocks with no staging. -/
def moveNative (x : Nat) (a b : Desc) : Bool :=
  a == b && a.space == 0 && a.sz 0 == a.sz 1 && (permIdentity x || (movePerm x 0 == 1 && movePerm x 1 == 0 &&
    (List.range 8).all (fun i => decide (i < 2) || movePerm x i == i)))

/-- The bytes of the pieces of an operand. -/
def Desc.span (d : Desc) : Nat := listSum (d.pieces.map (fun q => q.2))

/-- R252: an overlapping MOVE staged through HBM reads more than the 16 MiB of the bounce region. -/
def moveTooLong (x : Nat) (a b : Desc) : Bool :=
  moveOverlaps a b && !(moveNative x a b) && decide (2 ^ 24 < a.span)

/-- The list position of the source element that lands at destination coordinates (R106). -/
def moveSource (x : Nat) (a : Desc) (cs : List Nat) : Nat :=
  linearOf a.dims ((List.range 8).map (fun k =>
    cs.getD (((List.range 8).find? (fun i => movePerm x i == k)).getD k) 0))

/-- The source values in the order in which the destination stores them. -/
def movePermute {α : Type} (x : Nat) (a b : Desc) (dflt : α) (vals : List α) : List α :=
  if a.layout != 0 || permIdentity x then vals
  else
    let arr := vals.toArray
    (List.range b.count).map (fun i => arr.getD (moveSource x a (coordsOf b.dims i)) dflt)

/-- R107: the MOVE is staged through the tile's bounce region in HBM. -/
def moveStaged (x : Nat) (a b : Desc) : Bool :=
  moveOverlaps a b && !(moveNative x a b) && decide (2 ^ 16 < a.span)

/-- The bytes of an operand, piece after piece. -/
def State.spanBytes (s : State) (p : Nat) (d : Desc) : List Byte :=
  d.pieces.flatMap (fun q => (List.range q.2).map (fun i => s.spaceByte p d.space (q.1 + i)))

/-- Staging: the bytes of a source are written to the tile's bounce region one after another, and read back (R107, R252,
log 167). -/
def State.bounce (s : State) (p : Nat) (bs : List Byte) : State × Status :=
  let base := bounceBase s.part.variant p
  let w := s.hbmWriteOne base bs
  let t := w.1.hbmTouch false base bs.length
  (t.1, worseEcc w.2 t.2)

/-- The source is read; a staged MOVE passes it through the bounce region. -/
def State.moveRead (s : State) (p x : Nat) (a b : Desc) : State × Status :=
  let r := s.touchDesc a
  if noData r.2 || !(moveStaged x a b) then r
  else
    let t := r.1.bounce p (r.1.spanBytes p a)
    (t.1, worseEcc r.2 t.2)

/-- MOVE once its checks have passed. -/
def State.moveData (s : State) (l p x : Nat) (a b : Desc) : Done :=
  let r := s.moveRead p x a b
  if noData r.2 then Done.only (r.1.smear p b) r.2
  else if isRawType a.elemType then
    let w := r.1.writeCodes p b (movePermute x a b 0 (r.1.codes p a))
    Done.only w.1 (worseEcc r.2 w.2)
  else
    let w := r.1.writeVals l p b (bitsOf x 121 120) (bitsOf x 123 122) (recOp x 128) 0
      (movePermute x a b Val.zero (r.1.vals l p a))
    { Done.only w.s (worseEcc r.2 w.status) with count1 := w.sats }

/-- MOVE: its checks in order (R63, R100, R106, R252), then its data. A fenced host port answers with ISOLATED (R375). -/
def moveEff (s : State) (l p : Nat) (e : QEntry) : Done :=
  let a := s.desc p (recOp e.x 64)
  let b := s.desc p (recOp e.x 80)
  if a.headOk && a.isEmpty then Done.only s .zeroWork
  else match firstFault [s.descFault a false [0, 1, 2], s.descFault b true [0, 1, 2],
      need (moveShapeOk e.x a b) .malformed, need (!(moveTooLong e.x a b)) .outOfRange,
      need (!(moveHost a b && s.blockDown .hostPort)) .isolated] with
    | some st => Done.only s st
    | none => s.moveData l p e.x a b

/-! ## FOLD -/

/-- R117: a descriptor is the metadata tensor of a compressed tensor. -/
def Desc.isMetaOf (m d : Desc) : Bool :=
  m.elemType == 0x0C && m.layout == 0 && m.hasSizes ([d.sz 0 / 4, d.sz 1 / 4] ++ d.dims.drop 2)

/-- R130, R205: the conditions under which a FOLD is MALFORMED do not hold. -/
def foldShapeOk (a b am bm : Desc) : Bool :=
  a.layout == b.layout && a.elemType == b.elemType && a.layout != 0 && a.space == 0 && b.space == 0 &&
    !(scaleExact b.scaleId) && !(scaleExact bm.scaleId) && b.sz 0 == a.sz 1 && b.sz 1 == a.sz 0 &&
    b.dims.drop 2 == a.dims.drop 2 && am.isMetaOf a && bm.isMetaOf b

/-- One destination quire: its metadata, its slots and the bits rejected at its source (R131). -/
structure Folded where
  md : Nat
  codes : List Nat
  rejected : Nat
  deriving DecidableEq, Repr

/-- The transposed place of a bit of a quire. -/
def transposeBit (b : Nat) : Nat := 4 * (b % 4) + b / 4

/-- R131: fold one source quire with metadata `md`, whose slot t holds the bits `slot t`. -/
def foldQuire (layout md : Nat) (slot : Nat → Nat) : Folded :=
  let q := readQuire layout md
  let bits := (List.range 16).filter (fun b => (q.slotOf (transposeBit b)).isSome)
  let codes := bits.map (fun b => slot ((q.slotOf (transposeBit b)).getD 0))
  let n := if layout = 1 then 8 else 4
  { md := listSum (bits.map (fun b => 2 ^ b)), codes := codes ++ List.replicate (n - codes.length) 0,
    rejected := q.rejected }

/-- The bits of one slot of quire (i, j) of a compressed tensor, higher coordinates `h` (R116). -/
def State.slotCode (s : State) (p : Nat) (d : Desc) (h : List Nat) (i j t : Nat) : Nat :=
  d.readCode (s.spaceByte p d.space) ((j * d.slots + t) :: i :: h)

/-- The metadata of quire (i, j) in its metadata tensor (R117). -/
def State.quireMeta (s : State) (p : Nat) (m : Desc) (h : List Nat) (i j : Nat) : Nat :=
  m.readCode (s.spaceByte p m.space) (j :: i :: h)

/-- FOLD once its checks have passed: every quire of the destination, in storage order. -/
def State.foldAll (s : State) (p : Nat) (a am b : Desc) : List Folded :=
  let hs := listProd (b.dims.drop 2)
  (List.range hs).flatMap (fun k =>
    let h := coordsOf (b.dims.drop 2) k
    (List.range (b.sz 1 / 4)).flatMap (fun i => (List.range (b.sz 0 / 4)).map (fun j =>
      foldQuire a.layout (s.quireMeta p am h j i) (fun t => s.slotCode p a h j i t))))

/-- R132: some byte of the source's values and metadata meets some byte of the destination's. -/
def foldOverlaps (a am b bm : Desc) : Bool :=
  moveOverlaps a b || moveOverlaps a bm || moveOverlaps am b || moveOverlaps am bm

/-- R107, R132: the FOLD is staged through the tile's bounce region in HBM. It never takes the native path. -/
def foldStaged (a am b bm : Desc) : Bool := foldOverlaps a am b bm && decide (2 ^ 16 < a.span + am.span)

/-- A staged FOLD passes its values and its metadata through the bounce region. -/
def State.foldRead (s : State) (p : Nat) (a am b bm : Desc) : State × Status :=
  if foldStaged a am b bm then s.bounce p (s.spanBytes p a ++ s.spanBytes p am) else (s, .ok)

/-- FOLD once its checks have passed: its data are read whole before anything is written (R107, R132). -/
def State.foldRun (s : State) (p : Nat) (a am b bm : Desc) : Done :=
  let r := s.foldRead p a am b bm
  if noData r.2 then Done.only ((r.1.smear p b).smear p bm) r.2
  else
    let qs := s.foldAll p a am b
    let w := (r.1.writeCodes p b (qs.flatMap (fun q => q.codes))).1
    let w2 := (w.writeCodes p bm (qs.map (fun q => q.md))).1
    let rej := listSum (qs.map (fun q => q.rejected))
    { Done.only w2 (if rej = 0 then r.2 else .quireViolation) with rejected := rej }

/-- FOLD: its checks in order, then its data. -/
def foldEff (s : State) (_l p : Nat) (e : QEntry) : Done :=
  let a := s.desc p (recOp e.x 64)
  let b := s.desc p (recOp e.x 80)
  let am := s.desc p (recOp e.x 64 + 1)
  let bm := s.desc p (recOp e.x 80 + 1)
  if a.headOk && a.isEmpty then Done.only s .zeroWork
  else match firstFault [s.descFault a false [0], s.descFault b true [0], s.descFault am false [0],
      s.descFault bm true [0], need (foldShapeOk a b am bm) .malformed] with
    | some st => Done.only s st
    | none => s.foldRun p a am b bm

/-- MOVE (R106). -/
def execMove (tile cycles : Nat) (s : State) : Host.Outcome State Fault Refusal :=
  .next (s.runUnit tile cycles (fun x => recOpcode x == opMove) moveEff)

/-- FOLD (R130). -/
def execFold (tile cycles : Nat) (s : State) : Host.Outcome State Fault Refusal :=
  .next (s.runUnit tile cycles (fun x => recOpcode x == opFold) foldEff)

end Sys2Proof.Machine
end

