-- ==== Sys2Proof/Machine/Drain.lean ====
section
/-!
DEFINITION. The drain: conversion, bias and derivative factors (R70, R162, R194, R294), and the update drain with
its optimiser state, source choice and write order (R166 to R175).
-/

namespace Sys2Proof.Machine

open Sys2Proof

/-- SLOT of a DRAIN. -/
def drainSlot (x : Nat) : Nat := bitsOf x 68 64

/-- CLEAR of a DRAIN. -/
def drainClear (x : Nat) : Bool := bitAt x 69

/-- R70: in a reel with REPRO only slots 0 to 3 exist. -/
def State.slotExists (s : State) (x : Nat) : Bool := !s.repro || decide (drainSlot x ≤ 3)


/-! ## Converting drains -/

/-- R70, R162: AUX has the form its FUNC needs. -/
def drainAuxOk (f : Nat) (d : Desc) (aux : Option Desc) : Bool :=
  match aux with
  | none => f == 0
  | some a => a.layout == 0 && (
      if f = 1 then !(isRawType a.elemType) && a.rank == 1 && a.sz 0 == d.sz 0
      else (if f = 2 then a.elemType == 0x0D else a.elemType == 0x04 || a.elemType == 0x05) &&
        a.hasSizes [d.sz 0, d.sz 1])

/-- The AUX of a DRAIN. -/
def State.drainAux (s : State) (p x : Nat) : Option Desc :=
  if hasOp x 112 then some (s.desc p (recOp x 112)) else none

/-- The status of the first check that a converting drain fails. DESIGN CHOICE (log 189): R70 orders no two of its own
checks; the forms, AUX's among them (MALFORMED), come before the sizes of DST (OUT_OF_RANGE). -/
def State.drainFault (s : State) (p x : Nat) (d : Desc) : Option Status :=
  let aux := s.drainAux p x
  firstFault [s.descFault d true [0], (aux.bind (fun a => s.descFault a false [0])),
    need (d.layout == 0 && !(isRawType d.elemType) && decide (d.rank ≤ 2)) .malformed,
    need (drainAuxOk (recFunc x) d aux) .malformed,
    need ((recFunc x == 0 && d.isPairForm) || (decide (d.sz 0 ≤ 64) && decide (d.sz 1 ≤ 64))) .outOfRange]

/-- The pairs that a DST of the given sizes receives, in its storage order (R70). -/
def drainedPairs (d : Desc) (slot : Array Pair) : List Pair :=
  (List.range (d.sz 1)).flatMap (fun m => (List.range (d.sz 0)).map (fun n => slot.getD (64 * m + n) Pair.zero))

/-- R162: the factor d; none for a NaN of AUX. -/
def derivativeFactor (f : Nat) (a : Val) : Option F32 :=
  match a with
  | .nan => none
  | .inf neg => some (if neg then 0 else 0x3F800000)
  | _ => some (if f = 3 then vendorGeluDerivative a else vendorSiluDerivative a)

/-- A product of R162; every zero product is +0 (log 24). -/
def derivativeProduct (q : Pair) (d : F32) : Val :=
  let v := Val.mul q.sum (f32Val d)
  if v.isZero then Val.zero else v

/-- The factors of a derivative drain in DST's order. -/
def State.drainFactors (s : State) (l p f : Nat) (aux : Desc) : List (Option F32) :=
  if f = 2 then (s.codes p aux).map (fun b => some (if b = 1 then 0x3F800000 else 0))
  else (s.vals l p aux).map (derivativeFactor f)

/-- The exact values that a converting drain converts, and how many NaN factors it met. -/
def State.drainValues (s : State) (l p x : Nat) (d : Desc) (slot : Array Pair) : List Val × Nat :=
  let pairs := drainedPairs d slot
  match recFunc x, s.drainAux p x with
  | 1, some a =>
    let bias := (s.vals l p a).toArray
    ((pairs.zipIdx).map (fun q => Val.add q.1.sum (bias.getD (q.2 % d.sz 0) Val.zero)), 0)
  | 0, _ => (pairs.map Pair.sum, 0)
  | f, some a =>
    let fs := s.drainFactors l p f a
    (List.zipWith (fun q o => derivativeProduct q (o.getD 0)) pairs fs, (fs.filter Option.isNone).length)
  | _, none => ([], 0)

/-- The bits that a DST in pair layout receives: value and error side by side (R294). -/
def pairCodes (pairs : List Pair) : List Nat := pairs.flatMap (fun q => [q.v.toNat, q.e.toNat])

/-- Count `n` saturations that no conversion stands behind, in class 2 under a format (R162, R169). -/
def State.countClass2 (s : State) (l p elem n : Nat) : State :=
  (s.setPt p ((s.pt p).bumpConv (convKey 2 (formatSlot elem) 0) n)).noteSaturation l 2 n

/-- CLEAR of a DRAIN (R70). -/
def State.clearAfter (s : State) (p x : Nat) : State := if drainClear x then s.clearSlot p (drainSlot x) else s

/-- A converting drain once its checks have passed. -/
def State.drainData (s : State) (l p x : Nat) (d : Desc) : Done :=
  let slot := s.slotValue p (drainSlot x)
  if recFunc x = 0 && d.isPairForm then
    let w := s.writeCodes p d (pairCodes (slot.take (64 * d.sz 1)))
    Done.only (w.1.clearAfter p x) w.2
  else
    let v := s.drainValues l p x d slot.toArray
    let w := s.writeVals l p d (bitsOf x 105 104) (bitsOf x 107 106) (recOp x 160) 0 v.1
    { Done.only ((w.s.countClass2 l p d.elemType v.2).clearAfter p x) w.status with count1 := w.sats + v.2 }

/-- FUNC 0x00 to 0x04: SLOT first (R70), then no work, then the checks. -/
def drainEff (s : State) (l p : Nat) (e : QEntry) : Done :=
  let d := s.desc p (recOp e.x 80)
  if !(s.slotExists e.x) then Done.only s .outOfRange
  else if d.headOk && d.isEmpty then Done.only s .zeroWork
  else match s.drainFault p e.x d with
    | some st => Done.only s st
    | none => s.drainData l p e.x d

/-! ## The update drain: operands -/

/-- The operands of an update drain (R166). -/
structure Update where
  dst : Desc
  md : Desc
  aux : Option Desc
  state : Desc
  hyper : Desc
  deriving DecidableEq, Repr

/-- The operands that a record names. -/
def State.update (s : State) (p x : Nat) : Update :=
  { dst := s.desc p (recOp x 80), md := s.desc p (recOp x 80 + 1), aux := s.drainAux p x,
    state := s.desc p (recOp x 128), hyper := s.desc p (recOp x 144) }

/-- R166: the forms of the operands, where a DST of more than two dimensions has 1 in the others; an exact entry belongs to
no update drain (R205). -/
def Update.formsOk (o : Update) : Bool :=
  o.dst.layout != 0 && o.dst.hasSizes [o.dst.sz 0, o.dst.sz 1] && decide (o.dst.sz 0 ≤ 64) && decide (o.dst.sz 1 ≤ 64) &&
    !(scaleExact o.dst.scaleId) && !(scaleExact o.state.scaleId) && o.md.isMetaOf o.dst &&
    (o.aux.map (fun a => a.isPairForm && a.sz 1 == o.dst.sz 1)).getD true &&
    o.state.isForm 0x0B [12432] && o.hyper.isForm 0x0B [16]

/-- The hyperparameter block (R167). -/
structure Hyper where
  lr : F32
  beta1 : F32
  beta2 : F32
  epsilon : F32
  decay : F32
  mult : F32
  deriving DecidableEq, Repr

/-- Read the hyperparameter block. -/
def State.hyper (s : State) (p : Nat) (d : Desc) : Hyper :=
  let w := ((s.codes p d).map (BitVec.ofNat 32)).toArray
  { lr := w.getD 0 0, beta1 := w.getD 1 0, beta2 := w.getD 2 0, epsilon := w.getD 3 0, decay := w.getD 4 0,
    mult := w.getD 5 0 }

/-- A finite value of at least 0. -/
def atLeastZero (a : F32) : Bool := (f32Val a).isFinite && Val.le Val.zero (f32Val a)

/-- A value in [0, 1). -/
def inUnit (a : F32) : Bool := atLeastZero a && Val.lt (f32Val a) Val.one

/-- R167: every value is in its range. -/
def Hyper.inRange (h : Hyper) (adam : Bool) : Bool :=
  atLeastZero h.lr && inUnit h.beta1 && atLeastZero h.decay && (f32Val h.mult).isFinite &&
    (!adam || (inUnit h.beta2 && atLeastZero h.epsilon && !((f32Val h.epsilon).isZero)))

/-- The status of the first check that an update drain fails. -/
def State.updateFault (s : State) (p x : Nat) (o : Update) : Option Status :=
  firstFault [s.descFault o.dst true [0], s.descFault o.md false [0],
    (o.aux.bind (fun a => s.descFault a false [0])), s.descFault o.state true [1], s.descFault o.hyper false [0],
    need o.formsOk .malformed, need (s.inDuplexRegion o.state.base o.state.extentBytes) .forbidden,
    need ((s.hyper p o.hyper).inRange (recFunc x == 0x10)) .outOfRange]

/-! ## The state copies (R168) -/

/-- The header of a state copy. -/
structure StateHeader where
  stamp : Nat
  tag : Nat
  count : Nat
  busy : Bool
  present : Nat
  deriving DecidableEq, Repr

/-- Decode a header. -/
def StateHeader.ofNat (x : Nat) : StateHeader :=
  { stamp := bitsOf x 63 0, tag := bitsOf x 95 64, count := bitsOf x 127 96, busy := bitAt x 128,
    present := bitsOf x 191 160 }

/-- The 64 bytes of a header, reserved fields 0. -/
def StateHeader.bytes (h : StateHeader) : List Byte :=
  leBytes 64 (h.stamp % 2 ^ 64 + (h.tag % 2 ^ 32) <<< 64 + (h.count % 2 ^ 32) <<< 96 +
    (if h.busy then 1 else 0) <<< 128 + (h.present % 2 ^ 32) <<< 160)

/-- One present position of the slice: its coordinates, its quire and its slot (R168, R171). -/
structure SlicePos where
  n : Nat
  k : Nat
  place : Nat                    -- place of its slot in DST's storage order
  deriving DecidableEq, Repr

/-- Address offset of a record. -/
def SlicePos.record (q : SlicePos) : Nat := 576 + 12 * (q.n + 64 * q.k)

/-- What the metadata of the slice says: the present positions, the snapshot and the rejected bits (R127, R171). -/
structure Slice where
  present : List SlicePos
  snapshot : List Nat            -- 256 values, quire (a, b) at b + 16a
  rejected : Nat
  deriving DecidableEq, Repr

/-- The quire of the metadata at (a, b). -/
def State.sliceQuire (s : State) (p : Nat) (o : Update) (a b : Nat) : Quire :=
  if a < o.dst.sz 1 / 4 ∧ b < o.dst.sz 0 / 4 then readQuire o.dst.layout (s.quireMeta p o.md [] a b)
  else { accepted := [], rejected := 0 }

/-- The accepted positions of one quire. -/
def quirePositions (d : Desc) (a b : Nat) (q : Quire) : List SlicePos :=
  q.accepted.map (fun t => { n := 4 * b + t.1 % 4, k := 4 * a + t.1 / 4,
                             place := a * (d.sz 0 / 4 * d.slots) + b * d.slots + t.2 })

/-- The metadata of the slice. -/
def State.slice (s : State) (p : Nat) (o : Update) : Slice :=
  let qs := (List.range 256).map (fun i => (i, s.sliceQuire p o (i / 16) (i % 16)))
  { present := qs.flatMap (fun q => quirePositions o.dst (q.1 / 16) (q.1 % 16) q.2),
    snapshot := qs.map (fun q => q.2.bits),
    rejected := listSum (qs.map (fun q => q.2.rejected)) }

/-- A position is present in a snapshot. -/
def inSnapshot (snap : Array Nat) (q : SlicePos) : Bool :=
  bitAt (snap.getD (q.n / 4 + 16 * (q.k / 4)) 0) (4 * (q.k % 4) + q.n % 4)

/-- Bytes of HBM read with the fall-back off. -/
def State.hbmBytes (s : State) (a n : Nat) : List Byte := (List.range n).map (fun i => s.hbmByte false (a + i))

/-- A read of a copy with the fall-back off (R254). -/
structure CopyRead where
  s : State
  status : Status
  header : Option StateHeader
  deriving DecidableEq, Repr

/-- Read the header of a copy (R174, R175). -/
def State.readHeader (s : State) (a : Nat) : CopyRead :=
  let r := s.hbmTouch false a 64
  { s := r.1, status := r.2,
    header := if noData r.2 then none else some (StateHeader.ofNat (leNat (r.1.hbmBytes a 64))) }

/-- The snapshot of a copy. -/
def State.copySnapshot (s : State) (a : Nat) : Array Nat :=
  ((List.range 256).map (fun i => leNat (s.hbmBytes (a + 64 + 2 * i) 2))).toArray

/-- Read of the snapshot and of the records the drain needs from a copy at `a`, or of all of them (R174, R175). -/
def State.readBody (s : State) (a : Nat) (present : List SlicePos) (whole : Bool) : State × Status :=
  let r := s.hbmTouch false (a + 64) 512
  if noData r.2 then r
  else if whole then
    let q := r.1.hbmTouch false (a + 576) 49152
    (q.1, worseEcc r.2 q.2)
  else
    let snap := r.1.copySnapshot a
    (present.filter (inSnapshot snap)).foldl (fun (t : State × Status) q =>
      let u := t.1.hbmTouch false (a + q.record) 12
      (u.1, worseEcc t.2 u.2)) r

/-- The three values of a record. -/
def State.readRecord (s : State) (a : Nat) (q : SlicePos) : F32 × F32 × F32 :=
  let at_ (i : Nat) : F32 := BitVec.ofNat 32 (leNat (s.hbmBytes (a + q.record + 4 * i) 4))
  (at_ 0, at_ 1, at_ 2)

/-! ## The arithmetic of R169 and R170 -/

/-- x × y + z rounded once. -/
def f32Fma (x y z : F32) : F32 := roundF32 (Val.add (Val.mul (f32Val x) (f32Val y)) (f32Val z))

/-- The sign exchanged. -/
def f32Neg (x : F32) : F32 := x ^^^ 0x80000000

/-- R169: the gradient of a position; none when it is not finite. -/
def gradient (mult : F32) (lossScale : Int) (q : Pair) : Option F32 :=
  let g1 := f32Mul (roundF32 q.sum) mult
  let g2 := roundF32 (Val.scale (f32Val g1) (-lossScale))
  if (f32Val g2).isFinite then some g2 else none

/-- R170: one AdamW update of (w, m, v). -/
def adamw (h : Hyper) (c1 c2 : F32) (w m v g : F32) : F32 × F32 × F32 :=
  let one : F32 := 0x3F800000
  let m1 := f32Fma h.beta1 m (f32Mul (f32Sub one h.beta1) g)
  let v1 := f32Fma h.beta2 v (f32Mul (f32Sub one h.beta2) (f32Mul g g))
  let q := f32Div (f32Div m1 c1) (f32Add (f32Sqrt (f32Div v1 c2)) h.epsilon)
  (f32Fma (f32Neg h.lr) (f32Fma h.decay w q) w, m1, v1)

/-- R170: one SGD-momentum update; v is written as +0 (R168). -/
def sgdMomentum (h : Hyper) (w m g : F32) : F32 × F32 × F32 :=
  let m1 := f32Fma h.beta1 m (f32Fma h.decay w g)
  (f32Fma (f32Neg h.lr) m1 w, m1, 0)

/-- R170: the conversion of a state value, FP32 to FP32 (R86 to R91). -/
def stateConv (a : F32) : Conv :=
  match fmtOf 0x01 with
  | some f => f.convert 0 0 (f32Val a)
  | none => ⟨0, false, false, false⟩

/-- One updated position. -/
structure Updated where
  pos : SlicePos
  w : F32
  record : List Conv             -- w, m, v as written
  lost : Bool                    -- its gradient was not finite
  deriving DecidableEq, Repr

/-- R169 to R171: update one present position from the record of its source or, where it is not in the snapshot, from
its stored value with m = v = +0. -/
def updateOne (adam : Bool) (h : Hyper) (c1 c2 : F32) (lossScale : Int) (q : SlicePos) (old : F32 × F32 × F32)
    (g : Pair) : Updated :=
  let gr := gradient h.mult lossScale g
  let r := if adam then adamw h c1 c2 old.1 old.2.1 old.2.2 (gr.getD 0) else sgdMomentum h old.1 old.2.1 (gr.getD 0)
  { pos := q, w := r.1, record := [stateConv r.1, stateConv r.2.1, stateConv r.2.2], lost := gr.isNone }

/-- The pair of a slice position: AUX row k, pair column n, or slot row k, column n (R160, R166, R169). -/
def State.gradientPair (s : State) (p x : Nat) (o : Update) : SlicePos → Pair :=
  match o.aux with
  | some a =>
    let c := (s.codes p a).toArray
    fun q => { v := BitVec.ofNat 32 (c.getD (2 * q.n + 128 * q.k) 0),
               e := BitVec.ofNat 32 (c.getD (2 * q.n + 1 + 128 * q.k) 0) }
  | none =>
    let t := (s.slotValue p (drainSlot x)).toArray
    fun q => t.getD (64 * q.k + q.n) Pair.zero

/-- s of R169. -/
def State.lossScaleOf (s : State) (l : Nat) : Int := ((s.versionFor l 0).map (fun v => v.lossScale)).getD 0

/-- Every updated position, from the source copy at `src` with UPDATE_COUNT `count`. DESIGN CHOICE (log 95): a gradient is
formed, and a non-finite one counted, at present positions of the slice only; R169 does not say what an absent or rejected
position counts. -/
def State.updateAll (s : State) (l p x : Nat) (o : Update) (sl : Slice) (src count : Nat) : List Updated :=
  let h := s.hyper p o.hyper
  let adam := recFunc x == 0x10
  let t := min (count + 1) (2 ^ 32 - 1)
  let c1 := if adam then vendorBias h.beta1 t else 0
  let c2 := if adam then vendorBias h.beta2 t else 0
  let snap := s.copySnapshot src
  let stored := (s.vals l p o.dst).toArray
  let g := s.gradientPair p x o
  sl.present.map (fun q =>
    let old := if inSnapshot snap q then s.readRecord src q else (roundF32 (stored.getD q.place Val.zero), 0, 0)
    updateOne adam h c1 c2 (s.lossScaleOf l) q old (g q))

/-! ## Emitting (R172) -/

/-- The element index of a slice position in W (R172). -/
def updateIndex (d : Desc) (q : SlicePos) : Nat :=
  (d.elemBase + q.n + q.k * (if d.orderSize0 = 0 then d.sz 0 else d.orderSize0)) % 2 ^ 48

/-- R172: convert the given weights into their slots of DST; other slots keep their contents. -/
def State.emitWeights (s : State) (l p x : Nat) (d : Desc) (ws : List (SlicePos × F32)) : WriteRes :=
  s.writeSome l p d (bitsOf x 105 104) (bitsOf x 107 106) (recOp x 160) 1
    (ws.map (fun w => { place := w.1.place, index := updateIndex d w.1, val := f32Val w.2 }))

/-! ## The writes of R173 -/

/-- A state write: never mirrored (R254). Its status counts only where it is a recovery (log 25). -/
def State.copyWrite (x : State × Status) (a : Nat) (bs : List Byte) : State × Status :=
  let r := x.1.hbmWriteOne a bs
  (r.1, worseEcc x.2 (if r.2 = .eccRecovered then .eccRecovered else .ok))

/-- Steps 1 to 3, or 4 to 6, of R173: the busy header, the body, the final header. -/
def State.writeCopy (x : State × Status) (a : Nat) (now final : StateHeader) (body : List (Nat × List Byte)) :
    State × Status :=
  let b := body.foldl (fun (y : State × Status) w => State.copyWrite y (a + w.1) w.2)
    (State.copyWrite x a ({ now with busy := true } : StateHeader).bytes)
  State.copyWrite b a final.bytes

/-- The records of the positions updated, then the snapshot (R173). -/
def updateBody (us : List Updated) (snapshot : List Nat) : List (Nat × List Byte) :=
  us.map (fun u => (u.pos.record, u.record.flatMap (fun c => leBytes 4 c.code))) ++
    [(64, snapshot.flatMap (fun v => leBytes 2 v))]

/-! ## The update drain -/

/-- The copies of a slice, with what their headers said. -/
structure Copies where
  first : Nat
  duplex : Nat
  h0 : Option StateHeader
  h1 : Option StateHeader
  deriving DecidableEq, Repr

/-- A copy from which the drain may read: readable with BUSY = 0 (R174, R175). -/
def usableCopy (h : Option StateHeader) : Bool :=
  match h with
  | some v => !v.busy
  | none => false

/-- The copies in the order in which they may serve as the source (R174, R175); true names the duplex copy. -/
def Copies.order (c : Copies) : List Bool :=
  (if usableCopy c.h0 then [false] else []) ++ (if usableCopy c.h1 then [true] else [])

/-- Address of a copy. -/
def Copies.at (c : Copies) (duplex : Bool) : Nat := if duplex then c.duplex else c.first

/-- Header of a copy. -/
def Copies.head (c : Copies) (duplex : Bool) : Option StateHeader := if duplex then c.h1 else c.h0

/-- The header of a copy that may serve as the source. -/
def Copies.source (c : Copies) (duplex : Bool) : StateHeader := (c.head duplex).getD (StateHeader.ofNat 0)

/-- REEL_STAMP of a drain: TB_COUNT at which the active reel became active (R168). -/
def State.reelStamp (s : State) : Nat := s.reels.activatedTb % 2 ^ 64

/-- R174: the update is already applied in the source and the drain is a replay. -/
def State.alreadyApplied (s : State) (l : Nat) (e : QEntry) (h : StateHeader) : Bool :=
  e.isReplay && h.stamp == s.reelStamp && h.tag == (s.lt l).stepCtr

/-- R208: the step of the tile is skipped. -/
def State.stepSkipped (s : State) (l : Nat) : Bool :=
  s.governs Obj.saturationAction == 1 && Tab.read s.steps.skips 0 (s.stepOf l) == 1

/-- What the drain does once its source is read: `src` is the source copy, `other` is to be rewritten when `repair`
holds, `ecc` is what the reads have met. DESIGN CHOICE (log 95): R169 gives a non-finite gradient no format slot of its
class-2 saturation; it is counted under FP32 (element type 0x01), the format of the value that is not finite. -/
def State.updateFrom (s : State) (l p : Nat) (e : QEntry) (o : Update) (c : Copies) (src repair : Bool) (ecc : Status) :
    Done :=
  let sl := s.slice p o
  let h := c.source src
  let a := c.at src
  let st (w : Status) : Status := if sl.rejected = 0 then worseEcc ecc w else .quireViolation
  if s.alreadyApplied l e h || s.stepSkipped l then
    let snap := s.copySnapshot a
    let ws := (sl.present.filter (inSnapshot snap)).map (fun q => (q, (s.readRecord a q).1))
    let w := s.emitWeights l p e.x o.dst ws
    let t := if repair && s.alreadyApplied l e h then
        State.writeCopy (w.s, .ok) (c.at (!src)) ((c.head (!src)).getD h) h
          [(576, s.hbmBytes (a + 576) 49152), (64, s.hbmBytes (a + 64) 512)]
      else (w.s, .ok)
    { Done.only (if o.aux.isNone then t.1.clearAfter p e.x else t.1) (st (worseEcc w.status t.2)) with
      count1 := w.sats, rejected := sl.rejected }
  else
    let us := s.updateAll l p e.x o sl a h.count
    let lost := (us.filter (fun u => u.lost)).length
    let conv := convCounts (us.flatMap (fun u => u.record))
    let s1 := (s.setPt p ((s.pt p).countConv 3 0x01 conv)).countClass2 l p 0x01 lost
    let w := s1.emitWeights l p e.x o.dst (us.map (fun u => (u.pos, u.w)))
    let final : StateHeader := { stamp := s.reelStamp, tag := (s.lt l).stepCtr, count := min (h.count + 1) (2 ^ 32 - 1),
                                 busy := false, present := sl.present.length }
    let body := updateBody us sl.snapshot
    let t0 := State.writeCopy (w.s, .ok) c.first ((c.head false).getD h) final body
    let t1 := State.writeCopy t0 c.duplex ((c.head true).getD h) final body
    { s := if o.aux.isNone then t1.1.clearAfter p e.x else t1.1, status := st (worseEcc w.status t1.2),
      count0 := us.length, count1 := w.sats + lost + conv.sats, rejected := sl.rejected, oor := 0 }

/-- R174, R175: try the copies in order; a source whose snapshot or records cannot be read gives way to the other. -/
def State.updateChoose (l p : Nat) (e : QEntry) (o : Update) (c : Copies) :
    List Bool → State → Status → Done
  | [], s, ecc => Done.only s (if ecc = .isolated then .isolated else .eccLost)
  | src :: rest, s, ecc =>
    let h := c.source src
    let moved := rest.isEmpty && decide (c.order.length = 2)
    let repair := moved || c.head (!src) != some h
    let r := s.readBody (c.at src) (s.slice p o).present (repair && s.alreadyApplied l e h)
    if noData r.2 then State.updateChoose l p e o c rest r.1 (if rest.isEmpty then r.2 else .eccRecovered)
    else r.1.updateFrom l p e o c src repair (worseEcc ecc r.2)

/-- The update drain once its checks have passed: both headers, the choice of R174 and R175, the update. -/
def State.updateData (s : State) (l p : Nat) (e : QEntry) (o : Update) : Done :=
  let r0 := s.readHeader o.state.base
  let r1 := r0.s.readHeader (hbmPartner s.part.variant o.state.base)
  let c : Copies := { first := o.state.base, duplex := hbmPartner s.part.variant o.state.base,
                      h0 := r0.header, h1 := r1.header }
  let torn (h : Option StateHeader) : Bool := (h.map (fun v => v.busy)).getD false
  if torn c.h0 && torn c.h1 then Done.only r1.s .stateTorn
  else if c.order.isEmpty then State.updateChoose l p e o c [] r1.s (worseEcc r0.status r1.status)
  else State.updateChoose l p e o c c.order r1.s (worseEcc
    (if noData r0.status then .eccRecovered else r0.status) (if noData r1.status then .ok else r1.status))

/-- FUNC 0x10 and 0x11. -/
def updateEff (s : State) (l p : Nat) (e : QEntry) : Done :=
  let o := s.update p e.x
  if !(s.slotExists e.x) then Done.only s .outOfRange
  else if o.dst.headOk && o.dst.isEmpty then Done.only s .zeroWork
  else match s.updateFault p e.x o with
    | some st => Done.only s st
    | none => s.updateData l p e o

/-- A DRAIN of a FUNC. -/
def isDrain (f : Nat) (x : Nat) : Bool := recOpcode x == opDrain && recFunc x == f

/-- The FUNC codes that R70 lists. -/
def listedFuncs : List Nat := [0x00, 0x01, 0x02, 0x03, 0x04, 0x10, 0x11]

/-- DRAIN FUNC 0x00 (R70); a FUNC that R70 does not list completes here with MALFORMED. -/
def execDrainConvert (tile cycles : Nat) (s : State) : Host.Outcome State Fault Refusal :=
  .next (s.runUnit tile cycles (fun x => isDrain 0 x || (recOpcode x == opDrain && !(listedFuncs.contains (recFunc x))))
    drainEff)

/-- DRAIN FUNC 0x01 (R70). -/
def execDrainBias (tile cycles : Nat) (s : State) : Host.Outcome State Fault Refusal :=
  .next (s.runUnit tile cycles (isDrain 1) drainEff)

/-- DRAIN FUNC 0x02 (R162). -/
def execDrainReluDerivative (tile cycles : Nat) (s : State) : Host.Outcome State Fault Refusal :=
  .next (s.runUnit tile cycles (isDrain 2) drainEff)

/-- DRAIN FUNC 0x03 (R162). -/
def execDrainGeluDerivative (tile cycles : Nat) (s : State) : Host.Outcome State Fault Refusal :=
  .next (s.runUnit tile cycles (isDrain 3) drainEff)

/-- DRAIN FUNC 0x04 (R162). -/
def execDrainSiluDerivative (tile cycles : Nat) (s : State) : Host.Outcome State Fault Refusal :=
  .next (s.runUnit tile cycles (isDrain 4) drainEff)

/-- DRAIN FUNC 0x10 (R166, R170). -/
def execDrainAdamw (tile cycles : Nat) (s : State) : Host.Outcome State Fault Refusal :=
  .next (s.runUnit tile cycles (isDrain 0x10) updateEff)

/-- DRAIN FUNC 0x11 (R166, R170). -/
def execDrainSgdMomentum (tile cycles : Nat) (s : State) : Host.Outcome State Fault Refusal :=
  .next (s.runUnit tile cycles (isDrain 0x11) updateEff)

end Sys2Proof.Machine
end

