-- ==== Sys2Proof/Machine/Vec.lean ====
section
/-!
DEFINITION. The vector unit: every routine of VEC (R76, R78, R223, R232, R441, R442) and the activity predictor
(R152 to R155).
-/

namespace Sys2Proof.Machine

open Sys2Proof

/-! ## Operands -/

/-- The operands of a VEC. -/
structure VecOps where
  in0 : Desc
  in1 : Option Desc
  in2 : Option Desc
  out0 : Option Desc
  out1 : Option Desc
  deriving DecidableEq, Repr

/-- An optional operand of a VEC. -/
def State.vecOpt (s : State) (p x lo : Nat) : Option Desc :=
  if hasOp x lo then some (s.desc p (recOp x lo)) else none

/-- The operands that a record names. -/
def State.vecOps (s : State) (p x : Nat) : VecOps :=
  { in0 := s.desc p (recOp x 80), in1 := s.vecOpt p x 96, in2 := s.vecOpt p x 112, out0 := s.vecOpt p x 128,
    out1 := s.vecOpt p x 144 }

/-- SCALAR0. -/
def vecScalar0 (x : Nat) : Nat := bitsOf x 191 160

/-- SCALAR1. -/
def vecScalar1 (x : Nat) : Nat := bitsOf x 223 192

/-- SCALAR0 as REAL32. -/
def vecReal0 (x : Nat) : F32 := BitVec.ofNat 32 (vecScalar0 x)

/-- SCALAR1 as REAL32. -/
def vecReal1 (x : Nat) : F32 := BitVec.ofNat 32 (vecScalar1 x)

/-- Every operand given. -/
def VecOps.all (o : VecOps) : List (Desc × Bool) :=
  [(o.in0, false)] ++ (o.in1.toList.map (fun d => (d, false))) ++ (o.in2.toList.map (fun d => (d, false))) ++
    (o.out0.toList.map (fun d => (d, true))) ++ (o.out1.toList.map (fun d => (d, true)))

/-- R442, Layout: every operand is dense. -/
def VecOps.dense (o : VecOps) : Bool := o.all.all (fun d => d.1.layout == 0)

/-- An operand is absent or of a non-raw type. -/
def notRaw (d : Option Desc) : Bool :=
  match d with
  | some d => !(isRawType d.elemType)
  | none => true

/-- An operand is absent or meets a condition. -/
def optOk (d : Option Desc) (f : Desc → Bool) : Bool :=
  match d with
  | some d => f d
  | none => true

/-- The number of rows: every coordinate of dimensions 1 and above (R78). -/
def Desc.rows (d : Desc) : Nat := listProd (d.dims.drop 1)

/-- A logical shape: a dense operand's sizes. -/
def Desc.hasCount (d : Desc) (n : Nat) : Bool := d.count == n

/-- The rows of a list of values, `n` to a row. -/
def rowsOf {α : Type} (d : Desc) (vals : List α) : List (List α) := chunks (d.sz 0) d.rows vals

/-- The values of an optional operand. -/
def State.optVals (s : State) (l p : Nat) (d : Option Desc) : List Val :=
  match d with
  | some d => s.vals l p d
  | none => []

/-- The bits of an optional operand. -/
def State.optCodes (s : State) (p : Nat) (d : Option Desc) : List Nat :=
  match d with
  | some d => s.codes p d
  | none => []

/-- Convert into an output with the record's TENSOR_CLASS, ROUND and STREAM. -/
def State.vecWrite (s : State) (l p x : Nat) (d : Option Desc) (vals : List Val) : WriteRes :=
  match d with
  | some d => s.writeVals l p d (bitsOf x 241 240) (bitsOf x 243 242) (recOp x 224) 0 vals
  | none => { s := s, status := .ok, sats := 0 }

/-- Write raw bits into an output. -/
def State.vecWriteCodes (s : State) (p : Nat) (d : Option Desc) (codes : List Nat) : State × Status :=
  match d with
  | some d => s.writeCodes p d codes
  | none => (s, .ok)

/-- The completion of a VEC from what its writes did. -/
def vecDone (w : WriteRes) (st : Status) (sats oor : Nat) : Done :=
  { s := w.s, status := worseEcc w.status st, count0 := oor, count1 := w.sats + sats, rejected := 0, oor := oor }

/-- What a routine checks and does. -/
structure Routine where
  shape : Nat → VecOps → Bool             -- its operand forms (R442); MALFORMED otherwise
  range : Nat → VecOps → Bool             -- OUT_OF_RANGE otherwise
  run : State → Nat → Nat → Nat → VecOps → Done

/-- A VEC: OUT0 empty is no work (R63); then R100 for every operand, R442, the ranges, the routine. -/
def vecEff (r : Routine) (s : State) (l p : Nat) (e : QEntry) : Done :=
  let o := s.vecOps p e.x
  if optOk o.out0 (fun d => d.headOk && d.isEmpty) && o.out0.isSome then Done.only s .zeroWork
  else match firstFault ((o.all.map (fun d => s.descFault d.1 d.2 [0])) ++
      [need o.dense .malformed, need (r.shape e.x o) .malformed, need (r.range e.x o) .outOfRange]) with
    | some st => Done.only s st
    | none => r.run s l p e.x o

/-- A VEC of a routine code. -/
def isVec (r x : Nat) : Bool := recOpcode x == opVec && recRoutine x == r

/-- No further range. -/
def anyRange (_ : Nat) (_ : VecOps) : Bool := true

/-! ## Element-wise routines -/

/-- R442: inputs and OUT0 non-raw and of IN0's RANK and sizes. -/
def elementwiseOk (o : VecOps) : Bool :=
  !(isRawType o.in0.elemType) && notRaw o.in1 && notRaw o.in2 && notRaw o.out0 &&
    optOk o.in1 (fun d => d.sameShape o.in0) && optOk o.in2 (fun d => d.sameShape o.in0) &&
    optOk o.out0 (fun d => d.sameShape o.in0)

/-- An element-wise routine whose OUT0 is `f` of the three inputs' elements. -/
def elementwise (f : Nat → Val → Val → Val → Val) : Routine :=
  { shape := fun _ o => elementwiseOk o, range := anyRange,
    run := fun s l p x o =>
      let a := s.vals l p o.in0
      let b := (s.optVals l p o.in1).toArray
      let c := (s.optVals l p o.in2).toArray
      let vals := a.zipIdx.map (fun q => f x q.1 (b.getD q.2 Val.zero) (c.getD q.2 Val.zero))
      vecDone (s.vecWrite l p x o.out0 vals) .ok 0 0 }

/-- RELU of one element (R76). -/
def reluOf (a : Val) : Val := if a.isNan then .nan else if Val.lt Val.zero a then a else Val.zero

/-- RELU: OUT1, if given, is the 1-bit saved form. -/
def reluRoutine : Routine :=
  { shape := fun _ o => elementwiseOk o && optOk o.out1 (fun d => d.elemType == 0x0D && d.sameShape o.in0),
    range := anyRange,
    run := fun s l p x o =>
      let a := s.vals l p o.in0
      let w := s.vecWrite l p x o.out0 (a.map reluOf)
      let q := w.s.vecWriteCodes p o.out1 (a.map (fun v => if Val.lt Val.zero v then 1 else 0))
      vecDone { w with s := q.1 } q.2 0 0 }

/-- GELU and SILU: OUT1, if given, receives the FP8 saved input. -/
def smoothRoutine (f : F32 → F32) : Routine :=
  { shape := fun _ o => elementwiseOk o && optOk o.out1 (fun d =>
      (d.elemType == 0x04 || d.elemType == 0x05) && d.sameShape o.in0),
    range := anyRange,
    run := fun s l p x o =>
      let a := s.vals l p o.in0
      let w := s.vecWrite l p x o.out0 (a.map (fun v => f32Val (f (roundF32 v))))
      let q := w.s.vecWrite l p x o.out1 a
      vecDone q w.status w.sats 0 }

/-- The scale of QUANTISE at each element (R76). -/
def State.quantiseScales (s : State) (l p : Nat) (d : Desc) : List Val :=
  if d.elemType = 0x0E then (s.codes p d).map (fun (c : Nat) => if c = 0xFF then .nan else .fin false 1 ((c : Int) - 127))
  else s.vals l p d

/-- QUANTISE. -/
def quantiseRoutine : Routine :=
  { shape := fun _ o => !(isRawType o.in0.elemType) && notRaw o.out0 && optOk o.out0 (fun d => d.sameShape o.in0) &&
      optOk o.in1 (fun d => (d.elemType == 0x0E || !(isRawType d.elemType)) && (d.rank == 0 || d.sameShape o.in0)),
    range := anyRange,
    run := fun s l p x o =>
      let a := s.vals l p o.in0
      match o.in1 with
      | some d =>
        let m := (s.quantiseScales l p d).toArray
        let vals := a.zipIdx.map (fun q => Val.mul q.1 (m.getD (if d.rank = 0 then 0 else q.2) Val.zero))
        vecDone (s.vecWrite l p x o.out0 vals) .ok 0 0
      | none => Done.only s .malformed }

/-! ## Row-wise routines -/

/-- R232: a score as SELECT and SOFTMAX read it, decoded into FP32 first; none for a NaN. -/
def readScore (v : Val) : Option F32 :=
  match f32Val (roundF32 v) with
  | .nan => none
  | .inf n => some (if n then 0xFF7FFFFF else 0x7F7FFFFF)
  | .fin _ _ _ => some (roundF32 v)

/-- The larger of two FP32 values. -/
def f32Max (a b : F32) : F32 := if Val.lt (f32Val a) (f32Val b) then b else a

/-- R232: the probability of every score, +0 for an excluded one, which is a +0 leaf of Z (log 27). -/
def softmaxRow (row : List (Option F32)) : List F32 :=
  let live := row.filterMap id
  let m := live.foldl f32Max (live.headD 0)
  let qs := row.map (fun o => match o with
    | some a => vendorExp (f32Sub a m)
    | none => 0)
  let z := treeSum qs
  List.zipWith (fun o q => match o with
    | some _ => f32Div q z
    | none => 0) row qs

/-- SOFTMAX: its rows run along dimension 0 (log 26). -/
def softmaxRoutine : Routine :=
  { shape := fun _ o => elementwiseOk o, range := anyRange,
    run := fun s l p x o =>
      let rows := rowsOf o.in0 (s.vals l p o.in0)
      let vals := rows.flatMap (fun r => (softmaxRow (r.map readScore)).map f32Val)
      vecDone (s.vecWrite l p x o.out0 vals) .ok 0 0 }

/-- SUM: one element of OUT0 for each row; SCALAR1 0 or 1 (R78, R442). -/
def sumRoutine : Routine :=
  { shape := fun x o => !(isRawType o.in0.elemType) && notRaw o.out0 && decide (vecScalar1 x ≤ 1) &&
      optOk o.out0 (fun d => d.hasCount o.in0.rows),
    range := fun x o => decide (vecScalar1 x = 0) || decide (o.in0.rows ≤ 1024),
    run := fun s l p x o =>
      let sums := (rowsOf o.in0 (s.f32s l p o.in0)).map treeSum
      if vecScalar1 x = 0 then vecDone (s.vecWrite l p x o.out0 (sums.map f32Val)) .ok 0 0
      else
        let t := s.pt p
        let run := sums.zipIdx.map (fun q => f32Add (t.running p q.2) q.1)
        let u := s.setPt p { t with vregs := Tab.putList t.vregs 0 run }
        vecDone (u.vecWrite l p x o.out0 (run.map f32Val)) .ok 0 0 }

/-- AMAX: the magnitude goes to the entry that IN0's SCALE_ID names (R204); V24 to V31 hold running state that the
spec does not lay out (log 18). -/
def amaxRoutine : Routine :=
  { shape := fun _ o => !(isRawType o.in0.elemType) && notRaw o.out0, range := anyRange,
    run := fun s l p _ o =>
      let t := s.pt p
      let u := s.setPt p { t with vregs := [], vgen := t.vgen + 1 }
      Done.only (u.deliver l o.in0.scaleId o.in0.elemType (s.vals l p o.in0)) .ok }

/-- An entry ranks before another in TOPK: the larger value, then the lower index. -/
def topBefore (a b : Val × Nat) : Bool := Val.lt b.1 a.1 || (Val.le a.1 b.1 && Val.le b.1 a.1 && decide (a.2 < b.2))

/-- Put an entry in its place in a ranked list. -/
def topInsert (a : Val × Nat) : List (Val × Nat) → List (Val × Nat)
  | [] => [a]
  | b :: t => if topBefore a b then a :: b :: t else b :: topInsert a t

/-- The `k` first entries of a row, with their indices; none for a row that holds a NaN. -/
def topRow (k : Nat) (row : List Val) : Option (List (Val × Nat)) :=
  if row.any Val.isNan then none
  else some ((row.zipIdx.foldl (fun acc a => topInsert a acc) []).take k)

/-- The value and index of place `i` of a row's list; a free value where the spec gives none (log 31). -/
def State.topAt (s : State) (row : Option (List (Val × Nat))) (r k i : Nat) : Val × Nat :=
  match row.bind (fun l => l[i]?) with
  | some a => a
  | none =>
    let f := Config.freeValue (s.free + r * k + i)
    (f32Val (f.setWidth 32), (f >>> 32).toNat)

/-- TOPK: OUT0 and OUT1 hold SCALAR0 elements for each row. -/
def topkRoutine : Routine :=
  { shape := fun x o => !(isRawType o.in0.elemType) && notRaw o.out0 &&
      optOk o.out0 (fun d => d.sz 0 == vecScalar0 x && d.rows == o.in0.rows) &&
      optOk o.out1 (fun d => d.elemType == 0x0B && d.sz 0 == vecScalar0 x && d.rows == o.in0.rows) ||
      !(decide (1 ≤ vecScalar0 x ∧ vecScalar0 x ≤ 64)),
    range := fun x _ => decide (1 ≤ vecScalar0 x ∧ vecScalar0 x ≤ 64),
    run := fun s l p x o =>
      let k := vecScalar0 x
      let rows := (rowsOf o.in0 (s.vals l p o.in0)).map (topRow k)
      let all := rows.zipIdx.flatMap (fun r => (List.range k).map (fun i => s.topAt r.1 r.2 k i))
      let u := { s with free := s.free + rows.length * k }
      let w := u.vecWrite l p x o.out0 (all.map (fun a => a.1))
      let q := w.s.vecWriteCodes p o.out1 (all.map (fun a => a.2))
      vecDone { w with s := q.1 } q.2 0 0 }

/-- LAYERNORM and RMSNORM: IN1, and IN2 where given, hold one element for each element of a row (log 28). -/
def normOk (o : VecOps) : Bool :=
  !(isRawType o.in0.elemType) && notRaw o.in1 && notRaw o.in2 && notRaw o.out0 &&
    optOk o.out0 (fun d => d.sameShape o.in0) && optOk o.in1 (fun d => d.hasCount (o.in0.sz 0)) &&
    optOk o.in2 (fun d => d.hasCount (o.in0.sz 0))

/-- A normalisation: the spec gives no steps or roundings, so each element is an opaque function of the row, epsilon,
gain and bias (log 12). -/
def normRoutine (f : List F32 → F32 → F32 → F32 → Nat → F32) : Routine :=
  { shape := fun _ o => normOk o, range := anyRange,
    run := fun s l p x o =>
      let gain := ((s.optVals l p o.in1).map roundF32).toArray
      let bias := ((s.optVals l p o.in2).map roundF32).toArray
      let rows := rowsOf o.in0 (s.f32s l p o.in0)
      let vals := rows.flatMap (fun r => (List.range r.length).map (fun i =>
        f32Val (f r (vecReal0 x) (gain.getD i 0) (bias.getD i 0) i)))
      vecDone (s.vecWrite l p x o.out0 vals) .ok 0 0 }

/-! ## SAMPLE (R223) -/

/-- The first index of the largest sum of a row; NaN never wins, and a row of NaN gives 0. -/
def sampleRow (row : List (Val × Nat)) : Nat :=
  ((row.foldl (fun (best : Option (Val × Nat)) a =>
    if a.1.isNan then best
    else match best with
      | none => some a
      | some b => if Val.lt b.1 a.1 then some a else best) none).map (fun b => b.2)).getD 0

/-- SAMPLE: one INT32 element of OUT0 for each row of IN0; the sums are compared exactly (log 29). -/
def sampleRoutine : Routine :=
  { shape := fun _ o => !(isRawType o.in0.elemType) &&
      optOk o.out0 (fun d => d.elemType == 0x0B && d.hasCount o.in0.rows),
    range := anyRange,
    run := fun s l p x o =>
      let stream := recOp x 224
      let idx := (List.range o.in0.count).map (fun i => o.in0.elemIndex (coordsOf o.in0.dims i))
      let noisy := List.zipWith (fun v i =>
        Val.add v (f32Val (vendorGumbel (drawU1 (s.drawAt p stream (s.lt l).stepCtr i))))) (s.vals l p o.in0) idx
      let r := s.repairParity l p stream idx
      let q := r.1.vecWriteCodes p o.out0 ((rowsOf o.in0 noisy).map (fun row => sampleRow row.zipIdx))
      Done.only q.1 (worseEcc r.2 q.2) }

/-! ## GATHER and SCATTER_ADD -/

/-- An index list: INT32 of RANK 1. -/
def isIndexList (d : Desc) : Bool := d.elemType == 0x0B && d.rank == 1

/-- GATHER: OUT0 holds a row of IN0's length for each index. IN0 and OUT0 may both be of one raw type. -/
def gatherRoutine : Routine :=
  { shape := fun _ o => optOk o.in1 isIndexList &&
      optOk o.out0 (fun d => d.sz 0 == o.in0.sz 0 && optOk o.in1 (fun i => d.rows == i.count) &&
        (if isRawType o.in0.elemType || isRawType d.elemType then d.elemType == o.in0.elemType else true)),
    range := anyRange,
    run := fun s l p x o =>
      let list := s.optCodes p o.in1
      let oor := (list.filter (fun i => decide (o.in0.rows ≤ i))).length
      let n := o.in0.sz 0
      if isRawType o.in0.elemType then
        let rows := (rowsOf o.in0 (s.codes p o.in0)).toArray
        let q := s.vecWriteCodes p o.out0 (list.flatMap (fun i => rows.getD i (List.replicate n 0)))
        { Done.only q.1 q.2 with count0 := oor, oor := oor }
      else
        let rows := (rowsOf o.in0 (s.vals l p o.in0)).toArray
        vecDone (s.vecWrite l p x o.out0 (list.flatMap (fun i => rows.getD i (List.replicate n Val.zero)))) .ok 0 oor }

/-- Add rows one after the other into the rows of OUT0, each sum rounded to FP32 (log 30). -/
def scatterRows (rows : Array (List F32)) : List (Nat × List F32) → Array (List F32)
  | [] => rows
  | (i, r) :: t => scatterRows (rows.setIfInBounds i (List.zipWith f32Add (rows.getD i []) r)) t

/-- SCATTER_ADD. Rows of OUT0 that no index names keep their bits, except where a block scale or an exact entry is
formed over the whole tensor (log 30). -/
def scatterRoutine : Routine :=
  { shape := fun _ o => !(isRawType o.in0.elemType) && notRaw o.out0 &&
      optOk o.in1 (fun i => isIndexList i && i.count == o.in0.rows) &&
      optOk o.out0 (fun d => d.sz 0 == o.in0.sz 0),
    range := anyRange,
    run := fun s l p x o =>
      match o.out0 with
      | none => Done.only s .malformed
      | some d =>
        let list := s.optCodes p o.in1
        let oor := (list.filter (fun i => decide (d.rows ≤ i))).length
        let adds := (List.zip list (rowsOf o.in0 (s.f32s l p o.in0))).filter (fun q => decide (q.1 < d.rows))
        let out := scatterRows (rowsOf d (s.f32s l p d)).toArray adds
        if isMxType d.elemType || scaleExact d.scaleId then
          vecDone (s.vecWrite l p x (some d) (out.toList.flatMap (fun r => r.map f32Val))) .ok 0 oor
        else
          let n := d.sz 0
          let pieces := ((adds.map (fun q => q.1)).eraseDups).flatMap (fun i =>
            ((out.getD i []).zipIdx).map (fun v => ({ place := i * n + v.2, index := d.elemIndex (coordsOf d.dims (i * n + v.2)),
                                                      val := f32Val v.1 } : Piece)))
          vecDone (s.writeSome l p d (bitsOf x 241 240) (bitsOf x 243 242) (recOp x 224) 0 pieces) .ok 0 oor }

/-! ## PREDICT (R152 to R155) -/

/-- The predictor identity p. -/
def predictorId (x : Nat) : Nat := bitsOf (vecScalar1 x) 5 0

/-- MODE. -/
def predictMode (x : Nat) : Bool := bitAt (vecScalar1 x) 8

/-- R152: every other bit of SCALAR1 is 0. -/
def predictScalarOk (x : Nat) : Bool := bitsOf (vecScalar1 x) 7 6 == 0 && bitsOf (vecScalar1 x) 31 9 == 0

/-- A BIT vector of H elements. -/
def bitVector (h : Nat) (d : Desc) : Bool := d.isForm 0x0D [h]

/-- One output of a dense product of FP32 values, summed in the tree of R76. -/
def treeDot (a b : List F32) : F32 := treeSum (List.zipWith f32Mul a b)

/-- X·U or (X·U)·V: rows of the left factor, columns of the right one, which holds `n` columns. -/
def treeProduct (rows : List (List F32)) (right : List F32) (n : Nat) : List (List F32) :=
  let arr := right.toArray
  rows.map (fun r => (List.range n).map (fun j =>
    treeDot r ((List.range r.length).map (fun i => arr.getD (i * n + j) 0))))

/-- θ − margin_p (R152, log 29). -/
def State.predictThreshold (s : State) (x : Nat) : F32 :=
  f32Sub (vecReal0 x) (BitVec.ofNat 32 (s.governs (Obj.predictorMargin + predictorId x)))

/-- Some row exceeds a threshold at a column. -/
def columnAbove (th : Val) (rows : List (List F32)) (j : Nat) : Bool :=
  rows.any (fun r => Val.lt th (f32Val (r.getD j f32Nan)))

/-- MODE 0: P to OUT0 and C = P ∪ A to OUT1. DESIGN CHOICE (log 28): R152 gives sizes and no RANK; the inputs have RANK 2
and the BIT outputs RANK 1, and any other form is MALFORMED. -/
def predictRoutine : Routine :=
  { shape := fun x o => predictScalarOk x && !(isRawType o.in0.elemType) && notRaw o.in1 && notRaw o.in2 &&
      o.in0.rank == 2 && o.out1.isSome &&
      optOk o.in1 (fun u => u.rank == 2 && u.sz 1 == o.in0.sz 0 &&
        optOk o.in2 (fun v => v.rank == 2 && v.sz 1 == u.sz 0 &&
          optOk o.out0 (bitVector (v.sz 0)) && optOk o.out1 (bitVector (v.sz 0)))),
    range := fun _ o => decide (o.in0.sz 1 ≤ 64) && optOk o.in1 (fun u => decide (u.sz 0 ≤ 64)),
    run := fun s l p x o =>
      match o.in1, o.in2, o.out1 with
      | some u, some v, some c =>
        let xs := rowsOf o.in0 (s.f32s l p o.in0)
        let sc := treeProduct (treeProduct xs (s.f32s l p u) (u.sz 0)) (s.f32s l p v) (v.sz 0)
        let th := f32Val (s.predictThreshold x)
        let keep := (List.range (v.sz 0)).map (columnAbove th sc)
        let stream := recOp x 224
        let rate := s.governs Obj.auditRate
        let audit := keep.zipIdx.map (fun q => !q.1 && decide (s.rlow l p stream (c.elemIndex [q.2]) < rate))
        let r := s.repairParity l p stream ((keep.zipIdx.filter (fun q => !q.1)).map (fun q => c.elemIndex [q.2]))
        let w := r.1.vecWriteCodes p o.out0 (keep.map (fun b => if b then 1 else 0))
        let q := w.1.vecWriteCodes p o.out1 (List.zipWith (fun a b => if a || b then 1 else 0) keep audit)
        Done.only q.1 (worseEcc r.2 (worseEcc w.2 q.2))
      | _, _, _ => Done.only s .malformed }

/-- Add the counts of MODE 1 to the take's tallies (R154). -/
def State.tallyPredictor (s : State) (k audited misses : Nat) : State :=
  { s with take := { s.take with
      audited := Tab.store s.take.audited 0 k (Tab.read s.take.audited 0 k + audited),
      misses := Tab.store s.take.misses 0 k (Tab.read s.take.misses 0 k + misses) } }

/-- MODE 1: OUT0 is IN0 with the columns outside P at +0; OUT1 receives AUDITED and MISSES. DESIGN CHOICE (log 28): R154
gives no RANK; IN0 has RANK 2, P, C and OUT1 have RANK 1, and any other form is MALFORMED. -/
def auditRoutine : Routine :=
  { shape := fun x o => predictScalarOk x && !(isRawType o.in0.elemType) && notRaw o.out0 && o.in0.rank == 2 &&
      optOk o.in1 (bitVector (o.in0.sz 0)) && optOk o.in2 (bitVector (o.in0.sz 0)) &&
      optOk o.out0 (fun d => d.sameShape o.in0) && o.out1.isSome &&
      optOk o.out1 (fun d => d.elemType == 0x0B && d.rank == 1 && decide (2 ≤ d.sz 0)),
    range := anyRange,
    run := fun s l p x o =>
      let vals := s.vals l p o.in0
      let h := o.in0.sz 0
      let keep := (s.optCodes p o.in1).toArray
      let comp := (s.optCodes p o.in2).toArray
      let rows := rowsOf o.in0 vals
      let extra := (List.range h).filter (fun j => comp.getD j 0 == 1 && keep.getD j 0 == 0)
      let miss := extra.filter (fun j => rows.any (fun r => Val.lt (f32Val (vecReal0 x)) (r.getD j .nan)))
      let w := s.vecWrite l p x o.out0 (vals.zipIdx.map (fun q => if keep.getD (q.2 % h) 0 = 1 then q.1 else Val.zero))
      let q := w.s.vecWriteCodes p o.out1 ([extra.length, miss.length] ++ (w.s.optCodes p o.out1).drop 2)
      vecDone { w with s := q.1.tallyPredictor (predictorId x) extra.length miss.length } q.2 0 0 }

/-! ## The rows of the table -/

/-- ADD (R76). An unlisted ROUTINE, or 0x0001, is taken here; an unlisted one completes with MALFORMED. -/
def execAdd (tile cycles : Nat) (s : State) : Host.Outcome State Fault Refusal :=
  .next (s.runUnit tile cycles (fun x => isVec 0x0001 x || (recOpcode x == opVec && !(listedRoutines.contains (recRoutine x))))
    (vecEff (elementwise (fun _ a b _ => Val.add a b))))

/-- MUL. -/
def execMul (tile cycles : Nat) (s : State) : Host.Outcome State Fault Refusal :=
  .next (s.runUnit tile cycles (isVec 0x0002) (vecEff (elementwise (fun _ a b _ => Val.mul a b))))

/-- FMA. -/
def execFma (tile cycles : Nat) (s : State) : Host.Outcome State Fault Refusal :=
  .next (s.runUnit tile cycles (isVec 0x0003) (vecEff (elementwise (fun _ a b c => Val.add (Val.mul a b) c))))

/-- AFFINE. -/
def execAffine (tile cycles : Nat) (s : State) : Host.Outcome State Fault Refusal :=
  .next (s.runUnit tile cycles (isVec 0x0004) (vecEff (elementwise (fun x a _ _ =>
    Val.add (Val.mul a (f32Val (vecReal0 x))) (f32Val (vecReal1 x))))))

/-- RELU. -/
def execRelu (tile cycles : Nat) (s : State) : Host.Outcome State Fault Refusal :=
  .next (s.runUnit tile cycles (isVec 0x0101) (vecEff reluRoutine))

/-- GELU. -/
def execGelu (tile cycles : Nat) (s : State) : Host.Outcome State Fault Refusal :=
  .next (s.runUnit tile cycles (isVec 0x0102) (vecEff (smoothRoutine vendorGelu)))

/-- SILU. -/
def execSilu (tile cycles : Nat) (s : State) : Host.Outcome State Fault Refusal :=
  .next (s.runUnit tile cycles (isVec 0x0103) (vecEff (smoothRoutine vendorSilu)))

/-- SOFTMAX. -/
def execSoftmax (tile cycles : Nat) (s : State) : Host.Outcome State Fault Refusal :=
  .next (s.runUnit tile cycles (isVec 0x0104) (vecEff softmaxRoutine))

/-- SUM (R78). -/
def execSum (tile cycles : Nat) (s : State) : Host.Outcome State Fault Refusal :=
  .next (s.runUnit tile cycles (isVec 0x0201) (vecEff sumRoutine))

/-- AMAX (R76, R204). -/
def execAmax (tile cycles : Nat) (s : State) : Host.Outcome State Fault Refusal :=
  .next (s.runUnit tile cycles (isVec 0x0202) (vecEff amaxRoutine))

/-- TOPK. -/
def execTopk (tile cycles : Nat) (s : State) : Host.Outcome State Fault Refusal :=
  .next (s.runUnit tile cycles (isVec 0x0203) (vecEff topkRoutine))

/-- LAYERNORM. -/
def execLayernorm (tile cycles : Nat) (s : State) : Host.Outcome State Fault Refusal :=
  .next (s.runUnit tile cycles (isVec 0x0301) (vecEff (normRoutine Config.layerNorm)))

/-- RMSNORM. -/
def execRmsnorm (tile cycles : Nat) (s : State) : Host.Outcome State Fault Refusal :=
  .next (s.runUnit tile cycles (isVec 0x0302) (vecEff (normRoutine (fun r e g _ i => Config.rmsNorm r e g i))))

/-- QUANTISE. -/
def execQuantise (tile cycles : Nat) (s : State) : Host.Outcome State Fault Refusal :=
  .next (s.runUnit tile cycles (isVec 0x0401) (vecEff quantiseRoutine))

/-- SAMPLE (R223). -/
def execSample (tile cycles : Nat) (s : State) : Host.Outcome State Fault Refusal :=
  .next (s.runUnit tile cycles (isVec 0x0601) (vecEff sampleRoutine))

/-- GATHER. -/
def execGather (tile cycles : Nat) (s : State) : Host.Outcome State Fault Refusal :=
  .next (s.runUnit tile cycles (isVec 0x0701) (vecEff gatherRoutine))

/-- SCATTER_ADD. -/
def execScatterAdd (tile cycles : Nat) (s : State) : Host.Outcome State Fault Refusal :=
  .next (s.runUnit tile cycles (isVec 0x0702) (vecEff scatterRoutine))

/-- PREDICT with MODE 0 (R152, R153). -/
def execPredict (tile cycles : Nat) (s : State) : Host.Outcome State Fault Refusal :=
  .next (s.runUnit tile cycles (fun x => isVec 0x0801 x && !(predictMode x)) (vecEff predictRoutine))

/-- PREDICT with MODE 1 (R154). -/
def execPredictAudit (tile cycles : Nat) (s : State) : Host.Outcome State Fault Refusal :=
  .next (s.runUnit tile cycles (fun x => isVec 0x0801 x && predictMode x) (vecEff auditRoutine))

end Sys2Proof.Machine
end

