-- ==== Sys2Proof/Machine/Route.lean ====
section
/-!
DEFINITION. ROUTE: selection, capacity and combine weights (R229 to R238), the destination table's entries (R239 to
R241) and COMBINE (R248). DISPATCH stands with the remote operations.
-/

namespace Sys2Proof.Machine

open Sys2Proof

/-! ## Fields -/

/-- OP. -/
def routeOp (x : Nat) : Nat := bitsOf x 65 64

/-- TOP2. -/
def routeTop2 (x : Nat) : Bool := bitAt x 66

/-- RENORM. -/
def routeRenorm (x : Nat) : Bool := bitAt x 67

/-- CAPACITY. -/
def routeCapacity (x : Nat) : Nat := recOp x 144

/-- EXPERT_BASE. -/
def routeBase (x : Nat) : Nat := bitsOf x 171 160

/-- EXPERT_COUNT. -/
def routeCount (x : Nat) : Nat := bitsOf x 184 172

/-- LAYER. -/
def routeLayer (x : Nat) : Nat := recOp x 192

/-- R231, checks 2 and 3. -/
def routeInRange (x : Nat) : Bool := decide (routeBase x + routeCount x ≤ 4096) && decide (routeLayer x < 1024)

/-- An expert entry in force (R240). -/
def State.expertEntry (s : State) (e : Nat) : Nat := (Tab.read s.route.inForce 0 e).toNat

/-- A layer entry in force (R241). -/
def State.layerEntry (s : State) (n : Nat) : Nat := (Tab.read s.route.inForce 0 (4096 + n)).toNat

/-- VALID of a table entry. -/
def entryValid (b : Nat) : Bool := bitAt b 0

/-- ASSIGN: INT32, RANK 2, SIZE0 = 8, SIZE1 = T. -/
def assignOk (d : Desc) (t : Nat) : Bool := d.isForm 0x0B [8, t]

/-! ## Selection (R232 to R237) -/

/-- The index of the largest non-excluded score, the lower index among equals; `skip` is left out. -/
def bestScore (row : List (Option F32)) (skip : Option Nat) : Option Nat :=
  (row.zipIdx.foldl (fun (best : Option (F32 × Nat)) q =>
    match q.1 with
    | none => best
    | some a =>
      if skip == some q.2 then best
      else match best with
        | none => some (a, q.2)
        | some b => if Val.lt (f32Val b.1) (f32Val a) then some (a, q.2) else best) none).map (fun b => b.2)

/-- One token as SELECT sees it: skipped, skipped by the governor, its choices by rank. -/
structure Token where
  index : Nat                    -- TOKEN_INDEX: the token index of R234, its low 32 bits (R236)
  skipped : Bool
  governor : Bool
  probs : List F32
  first : Option Nat
  second : Option Nat
  deriving DecidableEq, Repr

/-- R221, R234: the governor's test at a token index. -/
def State.governorSkips (s : State) (l p x i : Nat) : Bool :=
  s.governorDraws l x &&
    decide (drawRsel (s.drawAt p 0xFFFF (s.lt l).stepCtr i) < s.governs Obj.tokenSkipRatio * 256)

/-- R234: the layer's skip flags for the command's PHASE. -/
def State.layerSkips (s : State) (x : Nat) : Bool :=
  let e := s.layerEntry (routeLayer x)
  entryValid e && ((bitAt e 1 && recPhase x == 1) || (bitAt e 2 && recPhase x == 3))

/-- The coordinate at which the governor tests token row `m` of a SELECT: its index in the step's order (R219, R234). -/
def tokenCoordinate (scores : Desc) (m : Nat) : Nat := (scores.elemBase / scores.sz 0 + m) % 2 ^ 48

/-- The tokens of a SELECT. -/
def State.tokens (s : State) (l p x : Nat) (scores : Desc) : List Token :=
  let flags := (if hasOp x 208 then s.codes p (s.desc p (recOp x 208)) else []).toArray
  let rows := (chunks (scores.sz 0) (scores.sz 1) (s.vals l p scores)).map (fun r => r.map readScore)
  rows.zipIdx.map (fun q =>
    let i := tokenCoordinate scores q.2
    let gov := s.governorSkips l p x i
    let skip := flags.getD q.2 0 == 1 || s.layerSkips x || gov
    let a := if skip then none else bestScore q.1 none
    { index := i % 2 ^ 32, skipped := skip, governor := gov, probs := softmaxRow q.1, first := a,
      second := if routeTop2 x && a.isSome then bestScore q.1 a else none })

/-- The outcome of one choice: its state, its expert's index and its slot (R235). -/
structure Choice where
  state : Nat                    -- 0 assigned, 1 expert full, 2 no choice
  expert : Nat
  slot : Nat
  deriving DecidableEq, Repr

/-- One pass of R235 over the tokens' choices of one rank. -/
def grantPass (capacity : Nat) : List (Option Nat) → Array Nat → List Choice × Array Nat
  | [], count => ([], count)
  | none :: t, count =>
    let r := grantPass capacity t count
    (⟨2, 0, 0⟩ :: r.1, r.2)
  | some e :: t, count =>
    let n := count.getD e 0
    if n < capacity then
      let r := grantPass capacity t (count.setIfInBounds e (n + 1))
      (⟨0, e, n⟩ :: r.1, r.2)
    else
      let r := grantPass capacity t count
      (⟨1, e, 0⟩ :: r.1, r.2)

/-- R237: the weight of an assigned choice, given the probabilities of the token's assigned choices in rank order. -/
def combineWeight (renorm : Bool) (prob : F32) (assigned : List F32) : F32 :=
  if !renorm then prob
  else
    let sigma := match assigned with
      | [] => 0
      | a :: t => t.foldl f32Add a
    if (f32Val sigma).isZero then f32Div 0x3F800000 (roundF32 (Val.ofInt assigned.length)) else f32Div prob sigma

/-- What SELECT decides for one token. -/
structure Assigned where
  token : Token
  c1 : Choice
  c2 : Choice
  deriving DecidableEq, Repr

/-- A token that is dropped (R236). -/
def Assigned.dropped (a : Assigned) : Bool := !a.token.skipped && a.c1.state != 0 && a.c2.state != 0

/-- R235: rank 1 in token order, then rank 2 in token order. -/
def assignTokens (capacity count : Nat) (ts : List Token) : List Assigned :=
  let r1 := grantPass capacity (ts.map (fun t => t.first)) (Array.replicate count 0)
  let r2 := grantPass capacity (ts.map (fun t => t.second)) r1.2
  List.zipWith (fun t c => { token := t, c1 := c.1, c2 := c.2 }) ts (List.zip r1.1 r2.1)

/-- The weights of both choices. -/
def Assigned.weights (a : Assigned) (renorm : Bool) : F32 × F32 :=
  let p (c : Choice) : F32 := a.token.probs.getD c.expert 0
  let live := (if a.c1.state = 0 then [p a.c1] else []) ++ (if a.c2.state = 0 then [p a.c2] else [])
  (if a.c1.state = 0 then combineWeight renorm (p a.c1) live else 0,
   if a.c2.state = 0 then combineWeight renorm (p a.c2) live else 0)

/-- The eight words of a record of ASSIGN (R236). -/
def Assigned.record (a : Assigned) (base : Nat) (renorm : Bool) : List Nat :=
  let w := a.weights renorm
  let half (c : Choice) : Nat := (if c.state = 2 then 0 else base + c.expert) + c.slot * 2 ^ 12
  [half a.c1, w.1.toNat, half a.c2, w.2.toNat,
   a.c1.state + 4 * a.c2.state + 16 * (if a.token.skipped then 2 else if a.dropped then 1 else 0) +
     64 * (if a.token.governor then 1 else 0),
   a.token.index, 0, 0]

/-- R230: the forms of SELECT's operands. -/
def State.selectOk (s : State) (p x : Nat) (sc asg : Desc) : Bool :=
  (sc.elemType == 0x01 || sc.elemType == 0x02 || sc.elemType == 0x03) && sc.layout == 0 && sc.rank == 2 &&
    sc.sz 0 == routeCount x && sc.elemBase % routeCount x == 0 && assignOk asg (sc.sz 1) &&
    !(scaleExact asg.scaleId) && (!(hasOp x 208) || (s.desc p (recOp x 208)).isForm 0x0D [sc.sz 1])

/-- The check of SKIPFLAGS' descriptor. -/
def State.skipFlagsFault (s : State) (p x : Nat) : Option Status :=
  if hasOp x 208 then s.descFault (s.desc p (recOp x 208)) false [0] else none

/-- Add the counts of R238 to the tile's counters. -/
def PhysTile.countTokens (t : PhysTile) (dropped choices skipped : Nat) : PhysTile :=
  { t with tokensDropped := (t.tokensDropped + dropped) % 2 ^ 32,
           choicesDropped := (t.choicesDropped + choices) % 2 ^ 32,
           tokensSkipped := (t.tokensSkipped + skipped) % 2 ^ 32 }

/-- SELECT once its checks have passed; the words that the governor's draws read are repaired (R216). -/
def State.selectRun (s : State) (l p x : Nat) (sc asg : Desc) : Done :=
  let as := assignTokens (routeCapacity x) (routeCount x) (s.tokens l p x sc)
  let r := if s.governorDraws l x
    then s.repairParity l p 0xFFFF ((List.range (sc.sz 1)).map (tokenCoordinate sc)) else (s, .ok)
  let w := r.1.writeCodes p asg (as.flatMap (fun a => a.record (routeBase x) (routeRenorm x)))
  let dropped := (as.filter Assigned.dropped).length
  let full := (as.filter (fun a => a.c1.state == 1)).length + (as.filter (fun a => a.c2.state == 1)).length
  let skipped := (as.filter (fun a => a.token.skipped)).length
  { Done.only (w.1.setPt p ((w.1.pt p).countTokens dropped full skipped)) (worseEcc r.2 w.2) with
    count0 := dropped, count1 := full }

/-- ROUTE SELECT: R231 in order. -/
def selectEff (s : State) (l p : Nat) (e : QEntry) : Done :=
  let sc := s.desc p (recOp e.x 80)
  let asg := s.desc p (recOp e.x 112)
  match firstFault [s.descFault sc false [0], s.descFault asg true [0], s.skipFlagsFault p e.x,
      need (s.selectOk p e.x sc asg) .malformed, need (routeInRange e.x) .outOfRange] with
    | some st => Done.only s st
    | none => s.selectRun l p e.x sc asg

/-! ## Reading ASSIGN (R236) -/

/-- One assigned choice as DISPATCH and COMBINE read it. -/
structure Granted where
  expert : Nat                   -- absolute
  slot : Nat
  weight : F32
  deriving DecidableEq, Repr

/-- One record: its choices by rank. -/
structure TokenRow where
  r1 : Option Granted
  r2 : Option Granted
  bad : Bool
  deriving DecidableEq, Repr

/-- Decode a record of eight words; `bad` where R236 makes the command MALFORMED, or an assigned expert lies outside
the command's range (log 34). -/
def tokenRow (x : Nat) (w : List Nat) : TokenRow :=
  let g (i : Nat) : Nat := w.getD i 0
  let st1 := bitsOf (g 4) 1 0
  let st2 := bitsOf (g 4) 3 2
  let choice (a b : Nat) : Granted := { expert := bitsOf a 11 0, slot := bitsOf a 27 12, weight := BitVec.ofNat 32 b }
  let inRange (e : Nat) : Bool := decide (routeBase x ≤ e ∧ e < routeBase x + routeCount x)
  let c1 := choice (g 0) (g 1)
  let c2 := choice (g 2) (g 3)
  { r1 := if st1 = 0 then some c1 else none, r2 := if st2 = 0 then some c2 else none,
    bad := bitsOf (g 0) 31 28 != 0 || bitsOf (g 2) 31 28 != 0 || bitsOf (g 4) 31 7 != 0 || g 6 != 0 || g 7 != 0 ||
      st1 == 3 || st2 == 3 || bitsOf (g 4) 5 4 == 3 || decide (routeCapacity x ≤ c1.slot) ||
      decide (routeCapacity x ≤ c2.slot) || (st1 == 0 && !(inRange c1.expert)) || (st2 == 0 && !(inRange c2.expert)) }

/-- The records of ASSIGN. -/
def State.tokenRows (s : State) (p x : Nat) (asg : Desc) : List TokenRow :=
  (chunks 8 (asg.sz 1) (s.codes p asg)).map (tokenRow x)

/-! ## COMBINE (R248) -/

/-- R230: the forms of COMBINE's operands; OUT with an exact entry is MALFORMED (R205). -/
def combineOk (x : Nat) (tok asg out : Desc) : Bool :=
  !(isRawType tok.elemType) && tok.layout == 0 && tok.rank == 2 && tok.sz 1 == routeCount x * routeCapacity x &&
    assignOk asg (asg.sz 1) && !(isRawType out.elemType) && out.layout == 0 && out.rank == 2 && out.sz 0 == tok.sz 0 &&
    out.sz 1 == asg.sz 1 && !(scaleExact out.scaleId)

/-- y of R248 at one feature: the rows of the choices as FP32 values. -/
def combineOne (r1 r2 : Option (F32 × F32)) : F32 :=
  let y := match r1 with
    | some (w, v) => f32Mul w v
    | none => 0
  match r2 with
  | some (w, v) => f32Fma w v y
  | none => y

/-- COMBINE once its checks have passed. -/
def State.combineRun (s : State) (l p x : Nat) (tok asg out : Desc) : Done :=
  let rows := (chunks (tok.sz 0) (tok.sz 1) (s.f32s l p tok)).toArray
  let row (g : Granted) : List F32 := rows.getD ((g.expert - routeBase x) * routeCapacity x + g.slot) []
  let vals := (s.tokenRows p x asg).flatMap (fun t => (List.range (out.sz 0)).map (fun i =>
    f32Val (combineOne (t.r1.map (fun g => (g.weight, (row g).getD i 0))) (t.r2.map (fun g => (g.weight, (row g).getD i 0))))))
  let w := s.writeVals l p out 0 0 0 0 vals
  Done.only w.s w.status

/-- ROUTE COMBINE. -/
def combineEff (s : State) (l p : Nat) (e : QEntry) : Done :=
  let tok := s.desc p (recOp e.x 96)
  let asg := s.desc p (recOp e.x 112)
  let out := s.desc p (recOp e.x 128)
  match firstFault [s.descFault tok false [0], s.descFault asg false [0], s.descFault out true [0],
      need (combineOk e.x tok asg out) .malformed, need (routeInRange e.x) .outOfRange,
      need ((s.tokenRows p e.x asg).all (fun t => !t.bad)) .malformed] with
    | some st => Done.only s st
    | none => s.combineRun l p e.x tok asg out

/-- ROUTE OP 0 (R232 to R238); OP 3 completes here with MALFORMED. -/
def execRouteSelect (tile cycles : Nat) (s : State) : Host.Outcome State Fault Refusal :=
  .next (s.runUnit tile cycles (fun x => recOpcode x == opRoute && (routeOp x == 0 || routeOp x == 3)) selectEff)

/-- ROUTE OP 2 (R248). -/
def execRouteCombine (tile cycles : Nat) (s : State) : Host.Outcome State Fault Refusal :=
  .next (s.runUnit tile cycles (fun x => recOpcode x == opRoute && routeOp x == 2) combineEff)

end Sys2Proof.Machine
end

