-- ==== Sys2Proof/Machine/Target.lean ====
section
/-!
DEFINITION. Remote operations at their destination: addresses, checks, effects and reduction rounds (R283, R284, R290,
R292 to R298, R196).
-/

namespace Sys2Proof.Machine

open Sys2Proof

/-! ## Local addresses (R284) -/

/-- The region bits of a local address. -/
def regionOf (a : Nat) : Nat := bitsOf a 47 46

/-- The HBM byte address of a local address. -/
def hbmPart (a : Nat) : Nat := bitsOf a 45 0

/-- The logical tile of a tile-store address. -/
def tilePart (a : Nat) : Nat := bitsOf a 29 22

/-- The tile-store byte address. -/
def storePart (a : Nat) : Nat := bitsOf a 21 0

/-- The logical tiles that [a, a + n) touches, each with its store address and length. -/
def tilePieces (a n : Nat) : List (Nat × Nat × Nat) :=
  (List.range ((a + n - 1) / storeBytes + 1 - a / storeBytes)).map (fun i =>
    let lo := max a ((a / storeBytes + i) * storeBytes)
    let hi := min (a + n) ((a / storeBytes + i + 1) * storeBytes)
    (tilePart lo, storePart lo, hi - lo))

/-! ## Checks (R297) -/

/-- What a packet does at its destination: which bytes it touches, and whether it writes them. -/
def touchedBytes (q : Packet) : Nat := if q.op = pktGetReq then q.addend else q.length

/-- The address is unmapped. -/
def State.addrUnmapped (s : State) (a n : Nat) : Bool :=
  if regionOf a = 0 then !(hbmInRange s.part.variant (hbmPart a) n)
  else if regionOf a = 1 then decide (2 ^ 30 < bitsOf a 45 0 + n) || decide (2 ^ 30 ≤ bitsOf a 45 0) ||
    (tilePieces (bitsOf a 45 0) (max n 1)).any (fun p => decide (s.budget ≤ p.1))
  else true

/-- HBM bytes are outside the window open to remote packages; the own package needs no window. -/
def State.outsideWindow (s : State) (own : Bool) (a n : Nat) : Bool :=
  !own && !(decide (s.obj Obj.remoteHbmBase ≤ a) &&
    decide (a + n ≤ s.obj Obj.remoteHbmBase + s.obj Obj.remoteHbmSize))

/-- The access is forbidden. -/
def State.addrForbidden (s : State) (own write : Bool) (a n : Nat) : Bool :=
  if regionOf a = 0 then s.outsideWindow own (hbmPart a) n || meetsReserved s.part.variant (hbmPart a) n ||
    (write && s.meetsDuplexCopy (hbmPart a) n)
  else write && (tilePieces (bitsOf a 45 0) n).any (fun p => overlaps p.2.1 p.2.2 0 (s.descriptorCount * 64))

/-- A logical tile that the access needs has no tile behind it: fenced, or not yet restarted. -/
def State.addrIsolated (s : State) (a n : Nat) : Bool :=
  regionOf a == 1 && (tilePieces (bitsOf a 45 0) (max n 1)).any (fun p => (s.lt p.1).phys.isNone)

/-- PUT_SIGNAL outside the tile-store region, or SIGNAL with an address that is not a tile's first byte. -/
def signalMisaddressed (q : Packet) : Bool :=
  (q.op == pktPutSignal && regionOf q.addr != 1) ||
    (q.op == pktSignal && (regionOf q.addr != 1 || storePart q.addr != 0))

/-- The operation raises a flag. -/
def raisesFlag (q : Packet) : Bool := q.op == pktPutSignal || q.op == pktSignal

/-- R297, every operation: the first check that fails. -/
def State.accessFault (s : State) (own : Bool) (q : Packet) : Option Status :=
  let n := touchedBytes q
  let write := q.op == pktPut || q.op == pktPutSignal || q.op == pktAcc
  if !s.rst.restored then some .notReady
  else if regionOf q.addr = 1 && s.reels.active.isNone then some .notReady
  else if s.addrUnmapped q.addr n then some .unmapped
  else if s.addrForbidden own write q.addr n then some .forbidden
  else if signalMisaddressed q then some .malformed
  else if raisesFlag q && decide (snFlags ≤ q.flag) then some .outOfRange
  else if s.addrIsolated q.addr n || (raisesFlag q && s.hubDown (tilePart q.addr)) then some .isolated
  else none

/-! ## Reduction rounds (R294 to R296, R198) -/

/-- The header of a round, as its 512 bits. -/
def State.roundHeader (s : State) (p a : Nat) : Nat :=
  leNat ((List.range 64).map (fun i => s.storeByte p (a - 64 + i)))

/-- STATE. -/
def rhState (h : Nat) : Nat := bitsOf h 1 0
/-- FLAG. -/
def rhFlag (h : Nat) : Nat := bitsOf h 17 8
/-- EXPECTED. -/
def rhExpected (h : Nat) : Nat := bitsOf h 47 32
/-- ARRIVED. -/
def rhArrived (h : Nat) : Nat := bitsOf h 63 48
/-- ROWS. -/
def rhRows (h : Nat) : Nat := bitsOf h 70 64
/-- STAGE_SPACE. -/
def rhSpace (h : Nat) : Nat := bitsOf h 71 71
/-- STAGE_BASE. -/
def rhBase (h : Nat) : Nat := bitsOf h 127 80
/-- ADDEND. -/
def rhAddend (h : Nat) : Nat := bitsOf h 159 128
/-- CLAIMED. -/
def rhClaimed (h : Nat) : Nat := bitsOf h 175 160

/-- The bytes of one staging record. -/
def recordBytes (h : Nat) : Nat := rhRows h * 512 + 64

/-- Where staging record `j` lies. -/
def recordAt (h j : Nat) : Nat := rhBase h + j * recordBytes h

/-- The bytes that the header holds for an n-byte field at a byte offset. -/
def State.putHeader (s : State) (p a off n v : Nat) : State := s.storeWrite p (a - 64 + off) (leBytes n v)

/-- The staging records of a round; a round whose header holds CLAIMED 0 has none (R296). -/
def State.roundRecs (s : State) (l a h : Nat) : List StageRec :=
  if rhClaimed h = 0 then []
  else match s.fabric.rounds.find? (fun r => r.tile == l && r.addr == a) with
    | some r => r.recs
    | none => []

/-- Replace the staging records of a round. -/
def State.setRecs (s : State) (l a : Nat) (recs : List StageRec) : State :=
  { s with fabric := { s.fabric with
      rounds := (s.fabric.rounds.filter (fun (r : Round) => !(r.tile == l && r.addr == a))) ++
        [{ tile := l, addr := a, recs := recs }] } }

/-- A record that a refusal left incomplete, claimed by the same tile and package. -/
def ownIncomplete (recs : List StageRec) (q : Packet) : Option Nat :=
  recs.findIdx? (fun r => !r.complete && r.rack == q.srcRack && r.package == q.srcPackage && r.tile == q.srcTile)

/-- A record of the round holds KSLICE already, the sender's own incomplete one apart. -/
def ksliceTaken (recs : List StageRec) (q : Packet) : Bool :=
  recs.any (fun r => r.kslice == q.kslice &&
    (r.complete || !(r.rack == q.srcRack && r.package == q.srcPackage && r.tile == q.srcTile)))

/-- The record that a FIRST packet takes, if one is left. -/
def recordFor (recs : List StageRec) (h : Nat) (q : Packet) : Option Nat :=
  match ownIncomplete recs q with
  | some j => some j
  | none => if rhClaimed h < rhExpected h then some (rhClaimed h) else none

/-- A staging record outside mapped memory. -/
def State.stageUnmapped (s : State) (h j : Nat) : Bool :=
  if rhSpace h = 0 then decide (storeBytes < recordAt h j + recordBytes h)
  else !(hbmInRange s.part.variant (recordAt h j) (recordBytes h)) ||
    meetsReserved s.part.variant (recordAt h j) (recordBytes h)

/-- A staging record that meets a duplex copy, which no contribution may write (R254, log 164). -/
def State.stageCopy (s : State) (h j : Nat) : Bool :=
  rhSpace h == 1 && s.meetsDuplexCopy (recordAt h j) (recordBytes h)

/-- The store address of a round's result buffer, from a packet of a contribution. -/
def accBuffer (q : Packet) : Nat := storePart (q.addr - q.addend)

/-- A contribution's result buffer has a place for a header in front of it. -/
def accPlaced (q : Packet) : Bool :=
  regionOf q.addr == 1 && decide (q.addend ≤ q.addr) && accBuffer q % 64 == 0 && decide (64 ≤ accBuffer q)

/-- R297 for ACC; `claimed` is the record that the contribution took with its FIRST packet. -/
def State.accFault (s : State) (q : Packet) (claimed : Option Nat) : Option Status :=
  let l := tilePart q.addr
  let a := accBuffer q
  if !(accPlaced q) then some .malformed
  else
    let h := s.roundHeader ((s.lt l).phys.getD 0) a
    let recs := s.roundRecs l a h
    let total := q.addend + q.length
    let j := if q.first then recordFor recs h q else claimed
    if rhState h = 3 ∨ rhRows h * 512 < total ∨ (q.last ∧ total ≠ rhRows h * 512) then some .malformed
    else if j.any (fun i => s.stageUnmapped h i) then some .malformed
    else if j.any (fun i => s.stageCopy h i) then some .forbidden
    else if rhState h ≠ 1 then some .roundClosed
    else if q.first && ksliceTaken recs q then some .outOfRange
    else if j.isNone then some .outOfRange
    else none

/-- Write the bytes of a staging record. -/
def State.stageWrite (s : State) (p h at_ : Nat) (bs : List Byte) : State :=
  (s.spaceWrite p (rhSpace h) at_ bs).1

/-- The 64 bytes ahead of a record hold its KSLICE, its source and a completion mark, in a layout that is not stated
(log 4). -/
def State.markRecord (s : State) (p h j : Nat) : State :=
  let bs := (List.range 64).map (fun i => (Config.freeValue (s.free + i)).setWidth 8)
  { s with free := s.free + 64 }.stageWrite p h (recordAt h j) bs

/-- A FIRST packet claims its record (R296). -/
def State.claimRecord (s : State) (l p a h j : Nat) (q : Packet) : State :=
  let recs := s.roundRecs l a h
  let fresh : StageRec := { kslice := q.kslice, rack := q.srcRack, package := q.srcPackage, tile := q.srcTile, complete := false }
  if j < recs.length then (s.setRecs l a (recs.set j fresh)).markRecord p h j
  else ((s.setRecs l a (recs ++ [fresh])).putHeader p a 20 2 (rhClaimed h + 1)).markRecord p h j

/-- The LAST packet of a contribution: its record is complete and ARRIVED increments (R296). -/
def State.arriveRecord (s : State) (l p a h j : Nat) : State :=
  let recs := (s.roundRecs l a (s.roundHeader p a)).modify j (fun r => { r with complete := true })
  let n := (rhArrived h + 1) % 2 ^ 16
  let t := ((s.setRecs l a recs).markRecord p h j).putHeader p a 6 2 n
  if n = rhExpected h then { t with fabric := { t.fabric with ready := t.fabric.ready ++ [(l, a)] } } else t


/-- Stage one packet of a contribution (R296). -/
def State.stagePacket (s : State) (q : Packet) (claimed : Option Nat) : State × Option Nat :=
  let l := tilePart q.addr
  let a := accBuffer q
  let p := (s.lt l).phys.getD 0
  let h := s.roundHeader p a
  let j := (if q.first then recordFor (s.roundRecs l a h) h q else claimed).getD 0
  let t := if q.first then s.claimRecord l p a h j q else s
  let u := t.stageWrite p h (recordAt h j + 64 + q.addend) q.payload
  (if q.last then u.arriveRecord l p a (u.roundHeader p a) j else u, some j)

/-! ## Effects (R290) -/

/-- Write bytes at a local address. -/
def State.writeLocal (s : State) (a : Nat) (bs : List Byte) : State × Status :=
  if regionOf a = 0 then s.hbmWriteChecked (hbmPart a) bs
  else
    let r := (tilePieces (bitsOf a 45 0) bs.length).foldl (fun (x : State × List Byte) q =>
      (x.1.storeWrite ((x.1.lt q.1).phys.getD 0) q.2.1 (x.2.take q.2.2), x.2.drop q.2.2)) (s, bs)
    (r.1, .ok)

/-- Correctable errors of the tile-store pieces of a range are corrected, each in its tile (R407). -/
def State.correctPieces (s : State) (ps : List (Nat × Nat × Nat)) : State × Status :=
  ps.foldl (fun (x : State × Status) q =>
    let c := x.1.correctAt ((x.1.lt q.1).phys.getD 0) [q.2] []
    (c.1, worseEcc x.2 c.2)) (s, .ok)

/-- Read bytes at a local address, HBM with fall-back (R290), a tile store with its ECC (R407). -/
def State.readLocal (s : State) (a n : Nat) : State × Status × List Byte :=
  if regionOf a = 0 then
    let bs := (List.range n).map (fun i => s.hbmByte true (hbmPart a + i))
    let r := s.hbmTouch true (hbmPart a) n
    (r.1, r.2, bs)
  else
    let c := s.correctPieces (tilePieces (bitsOf a 45 0) n)
    (c.1, c.2, (tilePieces (bitsOf a 45 0) n).flatMap (fun q =>
      (List.range q.2.2).map (fun i => s.storeByte ((s.lt q.1).phys.getD 0) (q.2.1 + i))))

/-- The GET_DATA packets that return `bs` to the sender of a request (R279, R280). -/
def State.dataPackets (s : State) (q : Packet) (bs : List Byte) : List Packet :=
  let n := ceilDiv bs.length 256
  ((chunks 256 n bs).zipIdx).map (fun c =>
    { responseTo s q .ok with
      op := pktGetData, first := c.2 == 0, last := c.2 + 1 == n, length := c.1.length, addend := 256 * c.2,
      payload := c.1 })

/-- The effect of one packet that has passed its checks: the state, the status so far, and the staging record. The
flag of a put-with-signal is raised after its last byte. -/
def State.applyPacket (s : State) (via : Via) (q : Packet) (rec : Option Nat) : State × Status × Option Nat :=
  if q.op = pktAcc then
    let r := s.stagePacket q rec
    (r.1, .ok, r.2)
  else if q.op = pktSignal then (s.addFlag (tilePart q.addr) q.flag q.addend, .ok, none)
  else if q.op = pktGetReq then
    let r := s.readLocal q.addr q.addend
    ((s.dataPackets q r.2.2).foldl (fun (t : State) d => t.routeOrDrop via d) r.1, r.2.1, none)
  else
    let w := s.writeLocal q.addr q.payload
    (if q.op = pktPutSignal ∧ q.last then w.1.addFlag (tilePart q.addr) q.flag q.addend else w.1, w.2, none)

/-! ## One operation at its destination -/

/-- No operation is under way. -/
def OpTrack.idle : OpTrack := { inOp := false, first := 0, refusal := none, worst := .ok, record := none }

/-- A request of no work (R17): a GET of no bytes, or a SIGNAL that adds 0. -/
def emptyRequest (q : Packet) : Bool := (q.op == pktGetReq || q.op == pktSignal) && q.addend == 0

/-- The answer that a packet completes, with the state after it. -/
structure Taken where
  s : State
  track : OpTrack
  answer : Option Status         -- the status of the RESPONSE, at the LAST packet
  refused : Option Nat           -- E2E_SEQ of the first packet of an operation refused by this packet's LAST
  deriving DecidableEq, Repr

/-- The first check of R297 that a packet fails at its destination. -/
def State.packetFault (s : State) (own : Bool) (k : OpTrack) (q : Packet) : Option Status :=
  if !(pktWellFormed q) || (q.first == k.inOp) then some .malformed
  else match s.accessFault own q with
    | some st => some st
    | none => if q.op = pktAcc then s.accFault q k.record else none

/-- The header of a contribution's round is read for its checks, and its correctable errors corrected (R407). -/
def State.readRound (s : State) (own : Bool) (k : OpTrack) (q : Packet) : State × Status :=
  if q.op == pktAcc && pktWellFormed q && q.first != k.inOp && (s.accessFault own q).isNone && accPlaced q
  then s.correctAt ((s.lt (tilePart q.addr)).phys.getD 0) [(accBuffer q - 64, 64)] []
  else (s, .ok)

/-- R292, R297: take one packet of an operation in its order; `via` presents what it sends back. A request of no work that
also fails a check of R297 is answered with that check's status: R17 and R297 give no order (DESIGN CHOICE, log 133). -/
def State.takePacket (s : State) (own : Bool) (via : Via) (k : OpTrack) (q : Packet) : Taken :=
  let first := if q.first then q.e2eSeq else k.first
  match (if q.first then none else k.refusal) with
  | some st =>
    if q.last then { s := s, track := OpTrack.idle, answer := some st, refused := some first }
    else { s := s, track := k, answer := none, refused := none }
  | none =>
    let c := s.readRound own k q
    match s.packetFault own k q with
    | some st =>
      let t := c.1.noteRefusal q st
      if q.last then { s := t, track := OpTrack.idle, answer := some st, refused := some first }
      else { s := t, track := { inOp := true, first := first, refusal := some st, worst := .ok, record := none },
             answer := none, refused := none }
    | none =>
      let r := c.1.applyPacket via q k.record
      let worst := worseEcc (if q.first then .ok else k.worst) (worseEcc c.2 r.2.1)
      if q.last then
        { s := r.1, track := OpTrack.idle, answer := some (if emptyRequest q then .zeroWork else worst), refused := none }
      else { s := r.1, track := { inOp := true, first := first, refusal := none, worst := worst, record := r.2.2 },
             answer := none, refused := none }

/-! ## ROUND_COMBINE (R196, R296) -/

/-- The pairs of a contribution, as staged. -/
def State.stagedPairs (s : State) (p h j : Nat) : List Pair :=
  (List.range (rhRows h * 64)).map (fun i =>
    Pair.ofBits (BitVec.ofNat 64 (leNat ((List.range 8).map (fun b =>
      s.spaceByte p (rhSpace h) (recordAt h j + 64 + 8 * i + b))))))

/-- The effect of reading the header of a round and its staging records: findings of HBM (R257) and of the tile store
(R407). -/
def State.touchStage (s : State) (p a h : Nat) : State :=
  let n := rhExpected h * recordBytes h
  let c := (s.correctAt p ((a - 64, 64) :: (if rhSpace h = 0 then [(rhBase h, n)] else [])) []).1
  (c.spaceTouch (rhSpace h) (rhBase h) n).1

/-- Contributions in ascending KSLICE. -/
def insertSlice (c : Nat × List Pair) : List (Nat × List Pair) → List (Nat × List Pair)
  | [] => [c]
  | d :: t => if c.1 ≤ d.1 then c :: d :: t else d :: insertSlice c t

/-- R196: the result of a round. -/
def State.reduceRound (s : State) (cs : List (Nat × List Pair)) : List Pair :=
  if s.repro then (valueOf cs 16 0).getD [] else chainReduce ((cs.foldr insertSlice []).map (fun c => c.2))

/-- Combine the round at a buffer: the result is written, STATE becomes 2 and FLAG is raised. -/
def State.combineRound (s : State) (l a p : Nat) : State :=
  let h := s.roundHeader p a
  let recs := s.roundRecs l a h
  let cs := recs.zipIdx.map (fun r => (r.1.kslice, s.stagedPairs p h r.2))
  let bytes := (s.reduceRound cs).flatMap (fun x => leBytes 8 x.bits.toNat)
  let t := ((s.touchStage p a h).storeWrite p a bytes).putHeader p a 0 1 (setBits (h % 256) 1 0 2)
  t.addFlag l (rhFlag h) (rhAddend h)

/-- ROUND_COMBINE (R296): the tile's engine combines the oldest round whose contributions have all arrived. -/
def execRoundCombine (tile : Nat) (s : State) : Host.Outcome State Fault Refusal :=
  .next (match s.fabric.ready.find? (fun r => r.1 == tile), (s.lt tile).phys with
    | some r, some p =>
      { s with fabric := { s.fabric with ready := s.fabric.ready.erase r } }.combineRound tile r.2 p
    | _, _ => s)

end Sys2Proof.Machine
end

