-- ==== Sys2Proof/Machine/Remote.lean ====
section
/-!
DEFINITION. Remote operations at their source: PUT, GET, ACC, SIGNAL of KIND 1 and 2 and ROUTE DISPATCH, their checks,
sequence numbers, the window, completion and re-issue (R7, R8, R244 to R246, R262, R291 to R294, R298, R413).
-/

namespace Sys2Proof.Machine

open Sys2Proof

/-! ## Global addresses and fields (R73, R283) -/

/-- The local address of a global address. -/
def gLocal (g : Nat) : Nat := bitsOf g 47 0

/-- The package of a global address. -/
def gPackage (g : Nat) : Nat := bitsOf g 53 48

/-- The rack of a global address. -/
def gRack (g : Nat) : Nat := bitsOf g 59 54

/-- The global identity that a global address names: 64 × rack + package. -/
def gIdent (g : Nat) : Nat := 64 * gRack g + gPackage g

/-- GADDR of PUT, GET and ACC. -/
def remoteGaddr (x : Nat) : Nat := bitsOf x 143 80

/-- GADDR of a SIGNAL. -/
def sigGaddr (x : Nat) : Nat := bitsOf x 175 112

/-- WITH_SIGNAL of a PUT. -/
def putSignal (x : Nat) : Bool := bitAt x 144

/-- One operation as a command asks for it. -/
structure OpSpec where
  op : Nat
  channel : Nat
  gaddr : Nat
  data : List Byte               -- what it carries
  bytes : Nat                    -- how many bytes a GET asks for
  flag : Nat
  addend : Nat
  kslice : Nat
  getLocal : Option Nat
  isDispatch : Bool
  base : Status                  -- what reading LOCAL gave
  deriving DecidableEq, Repr

/-- A spec with nothing but an address. -/
def OpSpec.bare (g : Nat) : OpSpec :=
  { op := 0, channel := 0, gaddr := g, data := [], bytes := 0, flag := 0, addend := 0, kslice := 0, getLocal := none,
    isDispatch := false, base := .ok }

/-! ## The checks at the source (R291) -/

/-- The first failing check of R291 for an operation. -/
def State.sourceFault (s : State) (o : OpSpec) : Option Status :=
  let own := decide (gIdent o.gaddr = s.ownId)
  let a := gLocal o.gaddr
  if !own && ((s.hasOptics && s.heldDark) || (!s.hasOptics && !s.fitted)) then some .unmapped
  else if !own && !s.hasOptics then some .absentUnit
  else if !own && decide (s.obj Obj.fabricState ≠ fabricUp) then some .notReady
  else if o.op = pktPutSignal ∧ regionOf a = 0 then some .malformed
  else if o.op = pktSignal ∧ (regionOf a = 0 ∨ storePart a ≠ 0) then some .malformed
  else if (o.op = pktPutSignal ∨ o.op = pktSignal) ∧ snFlags ≤ o.flag then some .outOfRange
  else none

/-- The first failing check of R291 for a fence. -/
def State.fenceFault (s : State) (g : Nat) : Option Status :=
  match s.sourceFault (OpSpec.bare g) with
  | some st => some st
  | none => if gLocal g ≠ 0 then some .malformed else none

/-! ## Packets (R279, R280) -/

/-- The packets of an operation, their sequence numbers still 0. -/
def State.packetsOf (s : State) (l : Nat) (o : OpSpec) : List Packet :=
  let head : Packet := { blankPacket with
    op := o.op, channel := o.channel, dstRack := gRack o.gaddr, dstPackage := gPackage o.gaddr,
    srcRack := s.obj Obj.ownRack, srcPackage := s.obj Obj.ownPackage, srcTile := l, addr := gLocal o.gaddr,
    flag := o.flag, addend := if o.op = pktGetReq then o.bytes else if o.op = pktAcc then 0 else o.addend,
    kslice := o.kslice }
  if o.data.isEmpty then [head]
  else
    let n := ceilDiv o.data.length 256
    ((chunks 256 n o.data).zipIdx).map (fun c =>
      { head with
        first := c.2 == 0, last := c.2 + 1 == n, length := c.1.length, addr := head.addr + 256 * c.2,
        addend := if o.op = pktAcc then 256 * c.2 else head.addend, payload := c.1 })

/-- The key of a stream of numbers toward a package on a channel. -/
def seqKey (dst channel : Nat) : Nat := 4 * dst + channel

/-- Give consecutive numbers to packets. -/
def numberFrom (n : Nat) (ps : List Packet) : List Packet :=
  ps.zipIdx.map (fun p => { p.1 with e2eSeq := (n + p.2) % 2 ^ 16 })

/-! ## Carrying an operation out (R262, R291, R293) -/

/-- The bytes that the rows of a GET's LOCAL take: where each row lies and how long it is. -/
def Desc.rowPlaces (d : Desc) : List (Nat × Nat) :=
  (List.range (listProd (d.storedDims.drop 1))).map (fun i =>
    (d.rowStart (0 :: coordsOf (d.storedDims.drop 1) i), d.rowBytes))

/-- The bytes that LOCAL's packed rows hold. -/
def Desc.packedLength (d : Desc) : Nat := listProd (d.storedDims.drop 1) * d.rowBytes

/-- Write bytes at an offset of LOCAL's packed rows, row by row; the status is the worst of the writes (R257). -/
def State.writePacked (s : State) (p : Nat) (d : Desc) (off : Nat) (bs : List Byte) : State × Status :=
  d.rowPlaces.zipIdx.foldl (fun (x : State × Status) r =>
    let lo := max off (r.2 * r.1.2)
    let hi := min (off + bs.length) ((r.2 + 1) * r.1.2)
    if lo < hi then
      let w := x.1.spaceWrite p d.space (r.1.1 + (lo - r.2 * r.1.2)) ((bs.drop (lo - off)).take (hi - lo))
      (w.1, worseEcc x.2 w.2)
    else x) (s, .ok)

/-- Data returned to a GET is written to its LOCAL, where the tile still has a place (R375): the state, and what reading
the descriptor and writing gave. -/
def State.deliverGet (s : State) (l : Nat) (o : RemoteOp) (off : Nat) (bs : List Byte) : State × Status :=
  match (s.lt l).phys, o.getLocal with
  | some p, some d =>
    let c := s.correctAt p [(64 * d, 64)] []
    let w := c.1.writePacked p (s.desc p d) off bs
    (w.1, worseEcc c.2 w.2)
  | _, _ => (s, .ok)

/-- Apply an operation on the own package (R262), and answer it. -/
def State.applyOwn (s : State) (l : Nat) (o : RemoteOp) : State × Status :=
  match o.getLocal, o.packets with
  | some _, q :: _ =>
    match s.accessFault true q with
    | some st => (s.noteRefusal q st, st)
    | none =>
      let r := s.readLocal q.addr q.addend
      let w := r.1.deliverGet l o 0 r.2.2
      (w.1, worseEcc r.2.1 w.2)
  | _, ps =>
    let r := ps.foldl (fun (x : State × OpTrack × Status) q =>
      let t := x.1.takePacket true (tileVia 0 o.channel) x.2.1 q
      (t.s, t.track, t.answer.getD x.2.2)) (s, OpTrack.idle, Status.ok)
    (r.1, r.2.2)

/-- Put an operation back in its place. -/
def LogTile.setOp (t : LogTile) (i : Nat) (o : RemoteOp) : LogTile := { t with ops := t.ops.set i o }

/-- Operations that have left the port and have no answer. -/
def LogTile.outstandingOps (t : LogTile) : Nat := (t.ops.filter (fun o => o.sent && o.answer.isNone)).length

/-- An operation on the same channel to the same destination package. -/
def RemoteOp.sameStream (o a : RemoteOp) : Bool := a.dst == o.dst && a.channel == o.channel && !a.own

/-- R293: how many packets from number `n` on lie less than 32,768 above the first packet of the oldest uncompleted
operation to the same destination package and channel. -/
def LogTile.room (t : LogTile) (o : RemoteOp) (n : Nat) : Nat :=
  match t.ops.find? (fun a => a.sent && a.answer.isNone && o.sameStream a) with
  | some a => 2 ^ 15 - (n + 2 ^ 16 - a.firstSeq) % 2 ^ 16
  | none => 2 ^ 15

/-- Every earlier operation of the stream has sent all its packets, and there is room for one more. -/
def LogTile.mayNumber (t : LogTile) (i : Nat) (o : RemoteOp) : Bool :=
  (t.ops.take i).all (fun a => !(o.sameStream a) || a.answer.isSome || (a.sent && decide (a.packets.length ≤ a.left))) &&
    decide (0 < t.room o (Tab.read t.seqs 0 (seqKey o.dst o.channel)))

/-- The tile that presents an operation's packets at the injection arbiters. -/
def State.opVia (s : State) (l : Nat) (o : RemoteOp) : Via := tileVia ((s.lt l).phys.getD 0) o.channel

/-- Route packets of an operation; the first one that cannot go on refuses it (R286, R297). -/
def State.routePackets (s : State) (via : Via) (ps : List Packet) : State :=
  ps.foldl (fun (t : State) q => t.transit { pkt := q, msg := none, via := via }) s

/-- R293: send the packets of a numbered operation that have room; the others are held. -/
def State.sendMore (s : State) (l i : Nat) (o : RemoteOp) : State :=
  let n := min o.packets.length ((s.lt l).room o o.firstSeq)
  if n ≤ o.left then s
  else (s.setLt l ((s.lt l).setOp i { o with left := n })).routePackets (s.opVia l o) ((o.packets.take n).drop o.left)

/-- Send one operation: carry it out inside the part, or number it and send what has room. -/
def State.sendOp (s : State) (l i : Nat) (o : RemoteOp) : State :=
  if o.own then
    let r := (s.setLt l ((s.lt l).setOp i { o with sent := true, left := o.packets.length, reissuing := false })).applyOwn l o
    r.1.setLt l { r.1.lt l with ops := (r.1.lt l).ops.modify i (fun a => a.take r.2) }
  else
    let t := s.lt l
    let n := Tab.read t.seqs 0 (seqKey o.dst o.channel)
    let ps := numberFrom n o.packets
    let o1 := { o with sent := true, firstSeq := n, lastSeq := (n + ps.length - 1) % 2 ^ 16, packets := ps }
    let t1 := { t.setOp i o1 with seqs := Tab.put t.seqs (seqKey o.dst o.channel) ((n + ps.length) % 2 ^ 16) }
    (s.setLt l t1).sendMore l i o1

/-- Send every packet that may go now, in issue order: at most 64 operations outstanding, inside the window. -/
def State.sendReady (s : State) (l : Nat) : State :=
  (List.range (s.lt l).ops.length).foldl (fun (t : State) i =>
    match (t.lt l).ops[i]? with
    | some o =>
      if o.answer.isSome then t
      else if o.sent then (if o.own then t else t.sendMore l i o)
      else if decide ((t.lt l).outstandingOps < 64) && (o.own || (t.lt l).mayNumber i o) then t.sendOp l i o
      else t
    | none => t) s

/-! ## Completion -/

/-- The status of a command from its operations: the first NACK in issue order, else the worst of the others. -/
def opsStatus (ops : List RemoteOp) : Status :=
  match ops.find? (fun o => isNack (o.answer.getD .ok)) with
  | some o => o.answer.getD .ok
  | none => ops.foldl (fun (st : Status) o => worseEcc (worseEcc st o.base) (o.answer.getD .ok)) .ok

/-- DISPATCH counts every NACK, raises one event and fails the take (R246, R411). -/
def State.judgeDispatch (s : State) (l : Nat) (ops : List RemoteOp) : State :=
  let n := (ops.filter (fun o => isNack (o.answer.getD .ok))).length
  if n = 0 then s
  else ({ s with take := { s.take with dispatchNacks := s.take.dispatchNacks + n } }.event 0x0C1 (unitOf 1 l)
    (opsStatus ops) 0).failTake

/-- The completion of a command of answered operations; a DISPATCH that met a NACK has had its event (log 156). -/
def Done.answered (s : State) (st : Status) (dispatch : Bool) : Done :=
  { Done.only s st with noted := dispatch && isNack st }

/-- Complete the command of answered operations. `here` is the command of the running row with its cycles; any other
completes with a free CYCLES, because an answer carries no cycle count (log 4). -/
def State.finishEntry (s : State) (l : Nat) (here : Option (Nat × Nat)) (id pos : Nat) (ops : List RemoteOp) : State :=
  let st := opsStatus ops
  let dispatch := ops.any (fun o => o.isDispatch)
  let a := s.setLt l { s.lt l with ops := (s.lt l).ops.filter (fun o => o.entry != id) }
  let b := if dispatch then a.judgeDispatch l ops else a
  match (b.lt l).phys, (b.lt l).queue.find? (fun e => e.id == id) with
  | some p, some e =>
    match here with
    | some h => if h.1 = id then State.complete l p h.2 e (Done.answered b st dispatch)
        else State.complete l p b.freeCycles e (Done.answered b.useFree st dispatch)
    | none => State.complete l p b.freeCycles e (Done.answered b.useFree st dispatch)
  | _, _ =>
    let t := b.lt l
    (b.setLt l (if dispatch then t else { t with hist := setHistStatus t.hist pos (some st) })).failOn st

/-- The first command of a tile whose operations are all answered. -/
def LogTile.doneEntry (t : LogTile) : Option (Nat × Nat × List RemoteOp) :=
  (t.ops.find? (fun o => t.ops.all (fun a => a.entry != o.entry || a.answer.isSome))).map (fun o =>
    (o.entry, o.pos, t.ops.filter (fun a => a.entry == o.entry)))

/-- A fence in a queue. -/
def isFence (x : Nat) : Bool := recOpcode x == opSignal && sigKind x == 2

/-- A fence whose earlier operations to its package have all completed (R291). -/
def LogTile.doneFence (t : LogTile) : Option QEntry :=
  t.queue.find? (fun e => e.st == .issued && isFence e.x && t.ops.all (fun o => o.dst != gIdent (sigGaddr e.x)))

/-- Complete answered commands and fences, one after the other. -/
def State.finishAll (l : Nat) (here : Option (Nat × Nat)) : Nat → State → State
  | 0, s => s
  | n + 1, s =>
    match (s.lt l).doneEntry with
    | some d => State.finishAll l here n (s.finishEntry l here d.1 d.2.1 d.2.2)
    | none =>
      match (s.lt l).doneFence, (s.lt l).phys with
      | some e, some p =>
        let own := match here with
          | some h => h.1 == e.id
          | none => false
        let c := if own then (here.map (fun h => h.2)).getD 0 else s.freeCycles
        State.finishAll l here n (State.complete l p c e (Done.only (if own then s else s.useFree) .ok))
      | _, _ => s

/-- The fabric port of a tile at work: send what may go, complete what is answered, and place a tile that waited for
its last answer (R181). -/
def State.portWork (s : State) (l : Nat) (here : Option (Nat × Nat)) : State :=
  let a := s.sendReady l
  let b := State.finishAll l here ((a.lt l).ops.length + (a.lt l).queue.length + 1) a
  let c := (b.sendReady l).tryPlace l
  if (s.lt l).ops.isEmpty || (c.lt l).phys.isSome then c else c.noteUnplaced l

/-- The fabric ports of all tiles with operations at work. -/
def State.settle (s : State) : State :=
  (s.tiles.filter (fun e => !(e.2.ops.isEmpty) || e.2.queue.any (fun q => q.st == .issued && isFence q.x))).foldl
    (fun (t : State) e => t.portWork e.1 none) s

/-! ## Issue -/

/-- What a fabric command does when it starts: an answer at once, or operations to issue. -/
structure RemotePlan where
  s : State
  done : Option Status
  ops : List OpSpec
  deriving DecidableEq, Repr

/-- A plan that completes at once. -/
def RemotePlan.stop (s : State) (st : Status) : RemotePlan := { s := s, done := some st, ops := [] }

/-- The operation of a spec, issued for a queue entry. -/
def State.newOp (s : State) (l : Nat) (e : QEntry) (o : OpSpec) : RemoteOp :=
  { entry := e.id, pos := e.pos, dst := gIdent o.gaddr, own := gIdent o.gaddr == s.ownId, channel := o.channel,
    firstSeq := 0, lastSeq := 0, packets := s.packetsOf l o, issuedTb := s.time.tb,
    sent := (s.sourceFault o).isSome, left := 0, base := o.base, answer := s.sourceFault o, reissuing := false,
    isDispatch := o.isDispatch, getLocal := o.getLocal }

/-- The fabric port can take a further command: fewer than 64 operations outstanding, no fence pending (R291). -/
def LogTile.portOpen (t : LogTile) : Bool :=
  decide (t.ops.length < 64) && t.queue.all (fun e => !(e.st == .issued && isFence e.x))

/-- Hold a queue entry as issued; it belongs to the step of its start (R199). -/
def LogTile.markIssued (t : LogTile) (id : Nat) : LogTile :=
  { t with queue := t.queue.map (fun q => if q.id = id then { q with st := .issued, step := t.stepCtr } else q) }

/-- Start a fabric command with its plan. -/
def State.startPlan (l p cycles : Nat) (e : QEntry) (r : RemotePlan) : State :=
  match r.done with
  | some st => State.complete l p cycles e (Done.only r.s st)
  | none =>
    let t := (r.s.lt l).markIssued e.id
    (r.s.setLt l { t with ops := t.ops ++ r.ops.map (fun o => r.s.newOp l e o) }).portWork l (some (e.id, cycles))

/-- R407: the correctable errors that a fabric command meets as it starts are corrected; an answer at once of OK, and each
operation it issues, ends no better than ECC_RECOVERED. -/
def RemotePlan.heal (s : State) (p x : Nat) (r : RemotePlan) : RemotePlan :=
  let c := r.s.correct p (s.foundErrors p x ((r.done.map workedStatus).getD true))
  { s := c.1, done := r.done.map (fun st => if st = .ok then c.2 else st),
    ops := r.ops.map (fun o => { o with base := worseEcc o.base c.2 }) }

/-- Run the next fabric command of a row. -/
def State.runRemote (s : State) (l cycles : Nat) (mine : Nat → Bool) (plan : State → Nat → Nat → QEntry → RemotePlan) :
    State :=
  match s.startable l mine with
  | none => s
  | some (p, e) =>
    match s.preStatus l e with
    | some st => State.complete l p cycles e (Done.only s st)
    | none =>
      if (s.lt l).portOpen && s.canStart l p e then State.startPlan l p cycles e ((plan s l p e).heal s p e.x) else s

/-! ## PUT, GET, ACC -/

/-- The bytes of LOCAL's packed rows, in logical order (R96, R284). -/
def State.packedBytesOf (s : State) (p : Nat) (d : Desc) : List Byte :=
  (d.writeRows (s.codes p d)).flatMap (fun r => r.2)

/-- The source checks of a single operation, then what it sends. -/
def planOne (s : State) (o : OpSpec) : RemotePlan :=
  match s.sourceFault o with
  | some st => RemotePlan.stop s st
  | none => { s := s, done := none, ops := [o] }

/-- A PUT or an ACC reads LOCAL; data that is lost sends nothing. -/
def planSend (s : State) (p : Nat) (d : Desc) (o : OpSpec) : RemotePlan :=
  match s.sourceFault o with
  | some st => RemotePlan.stop s st
  | none =>
    let r := s.touchDesc d
    if noData r.2 then RemotePlan.stop r.1 r.2
    else { s := r.1, done := none, ops := [{ o with data := s.packedBytesOf p d, base := r.2 }] }

/-- PUT (R73, R290). -/
def planPut (s : State) (_l p : Nat) (e : QEntry) : RemotePlan :=
  let x := e.x
  let d := s.desc p (recOp x 64)
  if d.headOk && d.isEmpty then RemotePlan.stop s .zeroWork
  else match s.descFault d false [0, 1] with
    | some st => RemotePlan.stop s st
    | none => planSend s p d
        { op := if putSignal x then pktPutSignal else pktPut, channel := chRequest, gaddr := remoteGaddr x, data := [],
          bytes := 0, flag := if putSignal x then bitsOf x 156 145 else 0,
          addend := if putSignal x then bitsOf x 191 160 else 0, kslice := 0, getLocal := none, isDispatch := false,
          base := .ok }

/-- ACC (R73, R294). -/
def planAcc (s : State) (_l p : Nat) (e : QEntry) : RemotePlan :=
  let x := e.x
  let d := s.desc p (recOp x 64)
  if d.headOk && d.isEmpty then RemotePlan.stop s .zeroWork
  else match firstFault [s.descFault d false [0, 1], need d.isPairForm .malformed] with
    | some st => RemotePlan.stop s st
    | none => planSend s p d
        { op := pktAcc, channel := chRequest, gaddr := remoteGaddr x, data := [], bytes := 0, flag := 0, addend := 0,
          kslice := recOp x 192, getLocal := none, isDispatch := false, base := .ok }

/-- GET (R73, R290); a destination with an exact entry is MALFORMED (R205). -/
def planGet (s : State) (_l p : Nat) (e : QEntry) : RemotePlan :=
  let x := e.x
  let d := s.desc p (recOp x 64)
  if d.headOk && d.isEmpty then RemotePlan.stop s .zeroWork
  else match firstFault [s.descFault d true [0, 1], need (!(scaleExact d.scaleId)) .malformed] with
    | some st => RemotePlan.stop s st
    | none => planOne s
        { op := pktGetReq, channel := chRequest, gaddr := remoteGaddr x, data := [], bytes := d.packedLength, flag := 0,
          addend := 0, kslice := 0, getLocal := some (recOp x 64), isDispatch := false, base := .ok }

/-- SIGNAL of KIND 1 (R73, R290); ADDEND 0 is no work (R63). -/
def planSignal (s : State) (_l _p : Nat) (e : QEntry) : RemotePlan :=
  if sigAddend e.x = 0 then RemotePlan.stop s .zeroWork
  else planOne s
    { op := pktSignal, channel := chRequest, gaddr := sigGaddr e.x, data := [], bytes := 0, flag := sigFlag e.x,
      addend := sigAddend e.x, kslice := 0, getLocal := none, isDispatch := false, base := .ok }

/-- SIGNAL of KIND 2, the fence (R291). -/
def planFence (s : State) (_l _p : Nat) (e : QEntry) : RemotePlan :=
  match s.fenceFault (sigGaddr e.x) with
  | some st => RemotePlan.stop s st
  | none => { s := s, done := none, ops := [] }

/-! ## ROUTE DISPATCH (R244 to R246) -/

/-- GROUP_BASE. -/
def groupBase (x : Nat) : Nat := recOp x 224

/-- GROUP_INDEX. -/
def groupIndex (x : Nat) : Nat := bitsOf x 247 240

/-- RACK of an expert entry. -/
def eeRack (e : Nat) : Nat := bitsOf e 13 8
/-- PACKAGE. -/
def eePackage (e : Nat) : Nat := bitsOf e 21 16
/-- TILE_FIRST. -/
def eeFirst (e : Nat) : Nat := bitsOf e 47 32
/-- TILE_COUNT. -/
def eeCount (e : Nat) : Nat := bitsOf e 55 48
/-- FLAG of a layer entry. -/
def leFlag (n : Nat) : Nat := bitsOf n 19 8
/-- ROWS. -/
def leRows (n : Nat) : Nat := bitsOf n 47 32
/-- ROW_PITCH. -/
def lePitch (n : Nat) : Nat := bitsOf n 63 48
/-- BUF_BASE. -/
def leBuf (n : Nat) : Nat := bitsOf n 85 64
/-- COUNT_BASE. -/
def leCounts (n : Nat) : Nat := bitsOf n 117 96

/-- H of R241: rows per tile of a group. -/
def rowsPerTile (le ee : Nat) : Nat := ceilDiv (leRows le) (eeCount ee)

/-- A global address. -/
def gaddrOf (rack pkg l : Nat) : Nat := l + pkg * 2 ^ 48 + rack * 2 ^ 54

/-- A tile-store address as a local address (R284). -/
def storeAddr (tile a : Nat) : Nat := 2 ^ 46 + tile * storeBytes + a

/-- The place of buffer row ρ of an expert (R241, R244). -/
def rowAddr (le ee rho : Nat) : Nat :=
  gaddrOf (eeRack ee) (eePackage ee)
    (storeAddr (eeFirst ee + rho / rowsPerTile le ee) (leBuf le + rho % rowsPerTile le ee * lePitch le))

/-- The experts of the command. -/
def routeExperts (x : Nat) : List Nat := (List.range (routeCount x)).map (fun i => routeBase x + i)

/-- The group's rows and the count entry lie inside the tile store (R246). -/
def State.buffersFit (s : State) (x le row : Nat) : Bool :=
  decide (leCounts le + 4 * groupIndex x + 4 ≤ storeBytes) && (routeExperts x).all (fun e =>
    let h := rowsPerTile le (s.expertEntry e)
    (List.range (routeCapacity x)).all (fun i =>
      decide (leBuf le + (groupBase x + i) % h * lePitch le + row ≤ storeBytes)))

/-- R230, R244: the forms of DISPATCH's operands; `two` when TOKENS has a row for each choice. -/
def dispatchOk (tok asg : Desc) : Bool :=
  !(isRawType tok.elemType) && tok.layout == 0 && tok.rank == 2 && assignOk asg (asg.sz 1) &&
    (tok.sz 1 == asg.sz 1 || tok.sz 1 == 2 * asg.sz 1)

/-- R244: a row of TOKENS for each rank needs an ASSIGN of TOP2 choices. TOP2 is not a field of DISPATCH, so the
records tell: some record has a second choice, or none has a first one (log 40). -/
def topTwo (choices : List (Nat × Nat)) : Bool := choices.any (fun c => c.2 != 2) || choices.all (fun c => c.1 == 2)

/-- STATE1 and STATE2 of each record. -/
def State.choiceStates (s : State) (p : Nat) (asg : Desc) : List (Nat × Nat) :=
  (chunks 8 (asg.sz 1) (s.codes p asg)).map (fun w => (bitsOf (w.getD 4 0) 1 0, bitsOf (w.getD 4 0) 3 2))

/-- R246: the checks against the table in force. -/
def State.dispatchTableFault (s : State) (x : Nat) (tok : Desc) : Option Status :=
  let le := s.layerEntry (routeLayer x)
  firstFault [need (entryValid le) .unmapped,
    need ((routeExperts x).all (fun e => entryValid (s.expertEntry e))) .unmapped,
    need (decide (groupBase x + routeCapacity x ≤ leRows le)) .outOfRange,
    need (decide (tok.rowBytes ≤ lePitch le)) .outOfRange,
    need (s.buffersFit x le tok.rowBytes) .outOfRange]

/-- The row put of a choice (R244). -/
def State.rowPut (s : State) (x le : Nat) (row : List Byte) (base : Status) (g : Granted) : OpSpec :=
  { op := pktPut, channel := chDispatch, gaddr := rowAddr le (s.expertEntry g.expert) (groupBase x + g.slot), data := row,
    bytes := 0, flag := 0, addend := 0, kslice := 0, getLocal := none, isDispatch := true, base := base }

/-- The row puts of the command, tokens ascending and rank 1 first. -/
def State.rowPuts (s : State) (x le t : Nat) (rows : Array (List Byte)) (base : Status) (as : List TokenRow) : List OpSpec :=
  let two := decide (t < rows.size)
  as.zipIdx.flatMap (fun a =>
    (match a.1.r1 with
      | some g => [s.rowPut x le (rows.getD (if two then 2 * a.2 else a.2) []) base g]
      | none => []) ++
    (match a.1.r2 with
      | some g => [s.rowPut x le (rows.getD (if two then 2 * a.2 + 1 else a.2) []) base g]
      | none => []))

/-- The granted rows of an expert that fall in tile `i`'s part of its group (R241, R245). -/
def grantedIn (as : List TokenRow) (x le ee e i : Nat) : Nat :=
  let h := rowsPerTile le ee
  let has (c : Option Granted) : Nat := match c with
    | some g => if g.expert = e ∧ (groupBase x + g.slot) / h = i then 1 else 0
    | none => 0
  listSum (as.map (fun a => has a.r1 + has a.r2))

/-- The count puts of the command (R245). -/
def State.countPuts (s : State) (x le : Nat) (as : List TokenRow) : List OpSpec :=
  (routeExperts x).flatMap (fun e =>
    let ee := s.expertEntry e
    (List.range (eeCount ee)).map (fun i =>
      { op := pktPutSignal, channel := chDispatch,
        gaddr := gaddrOf (eeRack ee) (eePackage ee) (storeAddr (eeFirst ee + i) (leCounts le + 4 * groupIndex x)),
        data := leBytes 4 (grantedIn as x le ee e i), bytes := 0, flag := leFlag le, addend := 1, kslice := 0,
        getLocal := none, isDispatch := true, base := .ok }))

/-- DISPATCH: R231 and R246 in order, then its puts. -/
def planDispatch (s : State) (_l p : Nat) (e : QEntry) : RemotePlan :=
  let x := e.x
  let tok := s.desc p (recOp x 96)
  let asg := s.desc p (recOp x 112)
  let as := s.tokenRows p x asg
  let le := s.layerEntry (routeLayer x)
  match firstFault [s.descFault tok false [0], s.descFault asg false [0], need (dispatchOk tok asg) .malformed,
      need (routeInRange x) .outOfRange, need (as.all (fun t => !t.bad)) .malformed,
      need (tok.sz 1 == asg.sz 1 || topTwo (s.choiceStates p asg)) .malformed, s.dispatchTableFault x tok] with
    | some st => RemotePlan.stop s st
    | none =>
      let rows := ((tok.writeRows (s.codes p tok)).map (fun r => r.2)).toArray
      { s := s, done := none, ops := s.rowPuts x le (asg.sz 1) rows .ok as ++ s.countPuts x le as }

/-! ## Rows -/

/-- PUT with WITH_SIGNAL 0. -/
def execPut (tile cycles : Nat) (s : State) : Host.Outcome State Fault Refusal :=
  .next (s.runRemote tile cycles (fun x => recOpcode x == opPut && !(putSignal x)) planPut)

/-- PUT with WITH_SIGNAL 1. -/
def execPutWithSignal (tile cycles : Nat) (s : State) : Host.Outcome State Fault Refusal :=
  .next (s.runRemote tile cycles (fun x => recOpcode x == opPut && putSignal x) planPut)

/-- GET. -/
def execGet (tile cycles : Nat) (s : State) : Host.Outcome State Fault Refusal :=
  .next (s.runRemote tile cycles (fun x => recOpcode x == opGet) planGet)

/-- ACC. -/
def execAcc (tile cycles : Nat) (s : State) : Host.Outcome State Fault Refusal :=
  .next (s.runRemote tile cycles (fun x => recOpcode x == opAcc) planAcc)

/-- SIGNAL KIND 1. -/
def execRemoteSignal (tile cycles : Nat) (s : State) : Host.Outcome State Fault Refusal :=
  .next (s.runRemote tile cycles (fun x => recOpcode x == opSignal && sigKind x == 1) planSignal)

/-- SIGNAL KIND 2. -/
def execRemoteFence (tile cycles : Nat) (s : State) : Host.Outcome State Fault Refusal :=
  .next (s.runRemote tile cycles isFence planFence)

/-- ROUTE OP 1. -/
def execRouteDispatch (tile cycles : Nat) (s : State) : Host.Outcome State Fault Refusal :=
  .next (s.runRemote tile cycles (fun x => recOpcode x == opRoute && routeOp x == 1) planDispatch)

/-- An operation unanswered RESPONSE_TIMEOUT_US after its issue (R298). -/
def State.opTimedOut (s : State) (o : RemoteOp) : Bool :=
  o.answer.isNone && decide (o.issuedTb + s.obj Obj.responseTimeoutUs * tbPerUs ≤ s.time.tb)

/-- REMOTE_TIMEOUT (R298). -/
def State.timeOutOps (s : State) (l : Nat) : State :=
  let t := s.lt l
  let n := (t.ops.filter s.opTimedOut).length
  ((s.bumpFabric 0x10 n).setLt l (t.answerOp s.opTimedOut .remoteTimeout)).portWork l none

/-- REMOTE_TIMEOUT (R298). -/
def execRemoteTimeout (dt tile : Nat) (s : State) : Host.Outcome State Fault Refusal :=
  .next ((s.advance dt).timeOutOps tile)

/-- R413: send one operation again, with its numbers. -/
def State.reissueOp (s : State) (l i : Nat) : State :=
  match (s.lt l).ops[i]? with
  | some o =>
    if !o.reissuing then s
    else
      let a := s.setLt l ((s.lt l).setOp i { o with reissuing := false })
      if o.own then
        let r := a.applyOwn l o
        r.1.setLt l { r.1.lt l with ops := (r.1.lt l).ops.modify i (fun b => b.take r.2) }
      else a.routePackets (a.opVia l o) o.packets
  | none => s

/-- REISSUE (R413): operations past RESPONSE_TIMEOUT_US complete with REMOTE_TIMEOUT, the others are sent again in
their order. -/
def execReissue (dt tile : Nat) (s : State) : Host.Outcome State Fault Refusal :=
  let a := s.advance dt
  let t := a.lt tile
  let late (o : RemoteOp) : Bool := o.reissuing && a.opTimedOut o
  let b := (a.bumpFabric 0x10 (t.ops.filter late).length).setLt tile (t.answerOp late .remoteTimeout)
  .next (((List.range t.ops.length).foldl (fun (u : State) i => u.reissueOp tile i) b).portWork tile none)

end Sys2Proof.Machine
end

