-- ==== Sys2Proof/Machine/Steps.lean ====
section
/-!
DEFINITION. Steps: finality, step records, versions, the loss scale and the skip verdict (R199 to R202, R204, R206 to
R208).
-/

namespace Sys2Proof.Machine

open Sys2Proof

/-! ## The data-parallel group (R199, R300) -/

/-- The members of GROUP_MEMBERS, the own package apart. -/
def State.groupMembers (s : State) : List Nat :=
  (List.range 4096).filter (fun m => bitAt (s.obj (Obj.groupMembers + m / 32)) (m % 32) && m != s.ownId)

/-! ## The own part of a step -/

/-- No started command of a tile is left in step c or earlier. -/
def LogTile.stepDone (t : LogTile) (c : Nat) : Bool :=
  decide (c < t.stepCtr) && t.queue.all (fun e => e.st == .queued || decide (c < e.step))

/-- No started command is left of the tiles without STEP_END; all of them belong to step 0 (R199). -/
def State.othersDone (s : State) : Bool :=
  s.tiles.all (fun e => s.participates e.1 || e.2.queue.all (fun q => q.st == .queued))

/-- R199: this package's part of step c is final. Without participating tiles no step becomes final. -/
def State.ownFinal (s : State) (c : Nat) : Bool :=
  !(s.steps.participants.isEmpty) && s.steps.participants.all (fun l => (s.lt l).stepDone c) &&
    (decide (c ≠ 0) || s.othersDone)

/-- Join a maximum of an entry into a list of maxima: the larger magnitude, the later ELEM_TYPE. -/
def joinMax (acc : List (Nat × F32 × Nat)) (d : Nat × F32 × Nat) : List (Nat × F32 × Nat) :=
  match acc.find? (fun a => a.1 == d.1) with
  | some a =>
    let m := if Val.lt (f32Val a.2.1) (f32Val d.2.1) then d.2.1 else a.2.1
    acc.map (fun b => if b.1 = d.1 then (d.1, m, d.2.2) else b)
  | none => acc ++ [d]

/-- The step maxima of this package. -/
def State.ownMaxima (s : State) (c : Nat) : List (Nat × F32 × Nat) :=
  ((s.steps.deliveries.filter (fun d => d.1 == c)).map (fun d => d.2)).foldl joinMax []

/-- Send the step-c record to every other member of the group (R199). -/
def State.sendStepRecord (s : State) (c : Nat) : State :=
  let msg := ControlMsg.stepRecord (s.obj Obj.ownRack) (s.obj Obj.ownPackage) c (s.steps.saturated.contains c) (s.ownMaxima c)
  s.groupMembers.foldl (fun (t : State) m => t.transit (t.controlEntry (m / 64) (m % 64) msg)) s

/-- Once its own part of step c is final, the package sends its record and starts the members' timers (R199, R202). -/
def State.closeOwn (s : State) (c : Nat) : State :=
  if s.ownFinal c && (Tab.look s.steps.ownSentTb c).isNone
  then { s with steps := { s.steps with ownSentTb := Tab.put s.steps.ownSentTb c s.time.tb } }.sendStepRecord c else s

/-! ## Finality (R199, R200, R204, R207) -/

/-- The step-c record of a member has arrived or has lapsed. -/
def State.recordSettled (s : State) (c m : Nat) : Bool :=
  s.steps.records.any (fun r => r.member == m && r.step == c) || s.steps.lapsed.contains (m, c)

/-- R199: step c is final. -/
def State.stepIsFinal (s : State) (c : Nat) : Bool :=
  s.ownFinal c && s.groupMembers.all (s.recordSettled c)

/-- The verdict of R206. -/
def State.verdictSaturated (s : State) (c : Nat) : Bool :=
  s.steps.saturated.contains c || s.steps.records.any (fun r => r.step == c && r.saturated)

/-- The group's maxima of step c: the members' records, then the own deliveries. -/
def State.groupMaxima (s : State) (c : Nat) : List (Nat × F32 × Nat) :=
  (s.ownMaxima c).foldl joinMax
    (((s.steps.records.filter (fun r => r.step == c)).flatMap (fun r => r.maxima)).foldl joinMax [])

/-- R204: append the group's maxima to the histories. ENTRY_FORMAT shows a delivery of a later step all the same (R212). -/
def State.appendHistories (s : State) (c : Nat) : State :=
  let keep := s.governs Obj.amaxHistoryLen
  (s.groupMaxima c).foldl (fun (t : State) d =>
    { t with steps := { t.steps with
        history := Tab.put t.steps.history d.1 ((d.2.1 :: Tab.read t.steps.history [] d.1).take keep),
        format := Tab.put t.steps.format d.1 d.2.2,
        shown := if s.steps.deliveries.any (fun v => v.2.1 == d.1 && decide (c < v.1)) then t.steps.shown
          else Tab.put t.steps.shown d.1 d.2.2 } }) s

/-- R207: the running loss scale after a verdict. -/
def State.updateLossScale (s : State) (saturated : Bool) : State :=
  let v := s.runningScale
  let lo := signedOf 8 (s.governs Obj.lossScaleMin)
  let hi := signedOf 8 (s.governs Obj.lossScaleMax)
  if saturated then
    let a := if v = lo then (s.incObj Obj.floorEvents).event 0x080 0 .ok 0 else s
    ((a.setObj Obj.lossScale (unsignedOf 8 (max (v - 1) lo))).setObj Obj.cleanSteps 0).incObj Obj.saturatedSteps
  else
    let n := (s.obj Obj.cleanSteps + 1) % 2 ^ 32
    if s.governs Obj.growthInterval ≤ n
    then (s.setObj Obj.lossScale (unsignedOf 8 (min (v + 1) hi))).setObj Obj.cleanSteps 0
    else s.setObj Obj.cleanSteps n

/-- Forget what only a step that has become final needed; skip verdicts of the last four steps stay for replays, and the
verdict and the saturations of step 0 for the tiles that stay in it. -/
def StepSt.forget (t : StepSt) (c : Nat) : StepSt :=
  { t with deliveries := t.deliveries.filter (fun d => decide (c < d.1)),
           saturated := t.saturated.filter (fun d => decide (d = 0) || decide (c < d)),
           ownSentTb := Tab.del t.ownSentTb c, records := t.records.filter (fun (r : StepRecord) => decide (c < r.step)),
           lapsed := t.lapsed.filter (fun d => decide (c < d.2)),
           skips := t.skips.filter (fun d => decide (d.1 = 0) || decide (c < d.1 + 4)) }

/-- Step c becomes final: histories, loss scale and the version for step c + 2 (R200). -/
def State.finaliseStep (s : State) (c : Nat) : State :=
  let a := ((s.appendHistories c).updateLossScale (s.verdictSaturated c)).setObj Obj.finalStep c
  { a with steps := { (a.steps.forget c) with
      nextFinal := c + 1, versions := keepFour (a.newVersion (c + 2)) a.steps.versions } }

/-- The lowest step counter of the participating tiles; 0 with none. -/
def State.lowestStep (s : State) : Nat := (listMin? (s.steps.participants.map (fun l => (s.lt l).stepCtr))).getD 0

/-- STEP_FINAL (R199, R200): the records of every own-final step are sent, and the next step becomes final if it is. -/
def execStepFinal (s : State) : Host.Outcome State Fault Refusal :=
  let c := s.steps.nextFinal
  let a := (List.range (s.lowestStep - c)).foldl (fun (t : State) i => t.closeOwn (c + i)) s
  .next (if a.stepIsFinal c then a.finaliseStep c else a)

/-! ## Records of members (R199, R202) -/

/-- A step record has arrived: one that has lapsed, or belongs to a final step, is discarded and logged (log 42). -/
def State.takeStepRecord (s : State) (r : StepRecord) : State :=
  if s.steps.lapsed.contains (r.member, r.step) || decide (r.step < s.steps.nextFinal)
  then s.log 0x232 0 .ok r.member
  else if s.steps.records.any (fun q => q.member == r.member && q.step == r.step) then s
  else { s with steps := { s.steps with records := s.steps.records ++ [r] } }

/-- The oldest step for which a member's record is overdue. -/
def State.overdueStep (s : State) (m : Nat) : Option Nat :=
  ((s.steps.ownSentTb.filter (fun e => !(s.recordSettled e.1 m) &&
    decide (e.2 + s.obj Obj.stepRecordTimeoutUs * tbPerUs ≤ s.time.tb))).map (fun e => e.1)).head?

/-- STEP_RECORD_LAPSE (R202). -/
def execStepRecordLapse (dt rack package : Nat) (s : State) : Host.Outcome State Fault Refusal :=
  let a := s.advance dt
  let m := 64 * rack + package
  .next (match (if a.groupMembers.contains m then a.overdueStep m else none) with
    | some c => ({ a with steps := { a.steps with lapsed := a.steps.lapsed ++ [(m, c)] } }.incObj Obj.lapsedRecords).event
        0x081 0 .ok m
    | none => a)

/-! ## The skip verdict (R208) -/

/-- A tile has its first update drain of its step ready to start. -/
def LogTile.updateReady (t : LogTile) : Bool :=
  t.queue.any (fun e => e.st == .queued && isUpdate e.x && orderOk (t.before e) e)

/-- The step whose skip verdict comes next: the first that has none, of step 0, in which tiles without STEP_END stay, and
those from the next final one to the lowest step counter. -/
def State.verdictStep (s : State) : Option Nat :=
  let c := s.steps.nextFinal
  (0 :: (List.range (s.lowestStep + 1 - c)).map (fun i => c + i)).find? (fun i => (Tab.look s.steps.skips i).isNone)

/-- Every participating tile of the package is at its first update drain of step c, or past the step. -/
def State.verdictDue (s : State) (c : Nat) : Bool :=
  s.steps.participants.all (fun l => decide (c < (s.lt l).stepCtr) || (s.lt l).updateReady)

/-- What the verdict says: the own class-2 saturations so far, and those of the other members, of which the spec gives
no message, so that part is a free value (log 43). -/
def State.skipSaturated (s : State) (c : Nat) : Bool :=
  s.steps.saturated.contains c || (!(s.groupMembers.isEmpty) && s.freeNow.getLsbD 0)

/-- SKIP_VERDICT (R208). -/
def execSkipVerdict (s : State) : Host.Outcome State Fault Refusal :=
  .next (match s.verdictStep with
    | none => s
    | some c =>
      if (Tab.look s.steps.skips c).isSome || !(s.verdictDue c) || s.governs Obj.saturationAction != 1 then s
      else
        let bad := s.skipSaturated c
        let a := if s.groupMembers.isEmpty then s else s.useFree
        let b := { a with steps := { a.steps with skips := Tab.put a.steps.skips c (if bad then 1 else 0) } }
        if bad then b.incObj Obj.skippedSteps else b)

end Sys2Proof.Machine
end

