-- ==== Sys2Proof/Machine/Packets.lean ====
section
/-!
DEFINITION. Packets that arrive at an optical port, in end-to-end order, and the events of ports, wavelengths and laser
inputs (R277, R281, R282, R287, R290, R292, R293, R297 to R299).
-/

namespace Sys2Proof.Machine

open Sys2Proof

/-! ## The end-to-end stream of one source (R292, R293) -/

/-- A stream from which nothing has arrived: numbers start at 0 (log 44). -/
def RxStream.fresh (src : SrcId) : RxStream :=
  { src := src, next := 0, refused := [], held := [], holdTb := none, cur := OpTrack.idle, re := OpTrack.idle }

/-- The stream of a source. -/
def State.rxOf (s : State) (src : SrcId) : RxStream :=
  (s.fabric.rx.find? (fun r => r.src == src)).getD (RxStream.fresh src)

/-- Replace the stream of a source. -/
def State.setRx (s : State) (r : RxStream) : State :=
  { s with fabric := { s.fabric with rx := s.fabric.rx.filter (fun (a : RxStream) => a.src != r.src) ++ [r] } }

/-- The numbers from `a` to `b`, modulo 2^16. -/
def numbersFrom (a b : Nat) : List Nat := (List.range ((b + 2 ^ 16 - a) % 2 ^ 16 + 1)).map (fun i => (a + i) % 2 ^ 16)

/-- Keep the refused numbers of the last 32,768. -/
def RxStream.prune (r : RxStream) : RxStream :=
  { r with refused := r.refused.filter (fun n => decide ((r.next + 2 ^ 16 - n) % 2 ^ 16 ≤ 2 ^ 15)) }

/-- Give the answer of an operation, if its LAST packet has been taken. -/
def State.answerTaken (t : Taken) (e : Arrived) : State :=
  match t.answer with
  | some st => t.s.respond e.via e.pkt st
  | none => t.s

/-- The packet whose number is next. -/
def State.takeNext (s : State) (r : RxStream) (e : Arrived) : State × RxStream :=
  let t := s.takePacket false e.via r.cur e.pkt
  let refused := match t.refused with
    | some a => r.refused ++ numbersFrom a e.pkt.e2eSeq
    | none => r.refused
  (State.answerTaken t e, { r with next := (r.next + 1) % 2 ^ 16, cur := t.track, refused := refused }.prune)

/-- The packets held whose numbers have come up. -/
def State.drainHeld : Nat → State × RxStream → State × RxStream
  | 0, x => x
  | n + 1, x =>
    match x.2.held.find? (fun e => e.pkt.e2eSeq == x.2.next) with
    | some e => State.drainHeld n (x.1.takeNext { x.2 with held := x.2.held.erase e } e)
    | none => x

/-- With nothing held the hold timer stops; with a gap left it runs from now. -/
def RxStream.retime (r : RxStream) (tb : Nat) : RxStream :=
  { r with holdTb := if r.held.isEmpty then none else some tb }

/-- A number in the refused set: a re-issue under R413, taken as on a first arrival. Its numbers leave the set with its
LAST packet, applied or refused again, whatever the refusal (R293, log 171). -/
def State.takeReissue (s : State) (r : RxStream) (e : Arrived) : State × RxStream :=
  let t := s.takePacket false e.via r.re e.pkt
  let first := if e.pkt.first then e.pkt.e2eSeq else r.re.first
  let refused := if t.answer.isSome
    then r.refused.filter (fun n => !((numbersFrom first e.pkt.e2eSeq).contains n)) else r.refused
  (State.answerTaken t e, { r with re := t.track, refused := refused })

/-- A duplicate or late packet (R292). -/
def State.discardLate (s : State) (q : Packet) : State :=
  (s.bumpFabric 0x11 1).log 0x232 0 .ok (q.srcRack + 64 * q.srcPackage + 4096 * q.srcTile)

/-- A data packet for this package, in its stream (R292, R293). -/
def State.arriveInOrder (s : State) (e : Arrived) : State :=
  let q := e.pkt
  let r := s.rxOf (pktSrc q)
  let d := (q.e2eSeq + 2 ^ 16 - r.next) % 2 ^ 16
  if d = 0 then
    let x := State.drainHeld r.held.length (s.takeNext r e)
    x.1.setRx (if x.2.held.length = r.held.length then x.2 else x.2.retime s.time.tb)
  else if d < 2 ^ 15 then
    if r.held.any (fun h => h.pkt.e2eSeq == q.e2eSeq) then s.discardLate q
    else s.setRx { r with held := r.held ++ [e], holdTb := some (r.holdTb.getD s.time.tb) }
  else if r.refused.contains q.e2eSeq then
    let x := s.takeReissue r e
    x.1.setRx x.2
  else s.discardLate q

/-- A packet on a channel whose operations have no numbers, with an OP that the channel does not carry: its operation is
refused at once (R297, log 172). -/
def State.refuseUnnumbered (s : State) (e : Arrived) : State :=
  match s.refusedHere e.pkt with
  | some st => (s.seen e.pkt (some st)).discardOp e.via e.pkt st
  | none => (s.seen e.pkt (some .malformed)).refuseOp e.via e.pkt .malformed

/-- A data packet for this package: its stream is that of its CHANNEL, whatever its OP (R292, R297). -/
def State.arrive (s : State) (e : Arrived) : State :=
  if e.pkt.channel = chRequest ∨ e.pkt.channel = chDispatch then s.arriveInOrder e else s.refuseUnnumbered e

/-- A routed packet at a port: delivered here, or passed on (R286). -/
def State.routeIn (s : State) (k : Nat) (q : Packet) (msg : Option ControlMsg) (here : State → State) : State :=
  if pktDst q = s.ownId then here s else s.transit { pkt := q, msg := msg, via := portVia k }

/-- The OP of a packet that arrives as one of the rows; the codes that R280 leaves MALFORMED keep theirs. -/
def withOp (op : Nat) (q : Packet) : Packet := if 8 < q.op then q else { q with op := op }

/-- A data packet at a port. -/
def State.dataPacket (s : State) (port op : Nat) (q : Packet) : State :=
  let p := withOp op q
  (s.onPacket port p (fun (t : State) => t.routeIn port p none (fun (u : State) =>
    u.arrive { pkt := p, via := portVia port }))).settle

/-- PACKET_PUT (R290). -/
def execPacketPut (port : Nat) (pkt : Packet) (s : State) : Host.Outcome State Fault Refusal :=
  .next (s.dataPacket port pktPut pkt)

/-- PACKET_PUT_SIGNAL (R290). -/
def execPacketPutSignal (port : Nat) (pkt : Packet) (s : State) : Host.Outcome State Fault Refusal :=
  .next (s.dataPacket port pktPutSignal pkt)

/-- PACKET_GET_REQ (R290). -/
def execPacketGetReq (port : Nat) (pkt : Packet) (s : State) : Host.Outcome State Fault Refusal :=
  .next (s.dataPacket port pktGetReq pkt)

/-- PACKET_SIGNAL (R290). -/
def execPacketSignal (port : Nat) (pkt : Packet) (s : State) : Host.Outcome State Fault Refusal :=
  .next (s.dataPacket port pktSignal pkt)

/-- PACKET_ACC (R296). -/
def execPacketAcc (port : Nat) (pkt : Packet) (s : State) : Host.Outcome State Fault Refusal :=
  .next (s.dataPacket port pktAcc pkt)

/-! ## Answers (R290, R291, R297) -/

/-- PACKET_RESPONSE: the operation it names is answered; one that names none is discarded and logged. -/
def execPacketResponse (port : Nat) (pkt : Packet) (s : State) : Host.Outcome State Fault Refusal :=
  let q := { pkt with op := pktResponse }
  .next (s.onPacket port q (fun (t : State) => t.routeIn port q none (fun (u : State) =>
    u.answered q.srcTile (pktSrcId q) q.e2eSeq ((statusOfCode q.status).getD .malformed)))).settle

/-- What writing the data of a GET gave is kept with its operation, for the status of the command (R257). -/
def State.noteGetWrite (s : State) (l : Nat) (o : RemoteOp) (st : Status) : State :=
  if st = .ok then s
  else s.setLt l { s.lt l with ops := (s.lt l).ops.map (fun (a : RemoteOp) =>
    if a = o then { a with base := worseEcc a.base st } else a) }

/-- Data for the operation that a GET_DATA packet names. -/
def State.takeGetData (s : State) (q : Packet) : State :=
  match (s.lt q.srcTile).ops.find? (fun o => o.awaits (pktSrcId q) q.e2eSeq && o.getLocal.isSome) with
  | some o =>
    let w := s.deliverGet q.srcTile o q.addend q.payload
    w.1.noteGetWrite q.srcTile o w.2
  | none => s.log 0x231 0 .ok 0

/-- PACKET_GET_DATA (R290). -/
def execPacketGetData (port : Nat) (pkt : Packet) (s : State) : Host.Outcome State Fault Refusal :=
  let q := { pkt with op := pktGetData }
  .next (s.onPacket port q (fun (t : State) => t.routeIn port q none (fun (u : State) => u.takeGetData q))).settle

/-! ## CONTROL, IDLE and corrupt packets (R281, R282, R288, R299) -/

/-- A spare switch of the peer: λ8 takes the share of a transmitted wavelength (R282). -/
def State.peerSwitch (s : State) (k lane : Nat) : State :=
  if (s.port k).state = portUp ∧ lane < 8 then s.setPort k { s.port k with txSpare := some lane } else s

/-- A CONTROL packet passes the header checks of R297: it is one packet, first and last. -/
def controlOk (q : Packet) : Bool := pktWellFormed q && q.first && q.last

/-- A port takes identities: in bring-up, and up. -/
def State.portHears (s : State) (k : Nat) : Bool :=
  let st := (s.port k).state
  st == portTraining || st == portMismatch || st == portUp

/-- An identity of bring-up: discarded where HCRC fails or the port does not listen, refused where it is malformed. -/
def State.takeIdentity (s : State) (k : Nat) (q : Packet) (rack package role : Nat) : State :=
  if q.hcrc ≠ packetCrc q || !(s.portHears k) then s
  else if controlOk q then s.meetPeer k rack package role
  else s.refuseOp (portVia k) q .malformed

/-- What an accepted CONTROL packet says: a spare switch of this link, or a step record that arrives here or passes on. A
malformed one is refused (R297). -/
def State.takeControl (s : State) (k : Nat) (q : Packet) (msg : ControlMsg) : State :=
  match msg with
  | .identity _ _ _ _ => s
  | .spareSwitch lane => if controlOk q then s.peerSwitch k lane else s.refuseOp (portVia k) q .malformed
  | .stepRecord rack package step saturated maxima =>
    s.routeIn k q (some msg) (fun (t : State) =>
      if controlOk q then
        t.takeStepRecord { member := 64 * rack + package, step := step, saturated := saturated, maxima := maxima }
      else t.refuseOp (portVia k) q .malformed)

/-- PACKET_CONTROL (R281, R288): bring-up, a spare switch, or a step record. Identities come before the link numbers its
packets (log 169). -/
def execPacketControl (port : Nat) (pkt : Packet) (msg : ControlMsg) (s : State) : Host.Outcome State Fault Refusal :=
  let q := { pkt with op := pktControl }
  .next (match msg with
    | .identity rack package role _ => (s.takeIdentity port q rack package role).settle
    | _ => (s.onPacket port q (fun (t : State) => t.takeControl port q msg)).settle)

/-- PACKET_IDLE (R281). -/
def execPacketIdle (port : Nat) (pkt : Packet) (s : State) : Host.Outcome State Fault Refusal :=
  let q := { pkt with op := pktIdle }
  .next (if (s.port port).state ≠ portUp then s
    else if q.hcrc ≠ packetCrc q then s.requestReplay port
    else (s.takeHeader port q).settle)

/-- PACKET_CORRUPT (R281). -/
def execPacketCorrupt (port : Nat) (s : State) : Host.Outcome State Fault Refusal :=
  .next (if (s.port port).state = portUp then s.requestReplay port else s)

/-! ## Timers -/

/-- R292: the hold of a missing number has expired; the numbers up to the next held one are skipped. An operation that a
skipped number interrupts is not continued (log 140). -/
def State.skipMissing (s : State) (r : RxStream) : State :=
  match listMin? (r.held.map (fun e => (e.pkt.e2eSeq + 2 ^ 16 - r.next) % 2 ^ 16)) with
  | some d =>
    let a := s.log 0x233 0 .ok (r.src.rack + 64 * r.src.package + 4096 * r.src.tile)
    let x := State.drainHeld r.held.length (a, { r with next := (r.next + d) % 2 ^ 16, cur := OpTrack.idle }.prune)
    x.1.setRx (x.2.retime s.time.tb)
  | none => s

/-- REORDER_HOLD_EXPIRY (R292). -/
def execReorderHoldExpiry (dt : Nat) (src : SrcId) (s : State) : Host.Outcome State Fault Refusal :=
  let a := s.advance dt
  let r := a.rxOf src
  .next (match r.holdTb with
    | some t => if t + a.obj Obj.reorderHoldUs * tbPerUs ≤ a.time.tb then (a.skipMissing r).settle else a
    | none => a)

/-- FABRIC_UP_TIMEOUT (R299): 200 ms after enabling. -/
def execFabricUpTimeout (dt : Nat) (s : State) : Host.Outcome State Fault Refusal :=
  let a := s.advance dt
  .next (if a.obj Obj.fabricState = fabricBringup ∧ a.fabric.enabledTb + 200000 * tbPerUs ≤ a.time.tb
    then a.fabricComesUp else a)

/-- BRINGUP_RETRY (R299): a port whose peer is silent tries again. -/
def execBringupRetry (dt port : Nat) (s : State) : Host.Outcome State Fault Refusal :=
  let a := s.advance dt
  .next (if a.fabric.enabled && (a.port port).state == portTraining then a.sendIdentity port else a)

/-- PEER_SILENCE (R287). -/
def execPeerSilence (dt port : Nat) (s : State) : Host.Outcome State Fault Refusal :=
  .next ((s.advance dt).portDown port true).settle

/-! ## Wavelengths and laser inputs (R277, R282) -/

/-- A received wavelength fails. λ8 carries nothing until it replaces another. -/
def State.wavelengthFails (s : State) (k lane : Nat) : State :=
  let p := s.port k
  if p.state ≠ portUp ∨ 8 < lane then s
  else match p.rxSpare with
    | some l => if lane = l then s else s.portDown k true
    | none =>
      if lane = 8 then s
      else ((((s.setPort k { p with rxSpare := some lane }).bumpFabric 0x0B 1).event 0x101 (unitOf 0x4 k) .ok
        lane).countFault).queueOn k (s.controlEntry p.peerRack p.peerPackage (.spareSwitch lane))

/-- WAVELENGTH_FAIL (R282). -/
def execWavelengthFail (port lane : Nat) (s : State) : Host.Outcome State Fault Refusal :=
  .next (s.wavelengthFails port lane).settle

/-- The ports that a laser input feeds. -/
def inputPorts (j : Nat) : List Nat := (List.range 8).map (fun i => 8 * j + i)

/-- The laser inputs that the variant uses. -/
def State.laserInputs (s : State) : Nat := s.part.variant.ports / 8

/-- A port without light goes down; its packets are kept for rerouting. -/
def State.darkPort (s : State) (k : Nat) : State :=
  let p := s.port k
  let down := decide (p.state = portUp)
  let a := s.setPort k { Port.fresh with
    state := if p.state = portDark ∨ p.state = portHeldDark then p.state else portDownState, dead := true,
    unusable := p.unusable }
  if down then (a.bumpFabric 0x0C 1).event 0x102 (unitOf 0x4 k) .ok 0 else a

/-- The packets that a port going down would strand. -/
def State.strandedAt (s : State) (k : Nat) : List TxEntry :=
  let p := s.port k
  if p.state = portUp then p.replayBuffer ++ p.txQueue else []

/-- A laser input is low: its bit, one event, its ports down (R277, R287), one counted fault (R407). -/
def State.laserFalls (s : State) (j : Nat) : State :=
  let stranded := (inputPorts j).flatMap (fun k => s.strandedAt k)
  let a := ((s.setObj Obj.laserLow (s.obj Obj.laserLow ||| 2 ^ j)).event 0x100 (unitOf 0xD j) .ok 0).countFault
  let b := (inputPorts j).foldl (fun (t : State) k => t.darkPort k) a
  (b.reroute stranded).refreshFabric

/-- LASER_LOW (R277). -/
def execLaserLow (dt input : Nat) (s : State) : Host.Outcome State Fault Refusal :=
  let a := s.advance dt
  .next (if a.inReset || a.laserInputs ≤ input || bitAt (a.obj Obj.laserLow) input then a
    else (a.laserFalls input).settle)

/-- LASER_RESTORED (R277): the ports of the input train again. -/
def execLaserRestored (dt input : Nat) (s : State) : Host.Outcome State Fault Refusal :=
  let a := s.advance dt
  .next (if a.laserInputs ≤ input || !(bitAt (a.obj Obj.laserLow) input) then a
    else
      let b := a.setObj Obj.laserLow (a.obj Obj.laserLow - 2 ^ input)
      (inputPorts input).foldl (fun (t : State) k =>
        let u := t.setPort k { t.port k with dead := false }
        if u.fabric.enabled then u.trainPort k else u) b)

end Sys2Proof.Machine
end

