-- ==== Sys2Proof/Machine/Hbm.lean ====
section
/-!
DEFINITION. HBM scrub and loss, failed network segments and lanes, and the arbiters' priorities (R257 to R259, R264,
R265, R274, R275, R412).
-/

namespace Sys2Proof.Machine

open Sys2Proof

/-! ## HBM -/


/-- What the patrol scrub does at a burst (R258): a correctable finding is rewritten, an uncorrectable one recorded and
left for the next access. It finds nothing in a stack declared lost (log 166). -/
def State.patrol (s : State) (burst : Nat) : State :=
  if s.part.variant.hbmEnd / 32 ≤ burst ∨ s.stackIsLost (hbmStack s.part.variant (32 * burst)) then s
  else if s.burstState burst = 1 then s.correctBurst burst
  else if s.burstState burst = 2 then
    { s with mem := { s.mem with patrolFound := insertOnce s.mem.patrolFound burst } }
  else s

/-- PATROL_SCRUB (R258). -/
def execPatrolScrub (burst : Nat) (s : State) : Host.Outcome State Fault Refusal := .next (s.patrol burst)

/-- STACKS_LOST and DUPLEX_DEGRADED with one more stack lost (R255, R259). -/
def State.markLost (s : State) (i : Nat) : State :=
  (s.setObj Obj.stacksLost (s.obj Obj.stacksLost ||| 2 ^ i)).setObj Obj.duplexDegraded
    (if s.obj Obj.duplexSize = 0 then 0 else 1)

/-- R259: declare a stack lost. -/
def State.loseStack (s : State) (i : Nat) : State :=
  if s.inReset ∨ s.part.variant.stacks ≤ i ∨ s.stackIsLost i then s
  else ((s.markLost i).event 0x0E3 (unitOf 0x3 i) .ok 0).countFault

/-- STACK_LOST (R259). -/
def execStackLost (stack : Nat) (s : State) : Host.Outcome State Fault Refusal := .next (s.loseStack stack)

/-! ## Segments and the bridge -/

/-- The tiles of a segment: one column of a die (R2, R264). -/
def segmentTiles (d c : Nat) : List Nat := (List.range 8).map (fun r => 96 * d + 12 * r + c)

/-- R264, R412: a segment is declared failed and its traffic moves to FM; when FM fails in it too, every tile of the
segment is fenced (log 45). -/
def State.failSegment (s : State) (d c : Nat) : State :=
  let k := 12 * d + c
  if s.inReset ∨ s.part.variant.dies ≤ d ∨ 12 ≤ c then s
  else if s.mem.failedSegments.contains k then (segmentTiles d c).foldl (fun (t : State) p => t.fenceTile p) s
  else ({ s with mem := { s.mem with failedSegments := s.mem.failedSegments ++ [k] } }.event 0x0E4 (unitOf 0x5 k) .ok
    0).countFault

/-- SEGMENT_FAILED (R264). -/
def execSegmentFailed (die column : Nat) (s : State) : Host.Outcome State Fault Refusal :=
  .next (s.failSegment die column).settle

/-- R265: close a lane group of one direction, with one event in G7. -/
def State.closeGroup (s : State) (g dir : Nat) : State :=
  { s with mem := { s.mem with closedGroups := insertOnce s.mem.closedGroups (2 * g + dir) } }.event 0x0E5 (unitOf 0xC g)
    .ok 0

/-- R265: a lane of a group fails: its spare takes over, or the group is closed. -/
def State.failLane (s : State) (g dir : Nat) : State :=
  let k := 2 * g + dir
  if s.inReset || !s.part.variant.hasBridge || decide (8 ≤ g) || decide (2 ≤ dir) || s.mem.closedGroups.contains k then s
  else if s.mem.sparedLanes.contains k then (s.closeGroup g dir).countFault
  else { s with mem := { s.mem with sparedLanes := s.mem.sparedLanes ++ [k] } }.countFault

/-- BRIDGE_LANE_FAIL (R265). -/
def execBridgeLaneFail (group direction : Nat) (s : State) : Host.Outcome State Fault Refusal :=
  .next (s.failLane group direction)

/-! ## Arbiter priorities (R274, R275) -/

/-- The keys of SHADOW_PRIORITY: arbiter kind and requester class. -/
def shadowKeys : List Nat :=
  (List.range 3).flatMap (fun a => (List.range 7).map (fun i => objKey (0x2A01 + a) (i + 1)))

/-- The key of PRIORITY_IN_FORCE that answers to a key of SHADOW_PRIORITY. -/
def forceKey (k : Nat) : Nat := k + 0x1000

/-- The shadow values as they stand. -/
def State.shadowValues (s : State) : Tab Nat := shadowKeys.map (fun k => (k, s.obj k))

/-- Put values in force. -/
def State.forcePriorities (s : State) (v : Tab Nat) : State :=
  v.foldl (fun (t : State) e => t.setObj (forceKey e.1) e.2) s

/-- 2 µs in TB counts (R274). -/
def commitDelay : Nat := 7200

/-- ARB_COMMIT once it is accepted: the shadow values are copied and the instant is stamped. -/
def State.startCommit (s : State) : State :=
  { s.setObj Obj.commitPending 1 with
    mem := { s.mem with commitAt := some (s.time.tb + commitDelay), commitValues := s.shadowValues } }

/-- The instant of a pending commit has come. -/
def State.finishCommit (s : State) : State :=
  let a := { s with mem := { s.mem with commitAt := none, commitValues := [] } }.forcePriorities s.mem.commitValues
  (a.incObj Obj.commitCount).setObj Obj.commitPending 0

/-- ARB_COMMIT_INSTANT (R274). -/
def execArbCommitInstant (dt : Nat) (s : State) : Host.Outcome State Fault Refusal :=
  let a := s.advance dt
  .next (match a.mem.commitAt with
    | some t => if t ≤ a.time.tb then a.finishCommit else a
    | none => a)

end Sys2Proof.Machine
end

