-- ==== Sys2Proof/Machine/Fault.lean ====
section
/-!
DEFINITION. The failure of a control core, with the migration of its roles (R347 to R350).
-/

namespace Sys2Proof.Machine

open Sys2Proof

/-! ## Control cores -/

/-- A core that can run roles. -/
def State.coreHealthy (s : State) (c : Nat) : Bool := decide (c < 8) && (s.core c).condition == 0

/-- The healthy cores, ascending. -/
def State.healthyCores (s : State) : List Nat := (List.range 8).filter s.coreHealthy

/-- R349: the core that receives a role: a free spare, else the lowest-numbered healthy core. -/
def State.receiver (s : State) : Option Nat :=
  match s.healthyCores.find? (fun c => (s.core c).roles.isEmpty) with
  | some c => some c
  | none => s.healthyCores.head?

/-- Step 2 of R349: sources that named a core name another. -/
def State.retarget (s : State) (old new : Nat) : State :=
  let moved := (List.range 512).filter (fun src => s.srcTargets src old)
  { s with intr := { s.intr with
      srcCfg := moved.foldl (fun (t : Tab Nat) src =>
        Tab.put t src ((s.srcCfg src - 2 ^ (8 + old)) ||| 2 ^ (8 + new))) s.intr.srcCfg } }

/-- R350: a load that the routing role has in progress starts again from the image. -/
def State.restartLoad (s : State) (role : Nat) : State :=
  if role = 2 ∧ s.route.loading.isSome then { s with route := { s.route with restart := true } } else s

/-- R350: a K write that the dictionary server has waiting is not durable, so it is applied from the start: its access is
served again from its checks. -/
def State.restartWrite (s : State) (role : Nat) : State :=
  if role = 4 then { s with server := { s.server with kWrite := none } } else s

/-- Move one role to a core: one event, and it counts (R349). -/
def State.moveRole (s : State) (new role : Nat) : State :=
  let a := ((s.restartLoad role).restartWrite role).setCore new { s.core new with roles := (s.core new).roles ++ [role] }
  let b := { a with take := { a.take with roleMigrations := if a.takeOpen then a.take.roleMigrations + 1 else a.take.roleMigrations } }
  { b with intr := { b.intr with migrations := (b.intr.migrations + 1) % 2 ^ 32 } }.event 0x121 (unitOf 0x6 new) .ok role

/-- The roles of a failed core in the order in which they move: the fault manager first (R349). -/
def migrationOrder (roles : List Nat) : List Nat :=
  roles.filter (fun r => r == 6) ++ roles.filter (fun r => r != 6)

/-- R348, R349, R357: a core fails. Its stack is discarded, a second fence makes it unusable (R375), and its roles
migrate. -/
def State.fenceCore (s : State) (c : Nat) : State :=
  if !s.rst.fwRunning || !(s.coreHealthy c) then s
  else
    let k := s.core c
    let a := s.setCore c { k with
      running := 0, stack := [], roles := [], condition := if 1 ≤ k.fences then 2 else 1, fences := k.fences + 1,
      halted := false }
    let b := (a.event 0x120 (unitOf 0x6 c) .ok 0).countFault
    match b.receiver with
    | some r => ((migrationOrder k.roles).foldl (fun (t : State) role => t.moveRole r role) (b.retarget c r)).interruptCores
    | none => b

/-- CORE_WATCHDOG_EXPIRY (R348): the watchdog of a halted core is suspended (R405). -/
def execCoreWatchdogExpiry (core : Nat) (s : State) : Host.Outcome State Fault Refusal :=
  .next (if (s.core core).halted then s else s.fenceCore core)

/-- CORE_UNCORRECTABLE_ERROR (R348). -/
def execCoreUncorrectableError (core : Nat) (s : State) : Host.Outcome State Fault Refusal := .next (s.fenceCore core)

end Sys2Proof.Machine
end

