-- ==== Sys2Proof/Machine/Intr.lean ====
section
/-!
DEFINITION. Raising, clearing and delivering interrupt sources (R321, R352, R353, R356 to R359).
-/

namespace Sys2Proof.Machine

open Sys2Proof

/-- The sources of a group that a RAISE word names and R418 lists. -/
def raisedSources (group bits : Nat) : List Nat :=
  ((List.range 32).filter (fun b => bitAt bits b)).map (fun b => 32 * group + b) |>.filter sourceListed

/-- The entry of a source that firmware raises: CODE is its number; UNIT and DETAIL are not stated, free values (R418, log
187). The entries of G14 are raised, never logged. Before the journal restore the entry waits for the restore, its source
raised already (R417). -/
def State.logRaise (s : State) (src : Nat) : State :=
  if src / 32 = 14 then s
  else
    let f := s.freeNow.toNat
    let a := s.useFree.log src (f % 2 ^ 16) .ok (f / 2 ^ 16 % 2 ^ 32)
    { a with early := a.early.map (fun e => if e.code = src then { e with raised := true } else e) }

/-- A write of RAISE (R352, R353): every source named is set pending at once, each core decides once (R356), and the group's
release is tested; then each source has its entry (R418). -/
def State.raiseBits (s : State) (group bits : Nat) : State :=
  let srcs := raisedSources group bits
  if s.inReset || srcs.isEmpty then s
  else
    let a := (srcs.foldl (fun (t : State) src => t.setPending src) s).interruptCores.testRelease group
    srcs.foldl (fun (t : State) src => t.logRaise src) a

/-- RAISE (R352): firmware raises a source; one that R418 does not list is never raised. -/
def execRaise (source : Nat) (s : State) : Host.Outcome State Fault Refusal :=
  .next (s.raiseBits (source / 32) (2 ^ (source % 32)))

/-- COALESCE_TIME_RELEASE (R359). -/
def execCoalesceTimeRelease (dt group : Nat) (s : State) : Host.Outcome State Fault Refusal :=
  let a := s.advance dt
  .next (if group < 16 then a.testRelease group else a)

/-- The bits of `x` that are not set in `mask`. -/
def clearBits (x mask : Nat) : Nat := x - (x &&& mask)

/-- A write of PEND: write 1 clears (R353). -/
def State.clearPend (s : State) (group bits : Nat) : State :=
  { s with intr := { s.intr with pend := Tab.store s.intr.pend 0 group (clearBits (s.pend group) bits) } }

/-- PEND_CLEAR (R353). -/
def execPendClear (group bits : Nat) (s : State) : Host.Outcome State Fault Refusal :=
  .next (if group < 16 then s.clearPend group bits else s)

/-- R357: a write to EOI. -/
def State.endInterrupt (s : State) (c : Nat) : State :=
  let k := s.core c
  match k.stack.getLast? with
  | some p => (s.setCore c { k with running := p, stack := k.stack.dropLast }).interruptCore c
  | none => (s.setCore c { k with underflows := (k.underflows + 1) % 2 ^ 32 }).event 0x122 (unitOf 0x6 c) .ok 0

/-- EOI (R357). -/
def execEoi (core : Nat) (s : State) : Host.Outcome State Fault Refusal :=
  .next (if core < 8 then s.endInterrupt core else s)

/-! ## The interrupt-controller window (R353 to R355) -/

/-- DEPTH and RUNNING of a core block, as R355 places them. -/
def CoreSt.stateWord (k : CoreSt) : Nat := k.running + k.stack.length * 2 ^ 8

/-- STACK: entry i at bits 4i + 3 to 4i; entries at or above DEPTH read 0. -/
def CoreSt.stackWord (k : CoreSt) : Nat := listSum (k.stack.zipIdx.map (fun q => q.1 * 2 ^ (4 * q.2)))

/-- A register of a core block; EOI is write-only and reads 0 (log 160). -/
def CoreSt.word (k : CoreSt) (off : Nat) : Nat :=
  if off = 0 then k.stateWord else if off = 8 then k.stackWord else if off = 0xC then k.underflows else 0

/-- A read of the window by a core: PEND, RAISE (0), SRC_CFG or a core block; any other offset reads 0. -/
def State.ctlWord (s : State) (off : Nat) : Nat :=
  if off % 4 ≠ 0 then 0
  else if off < 0x40 then s.pend (off / 4)
  else if 0x400 ≤ off ∧ off < 0xC00 then s.srcCfg ((off - 0x400) / 4)
  else if 0x1000 ≤ off ∧ off < 0x1200 then (s.core ((off - 0x1000) / 0x40)).word ((off - 0x1000) % 0x40)
  else 0

/-- A write of SRC_CFG: PRIORITY and TARGET, for later decisions (R354); the next one is that of the next cycle, in which a
pending source may now meet R356. -/
def State.writeSrcCfg (s : State) (src v : Nat) : State :=
  { s with intr := { s.intr with srcCfg := Tab.put s.intr.srcCfg src (v &&& srcCfgMask) } }.interruptCores

/-- A write of the window by a core; read-only registers and offsets not listed ignore it. -/
def State.ctlWrite (s : State) (off v : Nat) : State :=
  if off % 4 ≠ 0 then s
  else if off < 0x40 then s.clearPend (off / 4) (v % 2 ^ 32)
  else if off < 0x80 then s.raiseBits ((off - 0x40) / 4) v
  else if 0x400 ≤ off ∧ off < 0xC00 then s.writeSrcCfg ((off - 0x400) / 4) v
  else if 0x1000 ≤ off ∧ off < 0x1200 ∧ off % 0x40 = 4 then s.endInterrupt ((off - 0x1000) / 0x40)
  else s

/-- An access of a core to the window; none runs before firmware does (R376). -/
def State.ctlAccess (s : State) (off : Nat) (write : Option Nat) : State :=
  if !s.rst.fwRunning then s
  else match write with
    | some v => s.ctlWrite off v
    | none => s.emit (.windowData off (s.ctlWord off))

/-! ## Debug level 1 (R405) -/


/-- Some core is halted. -/
def State.anyHalted (s : State) : Bool := (List.range 8).any (fun c => (s.core c).halted)

/-- Halt a core or let it go on. -/
def State.haltCore (s : State) (c : Nat) (on : Bool) : State :=
  if c < 8 then s.setCore c { s.core c with halted := on } else s

/-- Bytes of the shared SRAM. One that is not known (before its first write, or where roles keep their state and their
checkpoints, R347, R348) and one with a double-bit error reads a free value (log 161). -/
def State.sramBytesAt (s : State) (a n : Nat) : List Byte :=
  (List.range n).map (fun i =>
    match Tab.look s.intr.sram (a + i), Tab.read s.intr.sramErrors false (a + i) with
    | some b, false => b
    | _, _ => (Config.freeValue (s.free + i)).setWidth 8)

/-- A read of the shared SRAM corrects its single-bit errors (R347). -/
def State.sramRead (s : State) (a n : Nat) : State × List Byte :=
  ({ s with
    free := s.free + n,
    intr := { s.intr with sramErrors := s.intr.sramErrors.filter (fun e => e.2 || e.1 < a || decide (a + n ≤ e.1)) } },
   s.sramBytesAt a n)

/-- An upset of a byte of the shared SRAM: a double-bit error stays one. -/
def State.sramUpset (s : State) (a : Nat) (double : Bool) : State :=
  if a < sramBytes then { s with intr := { s.intr with
    sramErrors := Tab.put s.intr.sramErrors a (double || Tab.read s.intr.sramErrors false a) } }
  else s

/-- Halt and memory access through the test port, which level 1 opens; the memory that the spec sizes is the shared SRAM
(log 161). -/
def State.debugAccess (s : State) (op : DebugOp) : State :=
  if s.sec.debugLevel = 0 || !s.sec.trstN then s
  else match op with
    | .halt c => s.haltCore c true
    | .resume c => s.haltCore c false
    | .read a n => if a + n ≤ sramBytes then (s.sramRead a n).1.emit (.tdo (s.sramRead a n).2) else s
    | .write a bs => if a + bs.length ≤ sramBytes then s.sramWrite a bs else s

/-! ## MSI-X masks -/

/-- Send a pending vector once if it is open, and clear its pending bit (R321). -/
def State.sendPending (s : State) (v : Nat) : State :=
  if s.host.msixPending.contains v && s.vectorOpen v then
    { s with host := { s.host with msixPending := s.host.msixPending.filter (fun x => x != v) } }.emit (.msix v)
  else s

/-- Send every pending vector that is open, in vector order. -/
def State.sendAllPending (s : State) : State := (List.range 16).foldl (fun (t : State) v => t.sendPending v) s

/-- Clear the mask bit of a vector. -/
def State.unmaskVector (s : State) (v : Nat) : State :=
  { s with host := { s.host with unmaskedVectors := insertOnce s.host.unmaskedVectors v } }.sendPending v

/-- Set the mask bit of a vector. -/
def State.maskVector (s : State) (v : Nat) : State :=
  { s with host := { s.host with unmaskedVectors := s.host.unmaskedVectors.filter (fun x => x != v) } }

/-- MSIX_UNMASK (R321): one of the 64 vectors, or the function mask, which a configuration write sets. -/
def execMsixUnmask (which : MsixMask) (s : State) : Host.Outcome State Fault Refusal :=
  .next (match which with
    | .vector v => if v < 64 then s.unmaskVector v else s
    | .function => { s with host := { s.host with functionMask := false } }.sendAllPending)

end Sys2Proof.Machine
end

