-- ==== Sys2Proof/Machine/View.lean ====
section
/-!
DEFINITION. What a read of the object dictionary shows (R323, R327): the stored value of an object, or the state it
reports where the state has another home.
-/

namespace Sys2Proof.Machine

open Sys2Proof

/-! ## Views over the part (class F) -/


/-- BOOT_SLOT (R329, R398, R399): the slot that booted, or the CFG_SENSE slot. -/
def State.bootSlot (s : State) : Nat :=
  if s.sec.resultA = 0 then 0 else if s.sec.resultB = 0 then 1 else bitsOf s.rst.cfgCode 0 0

/-- FIRMWARE_VERSION of the running image (R395); with none running it is a free value (log 47). -/
def State.firmwareVersion (s : State) : Nat :=
  if s.sec.header.isEmpty then s.freeNow.toNat % 2 ^ 32 else leNat ((s.sec.header.drop 8).take 4)

/-- The objects of 0x2000. -/
def State.viewIdentity (s : State) (sub : Nat) : Option Nat :=
  match sub with
  | 0x03 => some s.part.variant.partNumber
  | 0x04 => some (s.part.siliconRev % 2 ^ 8)
  | 0x05 => some (s.part.serial % 2 ^ 64)
  | 0x06 => some s.firmwareVersion
  | 0x07 => some s.bootSlot
  | 0x08 => some s.rst.cfgCode
  | _ => none

/-- The objects of 0x1018 (R330). -/
def State.viewCoeIdentity (s : State) (sub : Nat) : Option Nat :=
  match sub with
  | 0x01 => some 0xA3C
  | 0x02 => some s.part.variant.partNumber
  | 0x03 => some (s.part.siliconRev % 2 ^ 8)
  | 0x04 => some (s.part.serial % 2 ^ 32)
  | _ => none

/-- The name of the variant in ASCII (R330). -/
def variantName : Variant → List Byte
  | .tmn5800 => [0x54, 0x4D, 0x4E, 0x2D, 0x35, 0x38, 0x30, 0x30]
  | .tmn5830 => [0x54, 0x4D, 0x4E, 0x2D, 0x35, 0x38, 0x33, 0x30]
  | .tmn5840 => [0x54, 0x4D, 0x4E, 0x2D, 0x35, 0x38, 0x34, 0x30]

/-- The VISIBLE_STRING objects (R330). -/
def State.viewString (s : State) (index : Nat) : List Byte :=
  if index = 0x1008 then variantName s.part.variant
  else if index = 0x1009 then s.part.hardwareVersion
  else Config.softwareVersion s.firmwareVersion

/-! ## Views over retained state -/

/-- The keys of the firmware's own records of the journal are held apart from the K objects. K_COUNT counts both:
every subindex a snapshot holds (R329). -/
def State.kCount (s : State) : Nat := objKKeys.length + s.journal.fwRecords.length

/-- The objects of 0x2003 with another home. -/
def State.viewJournal (s : State) (sub : Nat) : Option Nat :=
  match sub with
  | 0x04 => some s.journal.nextSlot
  | 0x05 => some s.kCount
  | 0x06 => some (max s.journal.erase0 s.journal.erase1)
  | _ => none

/-! ## Views over the line and the takes -/

/-- The objects of 0x2100 with another home. -/
def State.viewLine (s : State) (sub : Nat) : Option Nat :=
  match sub with
  | 0x11 => some s.reported
  | 0x12 => some (if s.rst.restored then s.time.period / tbPerUs else s.obj Obj.advNominalPeriodUs)
  | 0x13 => some s.time.tb
  | _ => none

/-- The newest version's σ of a delayed entry, or an exact entry's σ (R212). -/
def State.shownSigma (s : State) (id : Nat) : Int :=
  if 0x800 ≤ id then Tab.read s.steps.exact 0 id
  else match s.steps.versions with
    | v :: _ => Tab.read v.sigma 0 id
    | [] => 0

/-- The window 0x2341 (R212). -/
def State.viewScale (s : State) (sub : Nat) : Option Nat :=
  let id := s.obj Obj.scaleEntrySelect
  let h := Tab.read s.steps.history [] id
  if sub = 0x02 then some (unsignedOf 8 (s.shownSigma id))
  else if sub = 0x03 then some (Tab.read s.steps.shown 0 id)
  else if sub = 0x04 then some h.length
  else if 0x10 ≤ sub then some ((h[sub - 0x10]?).getD 0).toNat
  else none

/-- The entry window of 0x2500 (R243). -/
def State.viewRouting (s : State) (sub : Nat) : Option Nat :=
  let e := (Tab.read s.route.staged 0 (s.obj Obj.tableEntrySelect)).toNat
  if sub = 0x06 then some (bitsOf e 63 0) else if sub = 0x07 then some (bitsOf e 127 64) else none

/-! ## Views over the fabric and the memories -/

/-- PORT_STATUS (R301). With both directions switched, the received wavelength is shown (log 48). -/
def State.portStatus (s : State) (k : Nat) : Nat :=
  let p := s.port k
  let lane := match p.rxSpare with
    | some x => some x
    | none => p.txSpare
  p.state + (match lane with
    | some x => 8 + x * 2 ^ 4
    | none => 0) + p.peerRack * 2 ^ 8 + p.peerPackage * 2 ^ 14 + p.peerRole * 2 ^ 20

/-- SHADOW_DIFFERS (R275). -/
def State.shadowDiffers (s : State) : Bool := shadowKeys.any (fun k => decide (s.obj k ≠ s.obj (forceKey k)))

/-! ## Views over reset, power and the control complex -/

/-- The number with the bits of a list set. -/
def maskOf (l : List Nat) : Nat := listSum (l.map (fun i => 2 ^ i))

/-- The bits of one 64-tile word of a set of tiles. -/
def tileWord (word : Nat) (inSet : Nat → Bool) : Nat :=
  maskOf ((List.range 64).filter (fun i => inSet (64 * word + i)))

/-- A tile of the variant that is unusable now (R393). -/
def State.tileUnusable (s : State) (p : Nat) : Bool := decide (p < s.part.variant.tiles) && !(s.tileUsable p)

/-- USABLE_TILES (R387); 0 until a BIST result is in force. -/
def State.usableTiles (s : State) : Nat :=
  if s.rst.restored then ((List.range s.part.variant.tiles).filter s.tileUsable).length else 0

/-- The objects of 0x2700 with another home. -/
def State.viewPower (s : State) (sub : Nat) : Option Nat :=
  match sub with
  | 0x05 => some s.part.tripThreshold
  | 0x06 => some s.part.tripRelease
  | 0x08 => some (if s.rst.alert then 1 else 0)
  | 0x09 => some s.usableTiles
  | _ => none

/-- The bitmaps of 0x2710 (R393). -/
def State.viewBist (s : State) (sub : Nat) : Option Nat :=
  let b := s.rst.bistInForce
  let failed (w : Nat) : Option Nat := some (tileWord w (fun p => b.failedTiles.contains p))
  let bad (w : Nat) : Option Nat := some (tileWord w s.tileUnusable)
  match sub with
  | 0x04 => failed 0
  | 0x05 => failed 1
  | 0x06 => failed 2
  | 0x07 => some (maskOf b.failedCores.eraseDups + maskOf b.failedStacks.eraseDups * 2 ^ 8 +
      maskOf b.failedGroups.eraseDups * 2 ^ 16)
  | 0x08 => some (maskOf b.failedSegments.eraseDups)
  | 0x09 => some (maskOf b.failedPorts.eraseDups)
  | 0x0A => bad 0
  | 0x0B => bad 1
  | 0x0C => bad 2
  | _ => none

/-- The objects of 0x2F00 with another home. -/
def State.viewReset (s : State) (sub : Nat) : Option Nat :=
  match sub with
  | 0x02 => some s.rst.lastCauses
  | 0x03 => some s.rst.causeHistory
  | 0x04 => some s.rst.resetCount
  | 0x07 => some (if s.rst.cfgFault then 1 else 0)
  | _ => none

/-- CORE_STATE (R361): a core with two roles shows its first one (log 49). -/
def State.coreState (s : State) (c : Nat) : Nat :=
  let k := s.core c
  (if k.condition ≠ 0 then 0xF else k.roles.headD 7) + k.condition * 2 ^ 4

/-- The objects of 0x3002. -/
def State.viewCores (s : State) (sub : Nat) : Option Nat :=
  if 1 ≤ sub ∧ sub ≤ 8 then some (s.coreState (sub - 1)) else none

/-- The objects of 0x2E00 to 0x2E06 (R345, R346). -/
def State.viewFactory (s : State) (n sub : Nat) : Option Nat :=
  if sub = 0 then none
  else if n = 0 then (if sub = 1 then some (if s.part.factoryCrcOk then 1 else 0) else some s.part.factoryDate)
  else some (s.calFactory n sub)

/-! ## One value -/

/-- The value of an object whose home is not the store of objects. -/
def State.viewOther (s : State) (index sub : Nat) : Option Nat :=
  if index = 0x2000 then s.viewIdentity sub
  else if index = 0x1018 then s.viewCoeIdentity sub
  else if index = 0x2001 ∧ sub = 1 then some s.featureMap
  else if index = 0x2003 then s.viewJournal sub
  else if index = 0x2100 then s.viewLine sub
  else if index = 0x2341 then s.viewScale sub
  else if index = 0x2500 then s.viewRouting sub
  else if index = 0x2600 ∧ sub = 0x12 then some (s.groupMembers.length + 1)
  else if index = 0x2605 ∧ 1 ≤ sub then some (s.portStatus (sub - 1))
  else if index = 0x2700 then s.viewPower sub
  else if index = 0x2710 then s.viewBist sub
  else if index = 0x2A00 ∧ sub = 4 then some (if s.shadowDiffers then 1 else 0)
  else if 0x2E00 ≤ index ∧ index ≤ 0x2E06 then s.viewFactory (index - 0x2E00) sub
  else if index = 0x2F00 then s.viewReset sub
  else if index = 0x3002 then s.viewCores sub
  else none

/-- The value that a read of index:subindex shows. -/
def State.view (s : State) (index sub : Nat) : Nat :=
  match s.viewOther index sub with
  | some v => v
  | none => s.obj (objKey index sub)

/-- The bytes of a value, in the length of the type of its row; a WO subindex reads 0 (R327). -/
def State.viewBytes (s : State) (r : ObjRow) (index sub : Nat) : List Byte :=
  if r.type = .string then s.viewString index
  else if r.access = .wo then List.replicate r.type.bytes 0
  else leBytes r.type.bytes (s.view index sub)

end Sys2Proof.Machine
end

