-- ==== Sys2Proof/Machine/Check.lean ====
section
/-!
DEFINITION. The checks of dictionary accesses: which access is refused, with which status and SDO abort code (R326,
R327), the ranges and the rules between objects that each object's table states, and PDO mapping (R336).
-/

namespace Sys2Proof.Machine

open Sys2Proof

/-- A refusal: its status and its SDO abort code (R326). -/
structure Refused where
  status : Status
  abort : Nat
  deriving DecidableEq, Repr

/-- The rows of R326. -/
def noIndex : Refused := ⟨.unmapped, 0x06020000⟩
def noSub : Refused := ⟨.unmapped, 0x06090011⟩
def readOnly : Refused := ⟨.forbidden, 0x06010002⟩
def writeOnly : Refused := ⟨.forbidden, 0x06010001⟩
def mappedWrite : Refused := ⟨.forbidden, 0x06010000⟩
def badLength : Refused := ⟨.malformed, 0x06070010⟩
def badRange : Refused := ⟨.outOfRange, 0x06090030⟩
def notMappable : Refused := ⟨.outOfRange, 0x06040041⟩
def pdoTooLong : Refused := ⟨.outOfRange, 0x06040042⟩
def badState : Refused := ⟨.notReady, 0x08000022⟩
def absentUnit : Refused := ⟨.absentUnit, 0x08000020⟩
def journalFault : Refused := ⟨.journalFault, 0x06060000⟩

/-- A value that FORBIDDEN refuses and no other row of R326 describes (R29, R337, log 50). -/
def forbiddenValue : Refused := readOnly

/-! ## PDO mapping (R336) -/


/-- An object mappable into the RxPDO. -/
def rxMappable (i sub : Nat) : Bool :=
  (i == 0x7000 && decide (1 ≤ sub ∧ sub ≤ 3)) || (i == 0x7010 && decide (1 ≤ sub ∧ sub ≤ 0x30))

/-- An object mappable into a TxPDO. -/
def txMappable (i sub : Nat) : Bool :=
  (decide (0x6000 ≤ i ∧ i ≤ 0x6FFF) && decide (1 ≤ sub) && (objRow i sub).isSome) || (i == 0x2001 && sub == 1) ||
    (i == 0x2003 && sub == 1) || (i == 0x2100 && (sub == 0x10 || sub == 0x11 || sub == 0x13 || sub == 0x15)) ||
    (i == 0x2200 && decide (0x10 ≤ sub ∧ sub ≤ 0x13))


/-- Why an entry cannot be mapped, if so. -/
def mapFault (rx : Bool) (e : Nat) : Option Refused :=
  if isPadding e then none
  else if !(if rx then rxMappable (mapIndex e) (mapSub e) else txMappable (mapIndex e) (mapSub e)) then some notMappable
  else match objRow (mapIndex e) (mapSub e) with
    | some r => if mapBits e = r.type.bits then none else some badRange
    | none => some notMappable


/-- The bytes of a PDO. -/
def State.pdoBytes (s : State) (index : Nat) : Nat := listSum ((s.pdoEntries index).map mapBits) / 8

/-- The bytes that the assigned PDOs of 0x1C12 or 0x1C13 take together. -/
def State.assignedBytes (s : State) (assign : Nat) : Nat := listSum ((s.pdoEntries assign).map s.pdoBytes)

/-- The PDOs that an assignment object may name. -/
def pdoNamed (assign pdo : Nat) : Bool :=
  if assign = 0x1C12 then pdo == 0x1600 else decide (0x1A00 ≤ pdo ∧ pdo ≤ 0x1A03)

/-- The assigned PDOs exceed 256 bytes out or 1,024 bytes in. -/
def State.pdosTooLong (s : State) : Bool :=
  decide (256 < s.assignedBytes 0x1C12) || decide (1024 < s.assignedBytes 0x1C13)

/-- A write of subindex 0 of a mapping object checks its entries. -/
def State.mappingFault (s : State) (index : Nat) : Option Refused :=
  match (s.pdoEntries index).findSome? (mapFault (index == 0x1600)) with
  | some r => some r
  | none => if s.pdosTooLong then some pdoTooLong else none

/-- A write of subindex 0 of an assignment object checks its entries. -/
def State.assignFault (s : State) (index : Nat) : Option Refused :=
  if !((s.pdoEntries index).all (pdoNamed index)) then some badRange
  else if s.pdosTooLong then some pdoTooLong else none

/-- A mapping or assignment object. -/
def pdoObject (index : Nat) : Bool :=
  index == 0x1600 || decide (0x1A00 ≤ index ∧ index ≤ 0x1A03) || index == 0x1C12 || index == 0x1C13

/-- An object is mapped into the assigned RxPDO. -/
def State.inRxPdo (s : State) (index sub : Nat) : Bool :=
  (s.pdoEntries 0x1C12).any (fun pdo => (s.pdoEntries pdo).any (fun e => mapIndex e == index && mapSub e == sub && index != 0))

/-! ## Ranges -/

/-- A finite REAL32. -/
def realFinite (v : Nat) : Bool := Val.isFinite (f32Val (BitVec.ofNat 32 v))

/-- A finite REAL32 that is not negative. -/
def realNonNeg (v : Nat) : Bool := realFinite v && Val.le Val.zero (f32Val (BitVec.ofNat 32 v))

/-- One REAL32 is not above another. -/
def realLe (a b : Nat) : Bool := Val.le (f32Val (BitVec.ofNat 32 a)) (f32Val (BitVec.ofNat 32 b))

/-- lo ≤ v ≤ hi. -/
def within (lo hi v : Nat) : Bool := decide (lo ≤ v ∧ v ≤ hi)

/-- A signed value of `bits` bits lies in a range. -/
def withinInt (bits : Nat) (lo hi : Int) (v : Nat) : Bool := decide (lo ≤ signedOf bits v ∧ signedOf bits v ≤ hi)

/-- 0x2100 (R31). -/
def rangeLine (sub v : Nat) : Bool :=
  if sub = 1 ∨ sub = 7 then within 0 1 v
  else if sub = 4 then within 0 8 v
  else if sub = 6 then within 2 255 v
  else decide (1 ≤ v)

/-- 0x2200 with the rules between its objects (R36, R51), over the state with the values written. -/
def State.rangeTake (s : State) (sub v : Nat) : Bool :=
  let half := s.obj Obj.nominalLength * 2 ^ 15
  let tolOk := decide (s.obj Obj.earlyTol ≤ half) && decide (s.obj Obj.lateTol ≤ half)
  if sub = 1 then within 0 1 v
  else if sub = 2 then within 1 65535 v && tolOk
  else if sub = 3 then decide (v ≤ half)
  else if sub = 4 then decide (v ≤ half)
  else if sub = 5 ∨ sub = 6 then within 0 3 v && decide (s.obj Obj.shedFloor ≤ s.obj Obj.shedCeiling)
  else if sub = 7 then within 1 255 v
  else if sub = 8 then decide (v + s.obj Obj.earlyTol ≤ s.obj Obj.nominalLength * 2 ^ 16)
  else true

/-- LOSS_SCALE_MIN, LOSS_SCALE_INIT and LOSS_SCALE_MAX in their order (R210). -/
def State.lossScaleOrder (s : State) : Bool :=
  decide (s.objInt Obj.lossScaleMin 8 ≤ s.objInt Obj.lossScaleMax 8) &&
    decide (s.objInt Obj.lossScaleMin 8 ≤ s.objInt Obj.lossScaleInit 8) &&
    decide (s.objInt Obj.lossScaleInit 8 ≤ s.objInt Obj.lossScaleMax 8)

/-- 0x2300 (R210). -/
def State.rangeNumerics (s : State) (sub v : Nat) : Bool :=
  if sub = 1 then s.lossScaleOrder
  else if sub = 2 ∨ sub = 3 then withinInt 8 (-16) 32 v && s.lossScaleOrder
  else if sub = 4 then decide (1 ≤ v)
  else if sub = 5 then within 0 1 v
  else if sub = 6 then within 1 64 v
  else if sub = 7 then within 0 8 v
  else if sub = 0x17 then decide (1000 ≤ v)
  else true

/-- 0x2341 (R212). A value at a place beyond AMAX_HISTORY_LEN would raise HISTORY_FILL above its range (log 55). -/
def State.rangeScale (s : State) (sub v : Nat) : Bool :=
  if sub = 1 then within 0 0xFFD v
  else if sub = 3 then v == 0 || (fmtOf v).isSome
  else if sub = 4 then decide (v ≤ s.obj Obj.amaxHistoryLen)
  else realNonNeg v && decide (sub < 0x10 + s.obj Obj.amaxHistoryLen)

/-- 0x2410 to 0x241F (R151). -/
def rangeMask (sub v : Nat) : Bool :=
  if 1 ≤ sub ∧ sub ≤ 4 then within 0 0x8000 v
  else if sub = 6 then realNonNeg v
  else if sub = 7 then within 1 255 v
  else if sub = 0x0C then within 0 0x8000 v || v == 0xFFFF
  else true

/-- 0x2480 (R158). -/
def State.rangePredictor (s : State) (sub v : Nat) : Bool :=
  if sub = 1 then within 0 0x2000 v
  else if sub = 3 then realNonNeg v
  else if sub = 4 ∨ sub = 5 then realFinite v && realLe (s.obj Obj.marginMin) (s.obj Obj.marginMax)
  else if sub = 6 then decide (1 ≤ v)
  else true

/-- 0x2500 (R243). -/
def rangeRouting (sub v : Nat) : Bool :=
  if sub = 2 then within 1 2 v else if sub = 5 then within 0 0x13FF v else true

/-- A route entry names only ports of the roles it may name (R286). -/
def State.routeRoles (s : State) (otherRack : Bool) (v : Nat) : Bool :=
  (routePorts v).all (fun k => decide (s.part.variant.ports ≤ k) || roleAllowed otherRack (s.portRole k))

/-- 0x2600 to 0x2603 (R286, R300). -/
def State.rangeFabric (s : State) (index sub v : Nat) : Bool :=
  if index = 0x2600 then
    (if sub = 1 ∨ sub = 2 then within 0 63 v
      else if sub = 3 then within 1 63 v
      else if sub = 4 then decide (10 ≤ v)
      else if sub = 5 then decide (1 ≤ v)
      else true)
  else if index = 0x2601 then within 0 3 v
  else if index = 0x2602 then s.routeRoles true v
  else if index = 0x2603 then s.routeRoles false v
  else true

/-- 0x2700 (R387). -/
def rangePower (sub v : Nat) : Bool :=
  if sub = 2 then within 1 2 v
  else if sub = 3 then within 0 1 v
  else if sub = 4 then withinInt 16 640 1664 v
  else true

/-- The largest DUPLEX_SIZE of a variant (R255). -/
def maxDuplex : Variant → Nat
  | .tmn5840 => 126
  | _ => 254

/-- The effective limits of a calibrated quantity (R345). -/
def calWithin (n : Nat) (e : Int) : Bool :=
  match n with
  | 1 => decide (-50000 ≤ e ∧ e ≤ 50000)
  | 2 => decide (-3600 ≤ e ∧ e ≤ 3600)
  | 3 => decide (-3600 ≤ e ∧ e ≤ 3600)
  | 4 => decide (-320 ≤ e ∧ e ≤ 320)
  | 5 => decide (0x7000 ≤ e ∧ e ≤ 0x9000)
  | _ => decide (0 ≤ e ∧ e ≤ 15)

/-- The lot block is aligned and within the variant's range (R337). -/
def State.lotBlockMapped (s : State) (v : Nat) : Bool :=
  v == 0 || (decide (v % 256 = 0) && hbmInRange s.part.variant v 256)

/-- READ_SEQ lies in [NEXT_SEQ − 256, NEXT_SEQ], modulo 2^32 (R415). -/
def State.readSeqOk (s : State) (v : Nat) : Bool := decide ((s.obj Obj.nextSeq + 2 ^ 32 - v) % 2 ^ 32 ≤ 256)

/-- Whether a written value lies in its stated range and keeps the rules between objects; the state already holds the
values written (R326). -/
def State.inRange (s : State) (index sub v : Nat) : Bool :=
  if index = 0x10F1 then within 1 255 v
  else if index = 0x1600 ∧ sub = 0 then within 0 32 v
  else if 0x1A00 ≤ index ∧ index ≤ 0x1A03 ∧ sub = 0 then within 0 64 v
  else if index = 0x1C12 ∨ index = 0x1C13 then
    (if sub = 0 then (if index = 0x1C12 then within 0 1 v else within 0 4 v) else v == 0 || pdoNamed index v)
  else if index = 0x1C32 ∨ index = 0x1C33 then within 0 3 v
  else if index = 0x2002 then within 0 1 v
  else if index = 0x2003 then v == 0x01 || v == 0xE5
  else if index = 0x2100 then rangeLine sub v
  else if index = 0x2200 then s.rangeTake sub v
  else if index = 0x2300 then s.rangeNumerics sub v
  else if index = 0x2341 then s.rangeScale sub v
  else if 0x2410 ≤ index ∧ index ≤ 0x241F then rangeMask sub v
  else if index = 0x2480 then s.rangePredictor sub v
  else if index = 0x2500 then rangeRouting sub v
  else if 0x2600 ≤ index ∧ index ≤ 0x2605 then s.rangeFabric index sub v
  else if index = 0x2700 then rangePower sub v
  else if index = 0x2A00 then v == 1
  else if 0x2A01 ≤ index ∧ index ≤ 0x2A03 then within 0 15 v
  else if index = 0x2A20 then within 0 (maxDuplex s.part.variant) v
  else if index = 0x2C00 then v == 1
  else if 0x2C01 ≤ index ∧ index ≤ 0x2C06 then calWithin (index - 0x2C00) (s.calEffective (index - 0x2C00) sub v)
  else if index = 0x2F00 then
    (if sub = 1 then v == 0x5A5A0001 else if sub = 5 then !(bitAt v 6) else true)
  else if index = 0x4000 ∧ sub = 2 then s.readSeqOk v
  else if index = 0x7000 ∧ sub = 0x10 then s.lotBlockMapped v
  else true

/-! ## Absent units (R7, R9) -/

/-- The whole object belongs to an absent unit: 0x2601 to 0x2605 without optical engines, 0x2A03 without a bridge. -/
def State.absentObject (s : State) (index : Nat) : Bool :=
  (s.part.variant.ports == 0 && decide (0x2601 ≤ index ∧ index ≤ 0x2605)) || (index == 0x2A03 && !s.part.variant.hasBridge)

/-- A write needs a unit that the variant does not have. -/
def State.needsAbsent (s : State) (index sub v : Nat) : Bool :=
  let ports := s.part.variant.ports
  if s.absentObject index then true
  else if index = 0x2601 then decide (ports < sub)
  else if index = 0x2602 ∨ index = 0x2603 then (routePorts v).any (fun k => decide (ports ≤ k))
  else false

/-! ## State -/

/-- EtherCAT is off by CFG_SENSE (R332). -/
def State.ecatOff (s : State) : Bool := bitAt s.rst.cfgCode 2

/-- Objects whose writes are accepted only while no take is open and TAKE_CONTROL is STOP (R210, R212, R255, R299). -/
def stoppedOnly (index sub : Nat) : Bool :=
  (index == 0x2300 && (sub == 0x10 || sub == 0x11)) || (index == 0x2341 && decide (2 ≤ sub)) ||
    (index == 0x2600 && (sub == 1 || sub == 2)) || index == 0x2601 || index == 0x2A20

/-- A write that is not accepted in the present state (R326). -/
def State.notNow (s : State) (index sub v : Nat) : Bool :=
  if pdoObject index then !s.ecatOff && !(s.ecat.al == 1 || s.ecat.al == 2)
  else if stoppedOnly index sub then !s.stopped
  else if index = 0x2003 then v == 0xE5 && !s.stopped
  else if index = 0x2500 ∧ sub = 2 then s.route.loading.isSome
  else if index = 0x2700 ∧ sub = 2 then
    v == 1 && (!s.stopped || s.obj Obj.deviceState == 1 || s.obj Obj.deviceState == 3)
  else if index = 0x2A00 then s.mem.commitAt.isSome
  else false

/-! ## The destination table's entries (R240 to R242) -/

/-- An expert entry within its ranges; the tile range is bounded whether or not it is VALID. -/
def expertOk (b : Nat) : Bool :=
  decide (bitsOf b 7 1 = 0 ∧ bitsOf b 15 14 = 0 ∧ bitsOf b 31 22 = 0 ∧ bitsOf b 127 56 = 0) &&
    decide (bitsOf b 47 32 + bitsOf b 55 48 ≤ 192) && (!(entryValid b) || within 1 64 (bitsOf b 55 48))

/-- A layer entry within its ranges; COUNT_BASE is bounded whether or not it is VALID. -/
def layerOk (b : Nat) : Bool :=
  decide (bitsOf b 7 3 = 0 ∧ bitsOf b 31 20 = 0 ∧ bitsOf b 95 86 = 0 ∧ bitsOf b 127 118 = 0) &&
    decide (bitsOf b 117 96 + 1024 ≤ 0x400000) &&
    (!(entryValid b) || (decide (bitsOf b 19 8 < 1024) && decide (1 ≤ bitsOf b 47 32) && decide (1 ≤ bitsOf b 63 48)))

/-- The entry of the staged table with a given number, experts first. -/
def tableEntryOk (i b : Nat) : Bool := if i < 4096 then expertOk b else layerOk b

/-- The selected staged entry after a write of one half. -/
def State.entryAfter (s : State) (high : Bool) (v : Nat) : Nat :=
  let e := (Tab.read s.route.staged 0 (s.obj Obj.tableEntrySelect)).toNat
  if high then setBits e 127 64 v else setBits e 63 0 v

/-- An entry write fails the checks of R242. -/
def State.entryBad (s : State) (index sub v : Nat) : Bool :=
  index == 0x2500 && (sub == 6 || sub == 7) &&
    !(tableEntryOk (s.obj Obj.tableEntrySelect) (s.entryAfter (sub == 7) v))

/-! ## One value -/

/-- The default of an absent unit's object is accepted in COMPLETE mode (R7). -/
def absentDefault (index sub v : Nat) : Bool := decide (v = objDefault (objKey index sub))

/-- What a write that needs an absent unit is answered: in FITTED mode ABSENT_UNIT, in COMPLETE mode OUT_OF_RANGE, or OK
for the default (R7, R9). -/
def State.absentFault (s : State) (index sub v : Nat) : Option Refused :=
  if s.fitted then some absentUnit else if absentDefault index sub v then none else some badRange

/-- Why the value written to a mapped, writable index:subindex is refused, if so. `s` is the state before the write,
`t` the state with every value of the access in place. R326 gives no order of its conditions: an absent unit comes
first, then the value, then the present state (log 142). -/
def State.valueFault (s t : State) (index sub v : Nat) : Option Refused :=
  if s.needsAbsent index sub v then s.absentFault index sub v
  else if !(t.inRange index sub v) then some badRange
  else if index = 0x2100 ∧ sub = 1 ∧ v = 1 ∧ s.ecatOff then some forbiddenValue
  else if index = 0x7000 ∧ sub = 0x10 ∧ v ≠ 0 ∧ (meetsReserved s.part.variant v 256 || s.meetsDuplexCopy v 256) then
    some forbiddenValue
  else if s.entryBad index sub v then some badLength
  else if s.notNow index sub v then some badState
  else if sub = 0 ∧ (index = 0x1C12 ∨ index = 0x1C13) then t.assignFault index
  else if sub = 0 ∧ pdoObject index then t.mappingFault index
  else none

/-- The bits of a route entry that are not reserved (R286). -/
def routeMask : Nat := 0x3F3F3F

/-- The bits of RESUME_MASK that are not reserved (R367). -/
def resumeBits : Nat := 0x3F

/-- A value of a key without the bits that its layout reserves. -/
def keptBits (k v : Nat) : Nat :=
  if k / 256 = 0x2602 ∨ k / 256 = 0x2603 then v &&& routeMask else if k = Obj.resumeMask then v &&& resumeBits else v

/-! ## A write access -/

/-- The highest subindex an index defines. -/
def highestSub (index : Nat) : Nat := listMax 0 (objSubs index)

/-- The rows of the subindices that a complete access covers, from the one named (R327). -/
def coveredRows (index sub : Nat) : List (Nat × ObjRow) :=
  (objSubs index).filterMap (fun i => if sub ≤ i then (objRow index i).map (fun r => (i, r)) else none)

/-- The bytes that a subindex takes in a complete access; subindex 0 takes two. -/
def coveredBytes (x : Nat × ObjRow) : Nat := if x.1 = 0 then 2 else x.2.type.bytes

/-- Cut the data of a complete access into values, subindex 0 by its first byte. -/
def cutValues : List (Nat × ObjRow) → List Byte → List (Nat × Nat)
  | [], _ => []
  | x :: xs, bs =>
    let n := coveredBytes x
    (x.1, leNat (bs.take (if x.1 = 0 then 1 else n))) :: cutValues xs (bs.drop n)

/-- Some subindex from 1 upward exists, and every one of them is RW (R327). -/
def completeWritable (index : Nat) : Bool :=
  let rows := coveredRows index 1
  !(rows.isEmpty) && rows.all (fun x => decide (x.2.access = .rw))

/-- The two bytes of subindex 0 are the highest subindex and 0. -/
def headOk (index sub : Nat) (data : List Byte) : Bool :=
  sub != 0 || (decide ((data.getD 0 0).toNat = highestSub index) && decide ((data.getD 1 0).toNat = 0))

/-- The values of an access that do something: the default of an absent unit's object changes nothing (R7). -/
def State.present (s : State) (index : Nat) (vs : List (Nat × Nat)) : List (Nat × Nat) :=
  vs.filter (fun x => !(s.needsAbsent index x.1 x.2))

/-- The state with the values of an access in place. -/
def State.withValues (s : State) (index : Nat) (vs : List (Nat × Nat)) : State :=
  vs.foldl (fun (t : State) x => t.setObj (objKey index x.1) x.2) s

/-- The first refusal among the values of an access. -/
def State.valuesFault (s : State) (index : Nat) (vs : List (Nat × Nat)) : Option Refused :=
  let t := s.withValues index vs
  vs.findSome? (fun x => s.valueFault t index x.1 x.2)

/-- A write to an object mapped into the RxPDO in SAFEOP or OP (R326). -/
def State.mappedNow (s : State) (index : Nat) (subs : List Nat) : Bool :=
  (s.ecat.al == 4 || s.ecat.al == 8) && subs.any (fun i => s.inRxPdo index i)

/-- Check a single-subindex write: the values to apply, or the refusal. -/
def State.checkSingle (s : State) (a : Access) : Except Refused (List (Nat × Nat)) :=
  match objRow a.index a.sub with
  | none => .error noSub
  | some r =>
    let vs := [(a.sub, leNat a.data)]
    if r.access = .ro ∧ !(s.absentObject a.index) then .error readOnly
    else if s.mappedNow a.index [a.sub] then .error mappedWrite
    else if a.data.length ≠ r.type.bytes then .error badLength
    else match s.valuesFault a.index vs with
      | some f => .error f
      | none => .ok (s.present a.index vs)

/-- The values of a complete access in its order. Subindex 0 only heads the data: in an object whose subindex 0 is
written, the count in force stays as it is (R327, log 153). -/
def State.completeValues (s : State) (a : Access) (rows : List (Nat × ObjRow)) : List (Nat × Nat) :=
  (cutValues rows a.data).filterMap (fun x =>
    if x.1 = 0 then (if pdoObject a.index then some (0, s.obj (objKey a.index 0)) else none) else some x)

/-- Check a complete-access write; one that names another subindex than 0 or 1 is malformed (log 51). -/
def State.checkComplete (s : State) (a : Access) : Except Refused (List (Nat × Nat)) :=
  let rows := coveredRows a.index a.sub
  if 1 < a.sub then .error badLength
  else if !(completeWritable a.index) && !(s.absentObject a.index) then .error readOnly
  else if s.mappedNow a.index (rows.map (fun x => x.1)) then .error mappedWrite
  else if a.data.length ≠ listSum (rows.map coveredBytes) then .error badLength
  else if !(headOk a.index a.sub a.data) then .error badRange
  else
    let vs := s.completeValues a rows
    match s.valuesFault a.index vs with
    | some f => .error f
    | none => .ok (s.present a.index vs)

/-- Check a write access. -/
def State.checkWrite (s : State) (a : Access) : Except Refused (List (Nat × Nat)) :=
  if !(objIndexMapped a.index) then .error noIndex
  else if a.complete then s.checkComplete a else s.checkSingle a

/-! ## A read access -/

/-- The bytes that a subindex gives in a complete-access read: subindex 0 the highest subindex and a padding byte (R327,
log 153). -/
def State.coveredData (s : State) (index : Nat) (x : Nat × ObjRow) : List Byte :=
  if x.1 = 0 ∧ highestSub index ≠ 0 then [BitVec.ofNat 8 (highestSub index), 0] else s.viewBytes x.2 index x.1

/-- A read access: the data, or the refusal (R326, R327). -/
def State.readAccess (s : State) (a : Access) : Except Refused (List Byte) :=
  if !(objIndexMapped a.index) then .error noIndex
  else if a.complete then
    if 1 < a.sub then .error badLength
    else .ok ((coveredRows a.index a.sub).flatMap (s.coveredData a.index))
  else match objRow a.index a.sub with
    | none => .error noSub
    | some r => if r.access = .wo then .error writeOnly else .ok (s.viewBytes r a.index a.sub)

/-! ## Descriptions (R331, R338) -/

/-- The CoE code of a basic data type (log 52). -/
def typeCode : ObjType → Nat
  | .boolean => 0x01
  | .i8 => 0x02
  | .i16 => 0x03
  | .i32 => 0x04
  | .u8 => 0x05
  | .u16 => 0x06
  | .u32 => 0x07
  | .u64 => 0x1B
  | .real32 => 0x08
  | .string => 0x09

/-- The ObjectAccess word of an entry description: read in bits 2 to 0, write in bits 5 to 3, mappable into the RxPDO in
bit 6 and into a TxPDO in bit 7 (log 52). -/
def accessWord (r : ObjRow) (index sub : Nat) : Nat :=
  (if r.access = .wo then 0 else 7) + (if r.access = .ro then 0 else 0x38) + (if rxMappable index sub then 0x40 else 0) +
    (if txMappable index sub then 0x80 else 0)

/-- The characters of a name as bytes. -/
def nameBytes (n : String) : List Byte := n.toList.map (fun c => BitVec.ofNat 8 c.toNat)

/-- The fields of an entry description: index, subindex, data type, bit length, access word (log 52). -/
def State.entryFields (s : State) (r : ObjRow) (index sub : Nat) : List Nat :=
  [index, sub, typeCode r.type, 8 * (s.viewBytes r index sub).length, accessWord r index sub]

/-- The entry description as bytes, in the form of SDO Information (log 52). -/
def State.entryBytes (s : State) (r : ObjRow) (index sub : Nat) : List Byte :=
  leBytes 2 index ++ leBytes 1 sub ++ [0] ++ leBytes 2 (typeCode r.type) ++
    leBytes 2 (8 * (s.viewBytes r index sub).length) ++ leBytes 2 (accessWord r index sub) ++ nameBytes r.name

/-- An entry description, or the refusal. -/
def State.describe (s : State) (index sub : Nat) : Except Refused (List Byte) :=
  if !(objIndexMapped index) then .error noIndex
  else match objRow index sub with
    | none => .error noSub
    | some r => .ok (s.entryBytes r index sub)

end Sys2Proof.Machine
end

