-- ==== Sys2Proof/Machine/Journal.lean ====
section
/-!
DEFINITION. The continuity journal in the NOR flash: its records, programming with read-back, compaction, erasing and the
scan of the restore (R340 to R343).
-/

namespace Sys2Proof.Machine

open Sys2Proof

/-! ## Records (R340) -/

/-- Slots of a journal region. -/
def regionSlots : Nat := 262144

/-- FILL at which a compaction starts (R342). -/
def compactAt : Nat := 196608

/-- MAGIC of a region header. -/
def journalMagic : Nat := 0x4C4E524A

/-- The kinds of a record. -/
def kindHeader : Nat := 0
def kindValue : Nat := 1
def kindFirst : Nat := 2
def kindNext : Nat := 3
def kindLast : Nat := 4
def kindSnapshot : Nat := 5
def kindSnapshotEnd : Nat := 6

/-- The 28 bytes of a record that its CRC covers. -/
def recordBody (key kind len value seq : Nat) : List Byte :=
  leBytes 2 (key / 256) ++ leBytes 1 (key % 256) ++ leBytes 2 kind ++ leBytes 1 len ++ leBytes 2 0 ++ leBytes 16 value ++
    leBytes 4 seq

/-- A record with its CRC. -/
def journalRecord (key kind len value seq : Nat) : BitVec 256 :=
  let b := recordBody key kind len value seq
  BitVec.ofNat 256 (leNat b + (crc32c b).toNat * 2 ^ 224)

/-- Fields of a record. -/
def jKey (r : BitVec 256) : Nat := bitsOf r.toNat 15 0 * 256 + bitsOf r.toNat 23 16
def jKind (r : BitVec 256) : Nat := bitsOf r.toNat 27 24
def jValue (r : BitVec 256) : Nat := bitsOf r.toNat 191 64
def jSeq (r : BitVec 256) : Nat := bitsOf r.toNat 223 192
def jCrcOk (r : BitVec 256) : Bool :=
  decide ((crc32c (leBytes 28 r.toNat)).toNat = bitsOf r.toNat 255 224)

/-- Fields of the VALUE of a HEADER: MAGIC, GENERATION, ERASE_COUNT, n. -/
def hMagic (r : BitVec 256) : Nat := bitsOf (jValue r) 31 0
def hGeneration (r : BitVec 256) : Nat := bitsOf (jValue r) 63 32
def hErase (r : BitVec 256) : Nat := bitsOf (jValue r) 95 64
def hCount (r : BitVec 256) : Nat := bitsOf (jValue r) 127 96

/-- An erased slot. -/
def blankSlot : BitVec 256 := BitVec.allOnes 256

/-- A slot of a region. -/
def slotOf (t : Tab (BitVec 256)) (i : Nat) : BitVec 256 := Tab.read t blankSlot i

/-- A slot is all ones. -/
def slotErased (t : Tab (BitVec 256)) (i : Nat) : Bool := slotOf t i == blankSlot

/-- The bytes that a value of a key takes in a record: of the object's type, 16 for a firmware record. -/
def valueBytes (key : Nat) : Nat :=
  match objRow (key / 256) (key % 256) with
  | some r => max 1 r.type.bytes
  | none => 16

/-! ## Regions -/

/-- A region's slots. -/
def JournalSt.region (j : JournalSt) (i : Nat) : Tab (BitVec 256) := if i = 0 then j.j0 else j.j1

/-- Replace a region's slots; a region with a programmed slot is not fully erased. -/
def JournalSt.setRegion (j : JournalSt) (i : Nat) (t : Tab (BitVec 256)) : JournalSt :=
  if i = 0 then { j with j0 := t, erased0 := t.isEmpty } else { j with j1 := t, erased1 := t.isEmpty }

/-- A region is fully erased. -/
def JournalSt.erased (j : JournalSt) (i : Nat) : Bool := if i = 0 then j.erased0 else j.erased1

/-- ERASE_COUNT of a region. -/
def JournalSt.eraseCount (j : JournalSt) (i : Nat) : Nat := if i = 0 then j.erase0 else j.erase1

/-- A region's erase completes: every slot is all ones and its ERASE_COUNT rises (R342). -/
def JournalSt.eraseRegion (j : JournalSt) (i : Nat) : JournalSt :=
  if i = 0 then { j with j0 := [], erased0 := true, erase0 := j.erase0 + 1 }
  else { j with j1 := [], erased1 := true, erase1 := j.erase1 + 1 }

/-- A region whose programming failed is no longer erased. -/
def JournalSt.spoil (j : JournalSt) (i : Nat) : JournalSt :=
  if i = 0 then { j with erased0 := false } else { j with erased1 := false }

/-- A region stops being erased: its erase is under way in the background. -/
def JournalSt.startErase (j : JournalSt) (i : Nat) : JournalSt :=
  if (j.region i).isEmpty then j else if i = 0 then { j with erased0 := false } else { j with erased1 := false }

/-- ACTIVE_REGION. -/
def State.activeRegion (s : State) : Nat := s.obj Obj.activeRegion

/-- Whether a valid region is active: none is after a restore that found none (R343). -/
def State.regionValid (s : State) : Bool := decide (s.obj Obj.journalState = 1 ∨ s.obj Obj.journalState = 3)

/-- The region that a compaction writes; without a valid region, J0 (log 53). -/
def State.targetRegion (s : State) : Nat := if s.regionValid then 1 - s.activeRegion else 0

/-! ## Programming (R341) -/

/-- Put a value in the next free slot of the active region. -/
def State.programSlot (s : State) (r : BitVec 256) : State :=
  let j := s.journal
  let t := Tab.store (j.region s.activeRegion) blankSlot j.nextSlot r
  { s with journal := { j.setRegion s.activeRegion t with nextSlot := j.nextSlot + 1 } }

/-- Program a record: at most three attempts, each read back, while the region has a slot left. `bad` gives the read-backs
of the attempts that differ, in order; the state, the rest of `bad` and whether a copy matched. -/
def State.programRecord (r : BitVec 256) : Nat → List (BitVec 256) → State → State × List (BitVec 256) × Bool
  | 0, bad, s => (s, bad, false)
  | n + 1, bad, s =>
    if regionSlots ≤ s.journal.nextSlot then (s, bad, false)
    else match bad with
    | [] => (s.programSlot r, [], true)
    | b :: rest => if b = r then (s.programSlot r, rest, true) else State.programRecord r n rest (s.programSlot b)

/-- The kind of record i of a group of n. -/
def groupKind (i n : Nat) : Nat :=
  if n = 1 then kindValue else if i = 0 then kindFirst else if i + 1 = n then kindLast else kindNext

/-- Program the records of a write, in order, each with the SEQ after the last good one; the first that fails three
times ends it. -/
def State.programAll : List (Nat × Nat × Nat) → List (BitVec 256) → State → State × Bool
  | [], _, s => (s, true)
  | (key, kind, value) :: rest, bad, s =>
    let seq := (s.journal.lastSeq + 1) % 2 ^ 32
    let x := State.programRecord (journalRecord key kind (valueBytes key) value seq) 3 bad s
    if x.2.2 then State.programAll rest x.2.1 { x.1 with journal := { x.1.journal with lastSeq := seq } } else (x.1, false)

/-- The keys and values of one write as one VALUE or one group. -/
def groupOf (vs : List (Nat × Nat)) : List (Nat × Nat × Nat) :=
  vs.zipIdx.map (fun q => (q.1.1, groupKind q.2 vs.length, q.1.2))

/-! ## Compaction (R342) -/

/-- Every K value in force and every firmware record, in ascending key. -/
def State.snapshotValues (s : State) : List (Nat × Nat) :=
  s.journal.fwRecords ++ objKKeys.map (fun k => (k, s.obj k))

/-- A snapshot: SNAPSHOT records from slot 1 with SEQ after `last`, then SNAPSHOT_END. -/
def snapshotSlots (vs : List (Nat × Nat)) (last : Nat) : List (BitVec 256) :=
  let recs := vs.zipIdx.map (fun q =>
    journalRecord q.1.1 kindSnapshot (valueBytes q.1.1) q.1.2 ((last + 1 + q.2) % 2 ^ 32))
  let crc := (crc32c (recs.flatMap (fun r => leBytes 32 r.toNat))).toNat
  recs ++ [journalRecord 0 kindSnapshotEnd 16 (vs.length + crc * 2 ^ 32) ((last + 1 + vs.length) % 2 ^ 32)]

/-- The header of a region whose snapshot holds n values and ends at `seq`. -/
def headerRecord (generation erase n seq : Nat) : BitVec 256 :=
  journalRecord 0 kindHeader 16 (journalMagic + generation % 2 ^ 32 * 2 ^ 32 + erase % 2 ^ 32 * 2 ^ 64 + n * 2 ^ 96) seq

/-- Write a snapshot and its header into a region, which becomes active. -/
def State.writeSnapshot (s : State) (region generation : Nat) : State :=
  let vs := s.snapshotValues
  let last := s.journal.lastSeq
  let seq := (last + 1 + vs.length) % 2 ^ 32
  let slots := headerRecord generation (s.journal.eraseCount region) vs.length seq :: snapshotSlots vs last
  let j := s.journal.setRegion region (Tab.putList [] 0 slots)
  ((({ s with journal := { j with lastSeq := seq, nextSlot := vs.length + 2, worn := false } }.setObj Obj.activeRegion
    region).setObj Obj.generation generation).setObj Obj.journalState 1)

/-- A compaction starts: one event in G13 (R342, R418). -/
def State.startCompaction (s : State) : State :=
  if s.journal.compacting then s
  else { s with journal := { s.journal with compacting := true } }.event 0x1A0 (unitOf 0xB s.activeRegion) .ok 0

/-- R342: the region is 75 % full. -/
def State.compactIfFull (s : State) : State := if compactAt ≤ s.journal.nextSlot then s.startCompaction else s

/-- The old region is erased in the background after a compaction. -/
def State.eraseOld (s : State) (region : Nat) : State := { s with journal := s.journal.startErase region }

/-- K writes wait: the steps 2 to 4 of a compaction may run, or no region is active yet (R342, log 53). -/
def State.journalBusy (s : State) : Bool :=
  !s.regionValid || (s.journal.compacting && s.journal.erased s.targetRegion)

/-- A write of n records is refused: the active region has no room for it while a compaction waits for an erase
(R342). -/
def State.journalFull (s : State) (n : Nat) : Bool :=
  s.regionValid && !s.journalBusy && decide (regionSlots < s.journal.nextSlot + n)

/-! ## The restore (R343) -/

/-- A region has a valid header and snapshot: its header. -/
def validHeader (t : Tab (BitVec 256)) : Option (BitVec 256) :=
  let h := slotOf t 0
  let n := hCount h
  let e := slotOf t (n + 1)
  if jCrcOk h && jKind h == kindHeader && hMagic h == journalMagic && decide (n + 1 < regionSlots) && jCrcOk e &&
      jKind e == kindSnapshotEnd && bitsOf (jValue e) 31 0 == n &&
      bitsOf (jValue e) 63 32 == (crc32c ((Tab.readList t (fun _ => blankSlot) 1 n).flatMap (fun r => leBytes 32 r.toNat))).toNat
  then some h else none

/-- The region that the restore chooses, with its header: the greater GENERATION, J0 among equals. -/
def JournalSt.best (j : JournalSt) : Option (Nat × BitVec 256) :=
  match validHeader j.j0, validHeader j.j1 with
  | some a, some b => if hGeneration a < hGeneration b then some (1, b) else some (0, a)
  | some a, none => some (0, a)
  | none, some b => some (1, b)
  | none, none => none

/-- Where the scan of the log stands: the values applied so far, the last SEQ, a pending group, torn records. -/
structure Scan where
  values : Tab Nat
  last : Nat
  pending : List (BitVec 256)
  torn : Nat
  free : Nat
  deriving DecidableEq, Repr

/-- Apply one record. -/
def applyRecord (t : Tab Nat) (r : BitVec 256) : Tab Nat := Tab.put t (jKey r) (jValue r)

/-- One slot of the log that is not erased. -/
def Scan.take (c : Scan) (r : BitVec 256) : Scan :=
  if !(jCrcOk r) || decide (jSeq r ≠ (c.last + 1) % 2 ^ 32) then { c with torn := c.torn + 1 }
  else
    let d : Scan := { c with last := jSeq r }
    if jKind r = kindValue then { d with pending := [], values := applyRecord d.values r }
    else if jKind r = kindFirst then { d with pending := [r] }
    else if jKind r = kindNext then { d with pending := if d.pending.isEmpty then [] else d.pending ++ [r] }
    else if jKind r = kindLast then
      { d with pending := [],
               values := if d.pending.isEmpty then d.values else (d.pending ++ [r]).foldl applyRecord d.values }
    else d

/-- Scan the log from a slot to the first erased one. -/
def scanLog (t : Tab (BitVec 256)) : Nat → Nat → Scan → Scan
  | 0, i, c => { c with free := i }
  | n + 1, i, c => if slotErased t i then { c with free := i } else scanLog t n (i + 1) (c.take (slotOf t i))

/-- Load a region: its snapshot and then its log. -/
def loadRegion (t : Tab (BitVec 256)) (h : BitVec 256) : Scan :=
  let n := hCount h
  let snap := (Tab.readList t (fun _ => blankSlot) 1 n).foldl applyRecord []
  scanLog t (regionSlots - (n + 2)) (n + 2)
    { values := snap, last := jSeq (slotOf t (n + 1)), pending := [], torn := 0, free := n + 2 }

/-- Put the values of a scan in force: K objects, and the firmware's own records. Reserved bits read 0 (R286, R367). -/
def State.loadValues (s : State) (v : Tab Nat) : State :=
  let a := (v.filter (fun e => objKKeys.contains e.1)).foldl (fun (t : State) e => t.setObj e.1 (keptBits e.1 e.2)) s
  { a with journal := { a.journal with fwRecords := v.filter (fun e => decide (1 ≤ e.1 / 256 ∧ e.1 / 256 ≤ 0xFFF)) } }

/-- R343: restore the journal. Without a valid region every K object has its default, and a first snapshot is wanted
(log 53). -/
def State.restoreJournal (s : State) : State :=
  match s.journal.best with
  | none =>
    let a := { s with journal := { s.journal with lastSeq := 0, nextSlot := 0, fwRecords := [], worn := false } }.setObj
      Obj.journalState 2
    { a with journal := (a.journal.startErase 0).startErase 1 }
  | some (i, h) =>
    let c := loadRegion (s.journal.region i) h
    let a := s.loadValues c.values
    let b := (((a.setObj Obj.journalState 1).setObj Obj.activeRegion i).setObj Obj.generation (hGeneration h)).setObj
      Obj.tornRecords (c.torn % 2 ^ 32)
    { b with journal := { (b.journal.startErase (1 - i)) with
        lastSeq := c.last, nextSlot := c.free, worn := false,
        erase0 := if i = 0 then hErase h else b.journal.erase0, erase1 := if i = 1 then hErase h else b.journal.erase1 } }

end Sys2Proof.Machine
end

