-- ==== Sys2Proof/Machine/Keccak.lean ====
section
/-!
DEFINITION. SHA3-384, SHAKE128 and SHAKE256 (FIPS 202), which the measurements, digests, key derivations and ML-DSA-65
signatures of R394 to R405 name. A sponge state is the list of its 25 lanes of 64 bits, the five lanes of sheet column
`x` at plane `y` in the order of 5y + x. The constants of the rounds are computed from the rules FIPS 202 gives for them.
-/

namespace Sys2Proof.Machine

open Sys2Proof

/-- The state of a sponge. -/
abbrev Sponge := List (BitVec 64)

/-- The lane at coordinates x and y, each counted modulo 5. -/
def laneAt (a : Sponge) (x y : Nat) : BitVec 64 := a.getD (5 * (y % 5) + x % 5) 0

/-- A state by its lanes. -/
def spongeOf (f : Nat → Nat → BitVec 64) : Sponge :=
  (List.range 5).flatMap (fun y => (List.range 5).map (fun x => f x y))

/-- Theta: each lane takes in the parities of the column before it and, rotated, of the column after it. -/
def sheetMix (a : Sponge) : Sponge :=
  let parity := (List.range 5).map (fun x => (List.range 5).foldl (fun p y => p ^^^ laneAt a x y) 0)
  spongeOf (fun x y => laneAt a x y ^^^ laneAt parity (x + 4) 0 ^^^ (laneAt parity (x + 1) 0).rotateLeft 1)

/-- The walk of rho from lane (x, y) at step t: each lane it meets goes, rotated by the triangular number of its step, to the
place that pi gives it. -/
def laneWalk (a : Sponge) : Nat → Nat → Nat → Nat → Tab (BitVec 64)
  | 0, _, _, _ => [(0, laneAt a 0 0)]
  | n + 1, t, x, y =>
    let u := (2 * x + 3 * y) % 5
    (5 * u + y, (laneAt a x y).rotateLeft ((t + 1) * (t + 2) / 2 % 64)) :: laneWalk a n (t + 1) y u

/-- Rho and pi: the walk starts at lane (1, 0) and meets the 24 lanes other than (0, 0). -/
def laneMove (a : Sponge) : Sponge :=
  let w := laneWalk a 24 0 1 0
  spongeOf (fun x y => (w.lookup (5 * y + x)).getD 0)

/-- Chi. -/
def rowMix (a : Sponge) : Sponge :=
  spongeOf (fun x y => laneAt a x y ^^^ (~~~(laneAt a (x + 1) y) &&& laneAt a (x + 2) y))

/-- One step of the shift register that the round constants come from. -/
def registerStep (r : Nat) : Nat := if 128 ≤ r then (2 * r) ^^^ 0x171 else 2 * r

/-- The constant of a round from the register's state at its start: output j of the register is bit 2^j − 1. -/
def roundConstant : Nat → Nat → Nat → Nat
  | 0, _, _ => 0
  | n + 1, j, r => (r % 2) * 2 ^ (2 ^ j - 1) + roundConstant n (j + 1) (registerStep r)

/-- Rounds that go on from a register state: theta, rho, pi, chi, and iota on lane (0, 0). -/
def spongeRounds : Nat → Nat → Sponge → Sponge
  | 0, _, a => a
  | n + 1, r, a =>
    let b := rowMix (laneMove (sheetMix a))
    spongeRounds n ((List.range 7).foldl (fun x _ => registerStep x) r)
      (b.modify 0 (fun l => l ^^^ BitVec.ofNat 64 (roundConstant 7 0 r)))

/-- The permutation: 24 rounds. -/
def permuteSponge (a : Sponge) : Sponge := spongeRounds 24 1 a

/-- The 64-bit words of a byte string, little-endian. -/
def laneWords : Nat → List Byte → Sponge
  | 0, _ => []
  | n + 1, bs => BitVec.ofNat 64 (leNat (bs.take 8)) :: laneWords n (bs.drop 8)

/-- Take in blocks of `rate` bytes. -/
def absorbBlocks (rate : Nat) : Nat → Sponge → List Byte → Sponge
  | 0, a, _ => a
  | k + 1, a, m =>
    absorbBlocks rate k (permuteSponge (List.zipWith (fun l w => l ^^^ w) a (laneWords 25 (m.take rate)))) (m.drop rate)

/-- Give out blocks of `rate` bytes. -/
def squeezeBlocks (rate : Nat) : Nat → Sponge → List Byte
  | 0, _ => []
  | k + 1, a => (a.flatMap (fun l => leBytes 8 l.toNat)).take rate ++ squeezeBlocks rate k (permuteSponge a)

/-- The message with its suffix bits (`tail`) and the padding 10…01, a whole number of blocks. -/
def padMessage (rate tail : Nat) (m : List Byte) : List Byte :=
  let gap := rate - m.length % rate
  m ++ leBytes gap (tail + 0x80 * 2 ^ (8 * (gap - 1)))

/-- `n` output bytes of the sponge with a rate and a suffix. -/
def spongeHash (rate tail n : Nat) (m : List Byte) : List Byte :=
  let p := padMessage rate tail m
  (squeezeBlocks rate ((n + rate - 1) / rate) (absorbBlocks rate (p.length / rate) (List.replicate 25 0) p)).take n

/-- SHA3-384: 48 bytes. -/
def sha3384 (m : List Byte) : List Byte := spongeHash 104 0x06 48 m

/-- SHA3-384 as the number its little-endian bytes spell, the order of every multi-byte field. -/
def sha3384Bits (m : List Byte) : BitVec 384 := BitVec.ofNat 384 (leNat (sha3384 m))

/-- `n` bytes of SHAKE128. -/
def shake128 (n : Nat) (m : List Byte) : List Byte := spongeHash 168 0x1F n m

/-- `n` bytes of SHAKE256. -/
def shake256 (n : Nat) (m : List Byte) : List Byte := spongeHash 136 0x1F n m

end Sys2Proof.Machine
end

