-- ==== Sys2Proof/Machine/Server.lean ====
section
/-!
DEFINITION. The dictionary server: what an applied write does, the order of accesses, replies on both paths, and the
commands that are writes of one object (R326 to R328, R339, R341, and the rule of each object).
-/

namespace Sys2Proof.Machine

open Sys2Proof

/-! ## Alerts (R388) -/

/-- The effective die readings. -/
def State.dieReadings (s : State) : List Int :=
  (List.range (8 * s.part.variant.dies)).map (fun i => s.objInt (Obj.dieTemperature + i) 16)

/-- R388: drive or release ALERT_N; each assertion raises one event in G10. -/
def State.refreshAlert (s : State) : State :=
  let th := s.objInt Obj.alertThreshold 16
  if s.rst.rawTemps.isEmpty then s
  else if s.dieReadings.any (fun t => decide (th ≤ t)) then
    (if s.rst.alert then s else { s with rst := { s.rst with alert := true } }.event 0x142 0 .ok 0)
  else if s.dieReadings.all (fun t => decide (t + 80 ≤ th)) then { s with rst := { s.rst with alert := false } }
  else s

/-! ## The destination table (R239, R242) -/

/-- Bytes of a table image. -/
def tableImageBytes : Nat := 0x14010

/-- The image as one string of bytes. -/
def State.tableBytes (s : State) (a : Nat) : List Byte := (List.range tableImageBytes).map (fun i => s.hbmByte true (a + i))

/-- The entries of an image. -/
def imageEntries : Nat → List Byte → List Nat
  | 0, _ => []
  | n + 1, bs => leNat (bs.take 16) :: imageEntries n (bs.drop 16)

/-- The check of an image (R242). -/
def imageOk (bs : List Byte) (entries : List Nat) : Bool :=
  let tail := bs.drop 0x14000
  decide (leNat (tail.take 4) = 0x52544544) && decide (leNat ((tail.drop 4).take 2) = 1) &&
    decide (leNat ((tail.drop 6).take 6) = 0) && decide ((crc32c (bs.take 0x1400C)).toNat = leNat (tail.drop 12)) &&
    entries.zipIdx.all (fun q => tableEntryOk q.2 q.1)

/-- The table of some entries. -/
def tableOf (entries : List Nat) : Tab (BitVec 128) :=
  (entries.zipIdx.filter (fun q => decide (q.1 ≠ 0))).map (fun q => (q.2, BitVec.ofNat 128 q.1))

/-- The outcome of a load: an image beyond the address range is UNMAPPED, one that reaches a reserved area FORBIDDEN, and
one whose bytes cannot be read ECC_LOST or ISOLATED; a good one whose read was corrected is ECC_RECOVERED (R252, R257,
R375, log 54). -/
def State.checkTable (s : State) (a : Nat) : Status × Tab (BitVec 128) :=
  if !(hbmInRange s.part.variant a tableImageBytes) then (.unmapped, [])
  else if meetsReserved s.part.variant a tableImageBytes then (.forbidden, [])
  else if noData (s.hbmTouch true a tableImageBytes).2 then ((s.hbmTouch true a tableImageBytes).2, [])
  else
    let bs := s.tableBytes a
    let entries := imageEntries 5120 bs
    if imageOk bs entries then ((s.hbmTouch true a tableImageBytes).2, tableOf entries) else (.malformed, [])

/-- The image at an address is read and checked for a load (R242). -/
def State.loadTableAt (s : State) (a : Nat) : State :=
  let r := s.checkTable a
  let t := if r.1 = .unmapped ∨ r.1 = .forbidden then s else (s.hbmTouch true a tableImageBytes).1
  { t.setObj Obj.tableStatus (statusCode .notReady) with route := { t.route with loading := some r, loadAddr := a } }

/-- TABLE_COMMAND 0x01: the load of the image at TABLE_ADDR runs (R242). -/
def State.loadTable (s : State) : State := s.loadTableAt (s.obj Obj.tableAddr)

/-- TABLE_COMMAND 0x02: the staged table is cleared. -/
def State.clearTable (s : State) : State :=
  { s.setObj Obj.tableStatus 0 with route := { s.route with staged := [] } }

/-- TABLE_STATUS after an entry write: NOT_READY stays while a load runs (R243). -/
def State.entryStatus (s : State) (st : Status) : State :=
  if s.route.loading.isSome then s else s.setObj Obj.tableStatus (statusCode st)

/-- Write one half of the selected staged entry. -/
def State.writeEntry (s : State) (high : Bool) (v : Nat) : State :=
  let e := s.entryAfter high v
  { s.entryStatus .ok with
    route := { s.route with staged := Tab.store s.route.staged 0 (s.obj Obj.tableEntrySelect) (BitVec.ofNat 128 e) } }

/-! ## The scale window (R212) -/

/-- Put a value at a place of a history; places between the values held and it read +0 (log 55). -/
def setHistory (h : List F32) (i : Nat) (x : F32) : List F32 :=
  (h ++ List.replicate (i + 1 - h.length) 0).set i x

/-- Make a history hold n values: the newest of them, then +0. -/
def sizeHistory (h : List F32) (n : Nat) : List F32 := (h ++ List.replicate n 0).take n

/-- A write through 0x2341. -/
def State.writeScale (s : State) (sub v : Nat) : State :=
  let id := s.obj Obj.scaleEntrySelect
  let h := Tab.read s.steps.history [] id
  if sub = 1 then s.setObj Obj.scaleEntrySelect v
  else if sub = 3 then { s with steps := { s.steps with
    format := Tab.store s.steps.format 0 id v, shown := Tab.store s.steps.shown 0 id v } }
  else if sub = 4 then { s with steps := { s.steps with history := Tab.store s.steps.history [] id (sizeHistory h v) } }
  else { s with steps := { s.steps with
    history := Tab.store s.steps.history [] id (setHistory h (sub - 0x10) (BitVec.ofNat 32 v)) } }

/-! ## What an applied write does -/

/-- TAKE_CONTROL: RUN in Standby or on the way to it starts the exit (R384, R385). -/
def State.writeTakeControl (s : State) (v : Nat) : State :=
  let a := s.setObj Obj.takeControl v
  if v = 1 ∧ (s.obj Obj.deviceState = 1 ∨ s.obj Obj.deviceState = 2) then a.setObj Obj.deviceState 3 else a

/-- POWER_REQUEST (R383, R384). A request to leave while the entry runs turns it into the exit (log 56). -/
def State.writePower (s : State) (v : Nat) : State :=
  let d := s.obj Obj.deviceState
  if v = 1 then (if d = 0 then s.setObj Obj.deviceState 1 else s)
  else if d = 1 ∨ d = 2 then s.setObj Obj.deviceState 3 else s

/-- DUPLEX_SIZE takes force at once, and DUPLEX_DEGRADED follows it (R255). -/
def State.writeDuplex (s : State) (v : Nat) : State :=
  (s.setObj Obj.duplexSize v).setObj Obj.duplexDegraded (if s.obj Obj.stacksLost ≠ 0 ∧ v ≠ 0 then 1 else 0)

/-- R341 to R343, step 2 and 3 of the erase of R342 apart: both regions are erased and the defaults written to J0. -/
def State.eraseJournal (s : State) : State :=
  let a := { s with journal := { ((s.journal.eraseRegion 0).eraseRegion 1) with fwRecords := [], compacting := false } }
  let b := objKKeys.foldl (fun (t : State) k => t.setObj k (objDefault k)) a
  b.writeSnapshot 0 1

/-- The neutral user value of a calibrated quantity (R345). -/
def calNeutral (n : Nat) : Nat := if n = 5 then 0x8000 else if n = 6 then 0xFF else 0

/-- Every user instance with its neutral value. -/
def neutralValues : List (Nat × Nat) :=
  [1, 2, 3, 4, 5, 6].flatMap (fun n => (List.range (calInstances n)).map (fun i => (calUserKey n (i + 1), calNeutral n)))

/-- A user calibration value: the trim takes force at once; the others at the instants R345 names. -/
def State.writeCal (s : State) (n sub v : Nat) : State :=
  let a := s.setObj (calUserKey n sub) v
  if n = 1 then a.applyCal 1 sub else a

/-- A coalescing threshold takes effect at once and the group is tested again (R359). -/
def State.writeThreshold (s : State) (sub v : Nat) : State :=
  (s.setObj (objKey 0x2800 sub) v).testRelease (if sub ≤ 0x10 then sub - 1 else sub - 0x11)

/-- JOURNAL_COMMAND 0x01 starts a compaction; 0xE5 is applied with the K defaults it brings (R342). -/
def State.commandCompaction (s : State) : State :=
  (s.setObj Obj.commandStatus (statusCode .notReady)).startCompaction

/-- The reset command is answered, and no later access is applied (R369). -/
def State.haltServer (s : State) : State :=
  { s with server := { s.server with halted := true, haltedTb := s.time.tb } }


/-- Store a value and do what the rule of its object says happens at once. -/
def State.applyValue (s : State) (index sub v : Nat) : State :=
  let a := s.setObj (objKey index sub) v
  if index = 0x2002 then (if s.takeOpen then a else a.setObj Obj.modeInForce v)
  else if index = 0x2003 then (if v = 1 then s.commandCompaction else s)
  else if index = 0x2100 ∧ sub = 1 then (if s.takeOpen then a else a.setObj Obj.sourceInForce v)
  else if index = 0x2200 ∧ sub = 1 then s.writeTakeControl v
  else if index = 0x2341 then s.writeScale sub v
  else if index = 0x2500 ∧ sub = 2 then (if v = 1 then s.loadTable else s.clearTable)
  else if index = 0x2500 ∧ (sub = 6 ∨ sub = 7) then s.writeEntry (sub == 7) v
  else if index = 0x2700 ∧ sub = 2 then s.writePower v
  else if index = 0x2700 ∧ sub = 3 then (if s.obj Obj.deviceState = 0 then a.restReserve else a)
  else if index = 0x2700 ∧ sub = 4 then a.refreshAlert
  else if index = 0x2800 then s.writeThreshold sub v
  else if index = 0x2801 then s.setObj (objKey index sub) (clearBits (s.obj (objKey index sub)) v)
  else if index = 0x2A00 then s.startCommit
  else if index = 0x2A20 then s.writeDuplex v
  else if 0x2C01 ≤ index ∧ index ≤ 0x2C06 then s.writeCal (index - 0x2C00) sub v
  else if index = 0x2F00 ∧ sub = 1 then s.haltServer
  else if index = 0x2F00 ∧ sub = 3 then { s with rst := { s.rst with causeHistory := clearBits s.rst.causeHistory v } }
  else a

/-- A key whose accepted write retrains every port (R299). -/
def identityKey (k : Nat) : Bool := k == Obj.ownRack || k == Obj.ownPackage || k / 256 == 0x2601

/-- Apply the values of a write as one unit. -/
def State.applyValues (s : State) (vs : List (Nat × Nat)) : State :=
  let a := vs.foldl (fun (t : State) x => t.applyValue (x.1 / 256) (x.1 % 256) x.2) s
  if vs.any (fun x => identityKey x.1) then a.retrainPorts else a

/-- JOURNAL_COMMAND 0xE5 (R342): every K object takes its default with the effect of a write of it. -/
def State.eraseCommand (s : State) : State :=
  (s.eraseJournal.applyValues (objKKeys.map (fun k => (k, objDefault k)))).setObj Obj.commandStatus 0

/-! ## One access -/

/-- The answer to an access. -/
structure Reply where
  status : Status
  abort : Nat
  data : List Byte
  deriving DecidableEq, Repr

/-- An access that was carried out. -/
def Reply.good (data : List Byte) : Reply := { status := .ok, abort := 0, data := data }

/-- A refused access. -/
def Refused.reply (r : Refused) : Reply := { status := r.status, abort := r.abort, data := [] }

/-- UNIT of a path (R416). -/
def pathUnit : Path → Nat
  | .coe => unitOf 0xA 0
  | .pcie => unitOf 0xA 1

/-- A refusal makes one event-log entry (R326, R419); an entry write that fails its check is logged as R242's. -/
def State.refuse (s : State) (path : Path) (a : Access) (r : Refused) : State × Reply :=
  let t := if a.write && !a.complete && s.entryBad a.index a.sub (leNat a.data) && r.status == .malformed then
      (s.entryStatus .malformed).log 0x241 0 .malformed 0
    else s.log 0x220 (pathUnit path) r.status (objKey a.index a.sub)
  (t, r.reply)

/-- The class of a key. -/
def keyClass (k : Nat) : ObjClass :=
  match objRow (k / 256) (k % 256) with
  | some r => r.cls
  | none => .v

/-- The K values of a write. -/
def kValues (vs : List (Nat × Nat)) : List (Nat × Nat) := vs.filter (fun x => decide (keyClass x.1 = .k))

/-- Every K value of a write is in force already (R341). -/
def State.unchanged (s : State) (vs : List (Nat × Nat)) : Bool := (kValues vs).all (fun x => s.obj x.1 == x.2)

/-- The values that a checked write applies, without their reserved bits: CLEAR_USER stands for its group (R345). -/
def writtenValues (index : Nat) (vs : List (Nat × Nat)) : List (Nat × Nat) :=
  if index = 0x2C00 then neutralValues else vs.map (fun x => (objKey index x.1, keptBits (objKey index x.1) x.2))

/-- A journal erase by JOURNAL_COMMAND. -/
def isErase (a : Access) : Bool := a.index == 0x2003 && a.sub == 8 && leNat a.data == 0xE5

/-- Carry out a checked write: a V write at once; a K write once its record is durable (R328), which is no answer yet. -/
def State.carryOut (s : State) (path : Path) (a : Access) (ws : List (Nat × Nat)) : State × Option Reply :=
  if isErase a then (s.eraseCommand, some (Reply.good []))
  else if s.unchanged ws then (s.applyValues ws, some (Reply.good []))
  else if s.journalFull (kValues ws).length then
    let x := s.refuse path a badState
    (x.1, some x.2)
  else ({ s with server := { s.server with kWrite := some ws } }, none)

/-- A read of 0x2000:01 to 08: of one of them, or of all from 01 on by a complete access (R327). -/
def readsIdentity (a : Access) : Bool :=
  !a.write && !a.describe && a.index == 0x2000 && (if a.complete then a.sub == 1 else decide (1 ≤ a.sub ∧ a.sub ≤ 8))

/-- Settle a read or a description. -/
def State.settleRead (s : State) (path : Path) (a : Access) (x : Except Refused (List Byte)) : State × Option Reply :=
  match x with
  | .ok data => (s.useFree, some (Reply.good data))
  | .error r =>
    let y := s.refuse path a r
    (y.1, some y.2)

/-- Serve one access. Under the recovery service only reads of 0x2000:01 to 08 are answered (R399). -/
def State.serveAccess (s : State) (path : Path) (a : Access) : State × Option Reply :=
  if s.rst.recovery && !(readsIdentity a) then
    let x := s.refuse path a badState
    (x.1, some x.2)
  else if a.write && a.describe then
    let x := s.refuse path a badLength
    (x.1, some x.2)
  else if a.describe then s.settleRead path a (s.describe a.index a.sub)
  else if !a.write then s.settleRead path a (s.readAccess a)
  else match s.checkWrite a with
    | .error r =>
      let x := s.refuse path a r
      (x.1, some x.2)
    | .ok vs => s.carryOut path a (writtenValues a.index vs)

/-! ## Replies -/

/-- The reply to a CoE access. -/
def coeReply (a : Access) (r : Reply) : Out :=
  if r.status ≠ .ok then .sdoAbort r.abort else if a.write then .sdoOk else .sdoData r.data

/-- Pad to a multiple of eight bytes. -/
def pad8 (bs : List Byte) : List Byte := bs ++ List.replicate ((8 - bs.length % 8) % 8) 0

/-- One entry of a mailbox response (R338); LENGTH counts the data that follows (log 57). -/
def responseEntry (x : Access × Status × List Byte) : List Byte :=
  leBytes 1 (statusCode x.2.1) ++ leBytes 1 x.1.sub ++ leBytes 2 x.1.index ++ leBytes 4 x.2.2.length ++ pad8 x.2.2

/-- The bytes of the response buffer. -/
def responseSpace : Nat := 0x80000

/-- The response to a request, cut at the end of the buffer (log 57). -/
def responseBytes (answers : List (Access × Status × List Byte)) : List Byte :=
  (leBytes 8 answers.length ++ answers.flatMap responseEntry).take responseSpace

/-- R339: completion of a mailbox request. -/
def State.completeRequest (s : State) (tag : Nat) (st : Status) (response : Tab Byte) : State :=
  { s with mailbox := { s.mailbox with
      response := response, doneTag := tag, busy := false, status := statusCode st } }.event 0x02C (unitOf 0xA 1) .ok 0

/-- Finish the job at the front. -/
def State.finishJob (s : State) (j : Job) (rest : List Job) : State :=
  let t := { s with server := { s.server with jobs := rest } }
  match j.path with
  | .coe => t
  | .pcie => t.completeRequest j.tag .ok (Tab.storeList t.mailbox.response 0 0 (responseBytes j.answers))

/-- The access at the front of the front job has been answered. A CoE reply is sent at that moment (R328). After the
reset command no later access is applied (R369). -/
def State.answerFront (s : State) (j : Job) (a : Access) (as : List Access) (rest : List Job) (r : Reply) : State :=
  let t := match j.path with
    | .coe => s.emit (coeReply a r)
    | .pcie => s
  { t with server := { t.server with
      jobs := { j with todo := if t.server.halted then [] else as, answers := j.answers ++ [(a, r.status, r.data)] } :: rest } }

/-- One turn of the server. -/
def State.serveOne (s : State) : State :=
  if s.server.kWrite.isSome then s
  else match s.server.jobs with
    | [] => s
    | j :: rest =>
      match j.todo with
      | [] => s.finishJob j rest
      | a :: as =>
        if s.server.halted then s
        else
          let x := s.serveAccess j.path a
          match x.2 with
          | some r => x.1.answerFront j a as rest r
          | none => x.1

/-- Turns until nothing is left or a K write waits. -/
def State.serveTurns : Nat → State → State
  | 0, s => s
  | n + 1, s => State.serveTurns n s.serveOne

/-- Serve every access that can be served now, one at a time in arrival order (R328). -/
def State.serve (s : State) : State :=
  State.serveTurns (listSum (s.server.jobs.map (fun j => j.todo.length + 1))) s

/-- A job arrives. -/
def State.enqueueJob (s : State) (j : Job) : State :=
  if s.server.halted then s else { s with server := { s.server with jobs := s.server.jobs ++ [j] } }.serve

/-! ## The two paths -/

/-- The CoE mailbox works: PREOP, SAFEOP or OP. -/
def State.coeOpen (s : State) : Bool := s.ecat.released && (s.ecat.al == 2 || s.ecat.al == 4 || s.ecat.al == 8)


/-- The BARs answer: the link is up, the part ready, memory space enabled, and the function in D0 (R304, R306, R322). -/
def State.barOpen (s : State) : Bool := s.linkAlive && s.rst.ready && s.host.memSpace && !s.host.d3hot

/-- The bit of the AER severity register for a kind of report (log 159). -/
def aerBit (kind : Nat) : Nat :=
  if kind = 1 then 18 else if kind = 2 then 20 else if kind = 3 then 12 else if kind = 4 then 16
  else if kind = 5 then 14 else 15

/-- An AER report with the severity that the host has set (R322). -/
def State.reportAer (s : State) (kind : Nat) : State := s.emit (.aer kind (bitAt s.host.aerSeverity (aerBit kind)))

/-- A TLP violation: an AER report and one log entry (R322, R419). Without a link no TLP reaches the part. -/
def State.tlpViolation (s : State) (kind : Nat) : State :=
  if s.linkAlive then (s.reportAer kind).log 0x210 (unitOf 0x8 0) .ok kind else s

/-- A memory write that no BAR takes is discarded (R322). -/
def State.unsupportedWrite (s : State) : State := s.tlpViolation 2

/-- A block or doorbell write ignored while busy or enabled (R419). -/
def State.busyIgnored (s : State) : State := s.log 0x214 (unitOf 0x8 0) .ok 0

/-- An access by SDO. -/
def State.coeAccess (s : State) (a : Access) : State :=
  if !s.coeOpen then s
  else (s.wakeBlock .ecatController).enqueueJob { path := .coe, tag := 0, todo := [a], answers := [] }

/-- A mailbox request of one entry, under the tag of the last request (log 59). -/
def State.pcieAccess (s : State) (a : Access) : State :=
  if !s.barOpen then s.unsupportedWrite
  else if s.mailbox.busy then s.busyIgnored
  else { s.wakeBlock .hostPort with mailbox := { s.mailbox with busy := true } }.enqueueJob
    { path := .pcie, tag := s.mailbox.doneTag, todo := [a], answers := [] }

/-- An access over a path. -/
def State.access (s : State) (path : Path) (a : Access) : State :=
  match path with
  | .coe => s.coeAccess a
  | .pcie => s.pcieAccess a

/-- The data of a value for an object: in its length, longer where the value does not fit. -/
def valueData (index sub v : Nat) : List Byte :=
  match objRow index sub with
  | some r => if v < 256 ^ r.type.bytes then leBytes r.type.bytes v else leBytes (r.type.bytes + 1) v
  | none => leBytes 4 v

/-- A single-subindex write. -/
def writeAccess (index sub v : Nat) : Access :=
  { write := true, describe := false, complete := false, index := index, sub := sub, data := valueData index sub v }

/-- Write one object over a path. -/
def State.writeObject (s : State) (path : Path) (index sub v : Nat) : State := s.access path (writeAccess index sub v)

/-! ## Commands that write one object -/

/-- TAKE_CONTROL_WRITE (R45, R384). -/
def execTakeControlWrite (path : Path) (value : Nat) (s : State) : Host.Outcome State Fault Refusal :=
  .next (s.writeObject path 0x2200 0x01 value)

/-- COMBINATION_MODE_WRITE (R3, R6). -/
def execCombinationModeWrite (path : Path) (value : Nat) (s : State) : Host.Outcome State Fault Refusal :=
  .next (s.writeObject path 0x2002 0x01 value)

/-- POSITION_SOURCE_WRITE (R29). -/
def execPositionSourceWrite (path : Path) (value : Nat) (s : State) : Host.Outcome State Fault Refusal :=
  .next (s.writeObject path 0x2100 0x01 value)

/-- TABLE_LOAD (R242). -/
def execTableLoad (path : Path) (s : State) : Host.Outcome State Fault Refusal :=
  .next (s.writeObject path 0x2500 0x02 1)

/-- TABLE_CLEAR (R242). -/
def execTableClear (path : Path) (s : State) : Host.Outcome State Fault Refusal :=
  .next (s.writeObject path 0x2500 0x02 2)

/-- TABLE_ENTRY_WRITE (R242). -/
def execTableEntryWrite (path : Path) (high : Bool) (value : Nat) (s : State) : Host.Outcome State Fault Refusal :=
  .next (s.writeObject path 0x2500 (if high then 0x07 else 0x06) value)

/-- FABRIC_IDENTITY_WRITE (R299). -/
def execFabricIdentityWrite (path : Path) (index sub value : Nat) (s : State) : Host.Outcome State Fault Refusal :=
  .next (s.writeObject path index sub value)

/-- DUPLEX_SIZE_WRITE (R255). -/
def execDuplexSizeWrite (path : Path) (value : Nat) (s : State) : Host.Outcome State Fault Refusal :=
  .next (s.writeObject path 0x2A20 0x02 value)

/-- RESET_COMMAND (R369). -/
def execResetCommand (path : Path) (value : Nat) (s : State) : Host.Outcome State Fault Refusal :=
  .next (s.writeObject path 0x2F00 0x01 value)

/-- CAUSE_HISTORY_CLEAR (R368). -/
def execCauseHistoryClear (path : Path) (value : Nat) (s : State) : Host.Outcome State Fault Refusal :=
  .next (s.writeObject path 0x2F00 0x03 value)

/-- HOST_EVENTS_CLEAR (R358). -/
def execHostEventsClear (path : Path) (group bits : Nat) (s : State) : Host.Outcome State Fault Refusal :=
  .next (s.writeObject path 0x2801 (group + 1) bits)

/-- ARB_COMMIT (R274). -/
def execArbCommit (path : Path) (value : Nat) (s : State) : Host.Outcome State Fault Refusal :=
  .next (s.writeObject path 0x2A00 0x01 value)

/-- ENTER_STANDBY (R383). -/
def execEnterStandby (path : Path) (s : State) : Host.Outcome State Fault Refusal :=
  .next (s.writeObject path 0x2700 0x02 1)

/-- LEAVE_STANDBY (R384). -/
def execLeaveStandby (path : Path) (s : State) : Host.Outcome State Fault Refusal :=
  .next (s.writeObject path 0x2700 0x02 2)

/-- COMPACT_NOW (R342). -/
def execCompactNow (path : Path) (s : State) : Host.Outcome State Fault Refusal :=
  .next (s.writeObject path 0x2003 0x08 1)

/-- JOURNAL_ERASE (R342). -/
def execJournalErase (path : Path) (s : State) : Host.Outcome State Fault Refusal :=
  .next (s.writeObject path 0x2003 0x08 0xE5)

/-- CLEAR_USER (R345). -/
def execClearUser (path : Path) (value : Nat) (s : State) : Host.Outcome State Fault Refusal :=
  .next (s.writeObject path 0x2C00 0x01 value)

/-! ## The table's load -/

/-- A load ends: its status, and its table where the image passed. -/
def State.endLoad (s : State) (st : Status) (table : Tab (BitVec 128)) : State :=
  let a := { s.setObj Obj.tableStatus (statusCode st) with route := { s.route with loading := none, restart := false } }
  if readGave st then { a with route := { a.route with staged := table } } else a.log 0x241 0 st 0

/-- TABLE_LOAD_COMPLETE (R242): a load that a migration restarted reads its image again, where it began (R350). -/
def execTableLoadComplete (s : State) : Host.Outcome State Fault Refusal :=
  let a := if s.route.restart ∧ s.route.loading.isSome then s.loadTableAt s.route.loadAddr else s
  .next (match a.route.loading with
    | none => a
    | some (st, table) => a.endLoad st table)

/-! ## The journal's commands -/

/-- A K write that waits gets its answer, and the server goes on. -/
def State.answerKWrite (s : State) (r : Reply) : State :=
  let t := { s with server := { s.server with kWrite := none } }
  match t.server.jobs with
  | j :: rest =>
    match j.todo with
    | a :: as => (t.answerFront j a as rest r).serve
    | [] => t
  | [] => t

/-- Refuse the K write that waits. -/
def State.refuseKWrite (s : State) (r : Refused) : State :=
  match s.server.jobs with
  | j :: _ =>
    match j.todo with
    | a :: _ => (s.refuse j.path a r).1.answerKWrite r.reply
    | [] => s
  | [] => s

/-- R341: three attempts have failed. -/
def State.failRecord (s : State) : State :=
  let a := s.event 0x1A1 (unitOf 0xB s.activeRegion) .journalFault 0
  let b := { a with journal := { a.journal with worn := true } }.startCompaction
  b.refuseKWrite journalFault

/-- R341: program the records of the K write that waits. -/
def State.recordWrite (s : State) (ws : List (Nat × Nat)) (bad : List (BitVec 256)) : State :=
  let x := State.programAll (groupOf (kValues ws)) bad s
  if x.2 then ((x.1.applyValues ws).compactIfFull).answerKWrite (Reply.good []) else x.1.failRecord

/-- A write that the migration of the dictionary server threw back is served again from its checks (R350). -/
def State.serveAgain (s : State) : State := if s.server.kWrite.isNone then s.serve else s

/-- JOURNAL_RECORD_DURABLE (R328, R341): `bad` gives the read-backs of the attempts that do not match, in order. -/
def execJournalRecordDurable (dt : Nat) (bad : List (BitVec 256)) (s : State) : Host.Outcome State Fault Refusal :=
  let a := (s.advance dt).serveAgain
  .next (match a.server.kWrite with
    | none => a
    | some ws =>
      if a.journalBusy then a
      else if a.journalFull (kValues ws).length then a.refuseKWrite badState
      else a.recordWrite ws bad)

/-- The status of the JOURNAL_COMMAND that started a compaction. -/
def State.commandDone (s : State) (st : Status) : State :=
  if s.obj Obj.commandStatus = statusCode .notReady then s.setObj Obj.commandStatus (statusCode st) else s

/-- Steps 2 to 5 of R342. -/
def State.compactNow (s : State) : State :=
  let old := s.activeRegion
  let valid := s.regionValid
  let a := { s.writeSnapshot s.targetRegion (if valid then s.obj Obj.generation + 1 else 1) with
    journal := { (s.writeSnapshot s.targetRegion (if valid then s.obj Obj.generation + 1 else 1)).journal with compacting := false } }
  (if valid then a.eraseOld old else a).commandDone .ok

/-- A compaction fails: the region it wrote is unusable (R341, R418). -/
def State.compactionFails (s : State) : State :=
  let t := s.targetRegion
  let a := { s with journal := { s.journal.spoil t with compacting := !s.regionValid } }
  let b := if s.regionValid then a.setObj Obj.journalState 3 else a
  (b.event 0x1A2 (unitOf 0xB t) .journalFault 0).commandDone .journalFault

/-- COMPACTION (R342): it runs once the other region is fully erased. -/
def execCompaction (dt : Nat) (ok : Bool) (s : State) : Host.Outcome State Fault Refusal :=
  let a := s.advance dt
  .next (if !a.journal.compacting || !(a.journal.erased a.targetRegion) then a
    else if ok then a.compactNow else a.compactionFails)

/-- The erase of a region that is not active and not erased completes. -/
def State.finishErase (s : State) (i : Nat) : State :=
  if (s.regionValid && i == s.activeRegion) || s.journal.erased i then s
  else { s with journal := s.journal.eraseRegion i }

/-- REGION_ERASE_DONE (R342). -/
def execRegionEraseDone (dt : Nat) (s : State) : Host.Outcome State Fault Refusal :=
  let a := s.advance dt
  .next (if a.rst.restored then (a.finishErase 0).finishErase 1 else a)

/-! ## CoE services (R331) -/

/-- SDO_UPLOAD (R326, R327). -/
def execSdoUpload (complete : Bool) (index sub : Nat) (s : State) : Host.Outcome State Fault Refusal :=
  .next (s.coeAccess { write := false, describe := false, complete := complete, index := index, sub := sub, data := [] })

/-- Refuse a CoE service outside an access. -/
def State.refuseCoe (s : State) (r : Refused) (detail : Nat) : State :=
  (s.log 0x220 (pathUnit .coe) r.status detail).emit (.sdoAbort r.abort)

/-- SDO_DOWNLOAD_SEGMENT (R328): a segment is buffered; the last one applies the write. With no download open the
segment is refused (log 60). -/
def execSdoDownloadSegment (data : List Byte) (last : Bool) (s : State) : Host.Outcome State Fault Refusal :=
  let s := s.wakeBlock .ecatController
  .next (if !s.coeOpen || s.server.halted then s
    else match s.ecat.segment with
      | none => s.refuseCoe badState 0
      | some a =>
        let b : Access := { a with data := a.data ++ data }
        if last then { s with ecat := { s.ecat with segment := none } }.coeAccess b
        else { s with ecat := { s.ecat with segment := some b } }.emit .sdoContinue)

/-- The mapped indices, ascending. -/
def objectList : List Nat :=
  (objRows.flatMap (fun r => (List.range (r.idxHi + 1 - r.idxLo)).map (fun i => r.idxLo + i))).eraseDups

/-- The object code of an index: a variable, an array of one type, or a record (log 52). -/
def objectCode (index : Nat) : Nat :=
  match (coveredRows index 1).map (fun r => r.2.type) with
  | [] => 7
  | t :: ts => if ts.all (fun u => u == t) then 8 else 9

/-- The data type of an object description: that of its values; that of a record is not stated (log 52). -/
def objectType (index : Nat) : Nat :=
  match (coveredRows index (if objectCode index = 7 then 0 else 1)).head? with
  | some r => if objectCode index = 9 then 0 else typeCode r.2.type
  | none => 0

/-- The name of an object: that of its first subindex with a value. -/
def objectName (index : Nat) : String :=
  match (coveredRows index (if objectCode index = 7 then 0 else 1)).head? with
  | some r => r.2.name
  | none => ""

/-- The fields of an object description: index, data type, highest subindex, object code, then the name's characters
(R331, log 52). -/
def objectFields (index : Nat) : List Nat :=
  [index, objectType index, highestSub index, objectCode index] ++ (nameBytes (objectName index)).map BitVec.toNat

/-- SDO_INFORMATION (R331). -/
def execSdoInformation (req : SdoInfo) (s : State) : Host.Outcome State Fault Refusal :=
  let s := s.wakeBlock .ecatController
  .next (if !s.coeOpen || s.server.halted then s
    else match req with
      | .objectList => s.emit (.sdoObjectList objectList)
      | .object index =>
        if objIndexMapped index then s.emit (.sdoDescription (objectFields index)) else s.refuseCoe noIndex (objKey index 0)
      | .entry index sub =>
        match objRow index sub with
        | some r => s.emit (.sdoDescription (s.entryFields r index sub))
        | none => s.refuseCoe (if objIndexMapped index then noSub else noIndex) (objKey index sub))

/-- SDO_BLOCK_TRANSFER (R331). DETAIL is the mailbox type of CoE (log 61). -/
def execSdoBlockTransfer (s : State) : Host.Outcome State Fault Refusal :=
  let s := s.wakeBlock .ecatController
  .next (if !s.coeOpen || s.server.halted then s
    else (s.log 0x222 (unitOf 0x9 0) .ok 3).emit (.sdoAbort 0x05040001))

/-- The EtherCAT mailbox type of a protocol (log 61). -/
def mailboxType : MailboxKind → Nat
  | .aoe => 1
  | .eoe => 2
  | .soe => 5
  | .voe => 15

/-- UNSUPPORTED_MAILBOX (R331). -/
def execUnsupportedMailbox (kind : MailboxKind) (s : State) : Host.Outcome State Fault Refusal :=
  let s := s.wakeBlock .ecatController
  .next (if !s.ecat.released || s.ecat.al == 1 then s
    else (s.log 0x222 (unitOf 0x9 0) .ok (mailboxType kind)).emit .mailboxUnsupported)

end Sys2Proof.Machine
end

