-- ==== Sys2Proof/Machine/Load.lean ====
section
/-!
DEFINITION. The loader: the checks of a reel image in HBM, in the order of R59, and the staging of one that passes (R58 to
R60, R404, R443).
-/

namespace Sys2Proof.Machine

open Sys2Proof

/-! ## The image -/

/-- The number that `n` bytes of an image spell, little-endian. -/
def imNat (im : Array Byte) (off n : Nat) : Nat := leNat ((List.range n).map (fun i => im.getD (off + i) 0))

/-- The header of R58 as one number. -/
def imHeader (im : Array Byte) : Nat := imNat im 0 64

/-- Fields of the header (R58). -/
def hdrLength (h : Nat) : Nat := bitsOf h 127 64
def hdrBudget (h : Nat) : Nat := bitsOf h 159 144
def hdrPhaseCount (h : Nat) : Nat := bitsOf h 183 176
def hdrCueCount (h : Nat) : Nat := bitsOf h 207 192
def hdrDescCount (h : Nat) : Nat := bitsOf h 223 208
def hdrPhaseTable (h : Nat) : Nat := bitsOf h 255 224
def hdrStreamTable (h : Nat) : Nat := bitsOf h 287 256
def hdrCueTable (h : Nat) : Nat := bitsOf h 319 288
def hdrReservationTable (h : Nat) : Nat := bitsOf h 351 320
def hdrDescTable (h : Nat) : Nat := bitsOf h 383 352

/-- MAGIC, FORMAT and the reserved fields of the header. -/
def hdrOk (h : Nat) : Bool :=
  decide (bitsOf h 31 0 = 0x4C454552) && decide (bitsOf h 47 32 = 1) && zeroAt h 63 49 && zeroAt h 191 184 &&
    zeroAt h 479 448

/-- CRC-32C over the image with its field read as 0. -/
def imCrcOk (im : Array Byte) (h : Nat) : Bool :=
  decide ((crc32c (im.toList.take 60 ++ [0, 0, 0, 0] ++ im.toList.drop 64)).toNat = bitsOf h 511 480)

/-- The 16-byte entries of a table. -/
def imEntries (im : Array Byte) (table count : Nat) : List Nat := (List.range count).map (fun i => imNat im (table + 16 * i) 16)

/-- Phase entries as numbers. -/
def imPhases (im : Array Byte) (h : Nat) : List Nat := imEntries im (hdrPhaseTable h) (hdrPhaseCount h)

/-- Stream entries as numbers. -/
def imStreams (im : Array Byte) (h : Nat) : List Nat :=
  imEntries im (hdrStreamTable h) (hdrBudget h * hdrPhaseCount h)

/-- OFFSET and RECORD_COUNT of a stream entry. -/
def streamPair (e : Nat) : Nat × Nat := (bitsOf e 31 0, bitsOf e 63 32)

/-- A section lies inside the image. -/
def sectionIn (n off len : Nat) : Bool := decide (off + len ≤ n)

/-- The tables whose size the header gives lie inside the image. -/
def tablesIn (n h : Nat) : Bool :=
  sectionIn n (hdrPhaseTable h) (16 * hdrPhaseCount h) &&
    sectionIn n (hdrStreamTable h) (16 * (hdrBudget h * hdrPhaseCount h)) &&
    sectionIn n (hdrCueTable h) (16 * hdrCueCount h) && sectionIn n (hdrDescTable h) (64 * (hdrDescCount h * hdrBudget h))

/-- The streams lie inside the image at multiples of 64 (R443), their reserved fields are 0, and the reservation table
has an entry for each record. -/
def streamsIn (n h : Nat) (es : List Nat) : Bool :=
  es.all (fun e => zeroAt e 127 64 && (bitsOf e 63 32 == 0 ||
    (bitsOf e 31 0 % 64 == 0 && sectionIn n (bitsOf e 31 0) (64 * bitsOf e 63 32)))) &&
    sectionIn n (hdrReservationTable h) (16 * listSum (es.map (fun e => bitsOf e 63 32)))

/-- The row of R59 on MAGIC, FORMAT, CRC, sections and reserved fields. -/
def imFormOk (im : Array Byte) (h : Nat) : Bool :=
  hdrOk h && imCrcOk im h && tablesIn im.size h && streamsIn im.size h (imStreams im h) &&
    (imPhases im h).all (fun e => zeroAt e 15 8 && zeroAt e 127 112)

/-- The phase codes are 0 to 5, each at most once (R443). -/
def phaseCodesOk (ps : List Nat) : Bool :=
  ps.all (fun e => decide (bitsOf e 7 0 ≤ 5)) && decide ((ps.map (fun e => bitsOf e 7 0)).Nodup)

/-- SLACK_CYCLES is at least RESERVED_CYCLES / 96, rounded up. -/
def slackOk (e : Nat) : Bool := decide (ceilDiv (bitsOf e 63 16) 96 ≤ bitsOf e 111 64)

/-! ## The records -/

/-- The records of a stream entry, each with the phase code of the entry. -/
def imRecords (im : Array Byte) (code e : Nat) : List (Nat × Nat) :=
  (List.range (bitsOf e 63 32)).map (fun i => (code, imNat im (bitsOf e 31 0 + 64 * i) 64))

/-- Every record of the image, with the phase code of its stream. -/
def imAllRecords (im : Array Byte) (h : Nat) : List (Nat × Nat) :=
  let codes := (imPhases im h).map (fun e => bitsOf e 7 0)
  (imStreams im h).zipIdx.flatMap (fun q => imRecords im (codes.getD (q.2 % hdrPhaseCount h) 0) q.1)

/-- A VEC whose routine code R76 does not list is judged at its own row. -/
def routineUnlisted (x : Nat) : Bool := recOpcode x == opVec && !(listedRoutines.contains (recRoutine x))

/-- INFER and PUBLISH (R37). -/
def shedFreePhase (code : Nat) : Bool := code == 1 || code == 2

/-- A record of a stream of a phase is valid: R62 to R71, and SHED_CLASS 0 in INFER and PUBLISH. -/
def loadRecordOk (q : Nat × Nat) : Bool :=
  (if routineUnlisted q.2 then headerOk q.2 && decide (bitsOf q.2 243 242 ≤ 1) && zeroAt q.2 511 244 else recordOk q.2) &&
    (!(shedFreePhase q.1 || shedFreePhase (recPhase q.2)) || recShed q.2 == 0)


/-- A logical tile's descriptor of an image; an empty tensor where the index is out of range. -/
def imDesc (im : Array Byte) (h l i : Nat) : Desc :=
  Desc.ofBits (if i < hdrDescCount h then imNat im (hdrDescTable h + (l * hdrDescCount h + i) * 64) 64 else 2 ^ 8)

/-- R220: no record that draws bits, by the descriptors of its tile in the image, names the governor's stream. -/
def imDrawsOk (im : Array Byte) (h : Nat) : Bool :=
  (imStreams im h).zipIdx.all (fun q =>
    (imRecords im 0 q.1).all (fun r => streamOk (imDesc im h (q.2 / hdrPhaseCount h)) r.2))

/-- A remote operation of a record: the package its GADDR names. -/
def recordPackage (x : Nat) : Option Nat :=
  let op := recOpcode x
  if op = opPut ∨ op = opGet ∨ op = opAcc then some (bitsOf x 139 128)
  else if op = opSignal ∧ (bitsOf x 67 64 = 1 ∨ bitsOf x 67 64 = 2) then some (bitsOf x 171 160)
  else none

/-! ## The cues -/

/-- The status of a cue entry in the loader (R41, R59). -/
def cueLoadFault (r : Reel) (c : BitVec 128) : Option Status :=
  if !(cueFieldsOk c) then some .malformed
  else if !(cueInBudget r.tileBudget c) then some .outOfRange
  else if !(r.cueOffsetOk c) then some .malformed
  else none

/-! ## The reel -/

/-- The reservation table, one entry for each record of every stream. -/
def imReservations (im : Array Byte) (h : Nat) : List (BitVec 128) :=
  (imEntries im (hdrReservationTable h) (listSum ((imStreams im h).map (fun e => (streamPair e).2)))).map (BitVec.ofNat 128)

/-- What the loader keeps of an image at an HBM address. -/
def reelOf (im : Array Byte) (base : Nat) : Reel :=
  let h := imHeader im
  { base := base, length := hdrLength h, repro := bitAt h 48, modelId := bitsOf h 143 128, tileBudget := hdrBudget h,
    dx0Share := bitsOf h 175 160,
    phases := (imPhases im h).map (fun e => { code := bitsOf e 7 0, reserved := bitsOf e 63 16, slack := bitsOf e 111 64 }),
    cues := (imEntries im (hdrCueTable h) (hdrCueCount h)).map (BitVec.ofNat 128),
    streams := (imStreams im h).map streamPair, reservations := imReservations im h,
    descriptorCount := hdrDescCount h, descriptorTable := hdrDescTable h, seed := BitVec.ofNat 64 (bitsOf h 447 384),
    crc := BitVec.ofNat 32 (bitsOf h 511 480), measurement := sha3384Bits im.toList }

/-! ## The checks (R59) -/

/-- UNMAPPED, FORBIDDEN, ECC_LOST and ISOLATED of a range of HBM that the loader reads. -/
def State.loadRange (s : State) (a n : Nat) : Option Status :=
  if !(hbmInRange s.part.variant a n) then some .unmapped
  else if meetsReserved s.part.variant a n then some .forbidden
  else if noData (s.hbmTouch true a n).2 then some (s.hbmTouch true a n).2
  else none

/-- The bytes of an image. -/
def State.imageAt (s : State) (a n : Nat) : Array Byte := ((List.range n).map (fun i => s.hbmByte true (a + i))).toArray

/-- IMAGE_LENGTH of the image at an address. -/
def State.imageLength (s : State) (a : Nat) : Nat := leNat ((List.range 8).map (fun i => s.hbmByte true (a + 8 + i)))

/-- The checks on the content of an image, in the order of R59. -/
def State.contentFault (s : State) (im : Array Byte) : Option Status :=
  let h := imHeader im
  let recs := imAllRecords im h
  let r := reelOf im 0
  firstFault [
    need (imFormOk im h) .malformed, need (phaseCodesOk (imPhases im h)) .malformed,
    need (hdrBudget h == 0 || decide (hdrBudget h + 1 ≤ s.enabledTiles)) .outOfRange,
    need (decide (hdrCueCount h ≤ 1024) && decide (hdrPhaseCount h ≤ 6)) .outOfRange,
    need ((imPhases im h).all slackOk) .outOfRange, need (recs.all loadRecordOk && imDrawsOk im h) .malformed,
    r.cues.findSome? (cueLoadFault r),
    recs.findSome? (fun q =>
      if (namedDescriptors q.2).any (fun i => decide (hdrDescCount h ≤ i)) then some .outOfRange
      else if routineUnlisted q.2 then some .malformed else none),
    need (s.hasOptics || decide (s.obj Obj.combinationMode = 0) || recs.all (fun q =>
      match recordPackage q.2 with
      | some g => g == 64 * s.obj Obj.ownRack + s.obj Obj.ownPackage
      | none => true)) .absentUnit]

/-- The first check of R59 that the image at an address fails. -/
def State.loadFault (s : State) (a : Nat) : Option Status :=
  firstFault [
    need (s.rst.restored && s.rst.bistDone) .notReady, s.loadRange a 64, need (decide (64 ≤ s.imageLength a)) .malformed,
    s.loadRange a (s.imageLength a), s.contentFault (s.imageAt a (s.imageLength a))]

/-- What the loader's reads do to HBM findings, and what they give (R257, R259). -/
def State.touchImage (s : State) (a : Nat) : State × Status :=
  if !(hbmInRange s.part.variant a 64) || meetsReserved s.part.variant a 64 then (s, .ok)
  else
    let t := s.hbmTouch true a 64
    let n := t.1.imageLength a
    if !(hbmInRange s.part.variant a n) || meetsReserved s.part.variant a n then t
    else
      let u := t.1.hbmTouch true a n
      (u.1, worseEcc t.2 u.2)

/-- Host command 0x01: stage a reel that passes, with ECC_RECOVERED where a read of it was corrected (R257); refuse one that
does not, with one entry (R59, R60). -/
def State.loadReel (s : State) (a : Nat) : State × Status :=
  match s.loadFault a with
  | some st => ((if st = .notReady then s else (s.touchImage a).1).log 0x240 0 st 0, st)
  | none =>
    let t := s.touchImage a
    ({ t.1 with reels := { t.1.reels with staged := some (reelOf (s.imageAt a (s.imageLength a)) a) } }, t.2)

end Sys2Proof.Machine
end

