-- ==== Sys2Proof/Machine/Context.lean ====
section
/-!
DEFINITION. Contexts: what a save writes and a restore reads back (R79 to R81, R404). R80 names the content of a context;
its headers' layout and the order of a tensor's bytes are the model's (log 62).
-/

namespace Sys2Proof.Machine

open Sys2Proof

/-! ## Layout (log 62) -/

/-- Bytes of the context header and of a tile header. -/
def contextHeaderBytes : Nat := 24
def tileHeaderBytes : Nat := 24

/-- The digest at the end of a context (R404). -/
def digestBytes : Nat := 48

/-- Bytes of V24 to V31. -/
def vectorBytes : Nat := 4096

/-- MODEL_ID, CRC and SEED of the active reel; with none active the header records free values (log 62). -/
def State.reelIdentity (s : State) : Nat × Nat × Nat :=
  match s.reels.active with
  | some r => (r.modelId, r.crc.toNat, r.seed.toNat)
  | none => (s.freeNow.toNat % 2 ^ 16, s.freeNow.toNat % 2 ^ 32, s.freeNow.toNat)

/-- The context header: origin variant, lane count, MODEL_ID, tiles, CRC, 4 zero bytes, SEED. -/
def State.contextHeader (s : State) : List Byte :=
  let i := s.reelIdentity
  leBytes 2 s.part.variant.partNumber ++ leBytes 2 s.part.variant.lanes ++ leBytes 2 i.1 ++ leBytes 2 s.budget ++
    leBytes 4 i.2.1 ++ leBytes 4 0 ++ leBytes 8 i.2.2

/-- A tile header: logical tile, step counter, WRITE_INDEX, bytes of the tile-store section, AM records, 4 zero bytes. -/
def tileHeader (l step write store records : Nat) : List Byte :=
  leBytes 4 l ++ leBytes 4 step ++ leBytes 4 write ++ leBytes 4 store ++ leBytes 4 records ++ leBytes 4 0

/-! ## Saving -/

/-- Where the bytes of a valid tensor of the tile store lie: its rows and its block scales. -/
def State.tensorPlaces (s : State) (p i : Nat) : List (Nat × Nat) :=
  let d := s.desc p i
  if d.headOk && !d.isEmpty && d.space == 0 && (s.descFault d false [0]).isNone
  then d.rowPlaces ++ (if isMxType d.elemType then [(d.scaleBase, d.scaleBytes)] else []) else []

/-- Where the bytes of every descriptor's tensor lie. -/
def State.storePlaces (s : State) (p : Nat) : List (Nat × Nat) :=
  (List.range s.descriptorCount).flatMap (s.tensorPlaces p)

/-- The tile-store section. -/
def State.storeSection (s : State) (p : Nat) : List Byte :=
  (s.storePlaces p).flatMap (fun q => (List.range q.2).map (fun i => s.storeByte p (q.1 + i)))

/-- The slots in use, with the level of each: a slot that holds a written pair, or an occupied stack level (R191). -/
def State.slotsInUse (s : State) (p : Nat) : List (Nat × Nat) :=
  let t := s.pt p
  if s.repro then (List.range 4).flatMap (fun r => ((List.range 8).filter (t.levelOccupied r)).map (fun j => (r, j)))
  else ((List.range 32).filter (fun k => t.am.any (fun e => decide (e.1 / 4096 = k)))).map (fun k => (k, 0xFF))

/-- The physical slot of a slot and level of the AM section. -/
def sectionSlot (slot level : Nat) : Nat := if level = 0xFF then slot else stackSlot slot level

/-- One AM record (R80). -/
def amRecord (slot level i : Nat) (x : Pair) : List Byte :=
  leBytes 1 (i / 64) ++ leBytes 1 (i % 64) ++ leBytes 1 slot ++ leBytes 1 level ++ leBytes 4 0 ++ leBytes 4 x.v.toNat ++
    leBytes 4 x.e.toNat

/-- The AM section. -/
def State.amSection (s : State) (p : Nat) : List Byte :=
  (s.slotsInUse p).flatMap (fun u =>
    ((s.pt p).slot p (sectionSlot u.1 u.2)).zipIdx.flatMap (fun q => amRecord u.1 u.2 q.2 q.1))

/-- V24 to V31, each as 128 elements. -/
def State.vectorSection (s : State) (p : Nat) : List Byte :=
  (List.range 1024).flatMap (fun j => leBytes 4 ((s.pt p).running p j).toNat)

/-- The sections of one logical tile; a tile without a place has no tile store and no AM, and free vector registers. -/
def State.tileSections (s : State) (l : Nat) : List Byte :=
  let t := s.lt l
  match t.phys with
  | some p =>
    let store := s.storeSection p
    let am := s.amSection p
    tileHeader l t.stepCtr t.writeIndex store.length (am.length / 16) ++ store ++ am ++ s.vectorSection p
  | none =>
    tileHeader l t.stepCtr t.writeIndex 0 0 ++
      (List.range vectorBytes).map (fun i => (Config.freeValue (s.free + 1 + l * vectorBytes + i)).setWidth 8)

/-- The places of a tile that its sections are read from: its descriptors, its tensors, and its slots in use. -/
def State.sectionPlaces (s : State) (p : Nat) : List (Nat × Nat) × List (Nat × Nat) :=
  ((0, s.descriptorCount * 64) :: s.storePlaces p,
   (s.slotsInUse p).map (fun u => (amKey (sectionSlot u.1 u.2) 0 0, 4096)))

/-- Correctable errors of what `places` names of every placed tile are corrected (R407). -/
def State.healTiles (s : State) (places : Nat → List (Nat × Nat) × List (Nat × Nat)) : State × Status :=
  (List.range s.budget).foldl (fun (x : State × Status) l =>
    match (s.lt l).phys with
    | some p =>
      let c := x.1.correctAt p (places p).1 (places p).2
      (c.1, worseEcc x.2 c.2)
    | none => x) (s, .ok)

/-- The context with its digest (R80, R404). -/
def State.contextBytes (s : State) : List Byte :=
  let body := s.contextHeader ++ (List.range s.budget).flatMap s.tileSections
  body ++ sha3384 body

/-- Free values that a context may have used. -/
def State.useContext (s : State) : State := { s with free := s.free + 1 + s.budget * vectorBytes }

/-- Why `n` bytes at an address of SPACE 1 or 2 cannot be written, if so. -/
def State.writeFault (s : State) (space a n : Nat) : Option Status :=
  if space = 1 then
    if !(hbmInRange s.part.variant a n) then some .unmapped
    else if meetsReserved s.part.variant a n || s.meetsDuplexCopy a n then some .forbidden
    else none
  else if s.hostMapped a n then none else some .unmapped

/-- A refusal of a context command makes one entry (R419). -/
def State.refuseContext (s : State) (st : Status) : State := s.log 0x242 0 st 0

/-- Host command 0x02: the new state, the status and RESULT_LENGTH (R79, R319). -/
def State.saveContext (s : State) (space a n : Nat) : State × Status × Nat :=
  let c := s.contextBytes
  let u := s.useContext
  if n < c.length then (u.refuseContext .outOfRange, .outOfRange, c.length)
  else match s.writeFault space a c.length with
    | some st => (u.refuseContext st, st, s.host.cmd.resultLength)
    | none =>
      let h := u.healTiles u.sectionPlaces
      let w := h.1.spaceWrite 0 space a c
      (w.1, worseEcc h.2 w.2, c.length)

/-! ## Restoring -/

/-- A command's read of `n` bytes at an address of SPACE 1 or 2: the state after the findings of HBM, and what the read
gave (R257); where it cannot be made, why. -/
def State.readSource (s : State) (space a n : Nat) : State × Status :=
  if space = 1 then
    if !(hbmInRange s.part.variant a n) then (s, .unmapped)
    else if meetsReserved s.part.variant a n then (s, .forbidden)
    else s.hbmTouch true a n
  else (s, if s.hostMapped a n then .ok else .unmapped)


/-- The bytes that the part reads for a command: HBM, or what the host holds, as given or else as log 11 has it. -/
def State.sourceBytes (s : State) (space a n : Nat) (data : List Byte) : List Byte :=
  if space = 1 then (List.range n).map (fun i => s.hbmByte true (a + i))
  else data.take n ++ (List.range (n - data.length)).map (fun i => s.hostStoreByte (a + data.length + i))

/-- The number at bytes `lo` to `lo + n - 1` of a list. -/
def numAt (bs : List Byte) (lo n : Nat) : Nat := leNat ((bs.drop lo).take n)

/-- An AM record names a slot and level that exist. -/
def amRecordOk (r : List Byte) : Bool :=
  decide (numAt r 0 1 < 64) && decide (numAt r 1 1 < 64) && decide (numAt r 4 4 = 0) &&
    ((numAt r 3 1 == 0xFF && decide (numAt r 2 1 < 32)) || (decide (numAt r 3 1 < 8) && decide (numAt r 2 1 < 4)))

/-- Write one AM record back. -/
def PhysTile.putRecord (t : PhysTile) (r : List Byte) : PhysTile :=
  let slot := numAt r 2 1
  let level := numAt r 3 1
  let u := t.setPair (sectionSlot slot level) (numAt r 0 1) (numAt r 1 1)
    { v := BitVec.ofNat 32 (numAt r 8 4), e := BitVec.ofNat 32 (numAt r 12 4) }
  if level = 0xFF then u else u.setLevel slot level true

/-- Write the bytes of the tile-store section back to their places. -/
def State.putPlaces (s : State) (p : Nat) : List (Nat × Nat) → List Byte → State
  | [], _ => s
  | q :: qs, bs => (s.storeWrite p q.1 (bs.take q.2)).putPlaces p qs (bs.drop q.2)

/-- Write the memory sections of one tile back. -/
def State.putMemories (s : State) (p : Nat) (store am regs : List Byte) : State :=
  let a := s.putPlaces p (s.storePlaces p) store
  let t := a.pt p
  let u := (chunks 16 (am.length / 16) am).foldl (fun (x : PhysTile) r => x.putRecord r) { t with occupied := [] }
  a.setPt p { u with vregs := Tab.putList [] 0 ((chunks 4 1024 regs).map (fun b => BitVec.ofNat 32 (leNat b))) }

/-- Write the sections of one tile back: the state and the bytes that are left; none where the sections do not fit the
tile. -/
def State.putTile (s : State) (l : Nat) (bs : List Byte) : Option (State × List Byte) :=
  let store := numAt bs 12 4
  let records := numAt bs 16 4
  let body := bs.drop tileHeaderBytes
  let am := (body.drop store).take (16 * records)
  let regs := (body.drop (store + 16 * records)).take vectorBytes
  let rest := body.drop (store + 16 * records + vectorBytes)
  let t := s.lt l
  let a := s.setLt l { t with stepCtr := numAt bs 4 4, writeIndex := numAt bs 8 4 }
  if numAt bs 0 4 ≠ l ∨ regs.length ≠ vectorBytes ∨ numAt bs 20 4 ≠ 0 then none
  else if !((chunks 16 records am).all amRecordOk) then none
  else match t.phys with
    | none => some (a, rest)
    | some p =>
      if listSum ((s.storePlaces p).map (fun q => q.2)) = store then some (a.putMemories p (body.take store) am regs, rest)
      else none

/-- Write the sections of tiles back in ascending order. -/
def State.putTiles (s : State) : List Nat → List Byte → Option State
  | [], bs => if bs.isEmpty then some s else none
  | l :: ls, bs =>
    match s.putTile l bs with
    | some (t, rest) => t.putTiles ls rest
    | none => none

/-- The context names the active reel (R79). -/
def State.contextMatches (s : State) (c : List Byte) : Bool :=
  match s.reels.active with
  | some r => decide (numAt c 4 2 = r.modelId) && decide (numAt c 8 4 = r.crc.toNat)
  | none => false

/-- R81: a logical tile takes its place of R56, woken and with its descriptors, unless it stands there already. -/
def State.placeTile (s : State) (r : Reel) (place : List Nat) (l : Nat) : State :=
  match place[l]? with
  | none => s
  | some p =>
    if (s.lt l).phys = some p then s
    else ((s.setLt l { s.lt l with phys := some p, lastDie := tileDie p }).wakeTile p).loadDescriptors r l p

/-- R81: before a context is written back, its logical tiles are placed by R56. -/
def State.placeForContext (s : State) : State :=
  match s.reels.active with
  | none => s
  | some r =>
    let place := s.placement r
    ((List.range r.tileBudget).foldl (fun (t : State) l => t.placeTile r place l) s).restReserve

/-- A context of the active reel with the right digest, written back (R79, R81, R404). -/
def State.restoreBytes (s : State) (c : List Byte) : State × Status :=
  let n := c.length - digestBytes
  if c.length < contextHeaderBytes + digestBytes || sha3384 (c.take n) != c.drop n || !(s.contextMatches c) then
    (s, .malformed)
  else if s.enabledTiles < s.budget + 1 then (s, .outOfRange)
  else match s.placeForContext.putTiles (List.range s.budget) ((c.take n).drop contextHeaderBytes) with
    | some t =>
      let h := t.healTiles (fun _ => ([(0, t.descriptorCount * 64)], []))
      ({ h.1 with sec := { h.1.sec with contextMeasurement := BitVec.ofNat 384 (leNat (c.drop n)) } }, h.2)
    | none => (s, .malformed)

/-- Host command 0x03 (R79). -/
def State.restoreContext (s : State) (space a n : Nat) (data : List Byte) : State × Status :=
  let q := s.readSource space a n
  if n = 0 then (s, .zeroWork)
  else if !(readGave q.2) then (q.1.refuseContext q.2, q.2)
  else
    let r := q.1.restoreBytes (s.sourceBytes space a n data)
    if readGave r.2 then (r.1, worseEcc q.2 r.2) else (r.1.refuseContext r.2, r.2)

end Sys2Proof.Machine
end

