-- ==== Sys2Proof/Machine/Ed25519.lean ====
section
/-!
DEFINITION. Ed25519 (RFC 8032, pure form) and the SHA-512 it rests on, for the signatures of R396, R402, R403 and R405. The
constants of SHA-512 are computed from their definition, the roots of the first primes.
-/

namespace Sys2Proof.Machine

open Sys2Proof

/-! ## SHA-512 -/

/-- The primes below 410: the first 80. -/
def smallPrimes : List Nat :=
  (List.range 410).filter (fun p => decide (2 ≤ p) && (List.range 21).all (fun k => decide (k < 2 ∨ k = p) || decide (p % k ≠ 0)))

/-- The largest number with the given k-th power bound, built from bit `b - 1` down. -/
def rootBelow (k n : Nat) : Nat → Nat → Nat
  | 0, r => r
  | b + 1, r => rootBelow k n b (if (r + 2 ^ b) ^ k ≤ n then r + 2 ^ b else r)

/-- The first 64 bits of the fraction of the k-th root of p. -/
def rootFraction (k p : Nat) : BitVec 64 := BitVec.ofNat 64 (rootBelow k (p * 2 ^ (64 * k)) 70 0)

/-- The chaining value before the first block. -/
def shaStart : List (BitVec 64) := (smallPrimes.take 8).map (rootFraction 2)

/-- The constants of the 80 rounds. -/
def shaConstants : List (BitVec 64) := smallPrimes.map (rootFraction 3)

/-- Three rotations joined, the form of the large sigma functions. -/
def turn3 (a b c : Nat) (x : BitVec 64) : BitVec 64 := x.rotateRight a ^^^ x.rotateRight b ^^^ x.rotateRight c

/-- Two rotations and a shift joined, the form of the small sigma functions. -/
def turn2 (a b c : Nat) (x : BitVec 64) : BitVec 64 := x.rotateRight a ^^^ x.rotateRight b ^^^ (x >>> c)

/-- The rounds of a block: `w` holds the schedule's next sixteen words. -/
def shaRounds : List (BitVec 64) → List (BitVec 64) → List (BitVec 64) → List (BitVec 64)
  | [], _, v => v
  | k :: ks, w, v =>
    let word (i : Nat) : BitVec 64 := w.getD i 0
    let va (i : Nat) : BitVec 64 := v.getD i 0
    let choose := (va 4 &&& va 5) ^^^ (~~~(va 4) &&& va 6)
    let most := (va 0 &&& va 1) ^^^ (va 0 &&& va 2) ^^^ (va 1 &&& va 2)
    let one := va 7 + turn3 14 18 41 (va 4) + choose + k + word 0
    let two := turn3 28 34 39 (va 0) + most
    shaRounds ks (w.drop 1 ++ [turn2 19 61 6 (word 14) + word 9 + turn2 1 8 7 (word 1) + word 0])
      [one + two, va 0, va 1, va 2, va 3 + one, va 4, va 5, va 6]

/-- The big-endian 64-bit words of a byte string. -/
def bigWords : Nat → List Byte → List (BitVec 64)
  | 0, _ => []
  | n + 1, bs => BitVec.ofNat 64 (leNat (bs.take 8).reverse) :: bigWords n (bs.drop 8)

/-- The blocks of a padded message. -/
def shaBlocks : Nat → List (BitVec 64) → List Byte → List (BitVec 64)
  | 0, v, _ => v
  | n + 1, v, m => shaBlocks n (List.zipWith (fun a b => a + b) v (shaRounds shaConstants (bigWords 16 (m.take 128)) v)) (m.drop 128)

/-- SHA-512 (FIPS 180-4): 64 bytes. -/
def sha512 (m : List Byte) : List Byte :=
  let zeros := 127 - (m.length + 16) % 128
  let p := m ++ [0x80] ++ List.replicate zeros 0 ++ (leBytes 16 (8 * m.length)).reverse
  (shaBlocks (p.length / 128) shaStart p).flatMap (fun l => (leBytes 8 l.toNat).reverse)

/-! ## The curve -/

/-- The field's prime. -/
def edPrime : Nat := 2 ^ 255 - 19

/-- The order of the base point. -/
def edOrder : Nat := 2 ^ 252 + 27742317777372353535851937790883648493

/-- A power modulo m of an exponent below 2^n. -/
def powMod (m : Nat) : Nat → Nat → Nat → Nat
  | 0, _, _ => 1
  | n + 1, b, e =>
    let h := powMod m n (b * b % m) (e / 2)
    if e % 2 = 1 then h * b % m else h

/-- An element's inverse; 0 has none and gives 0. -/
def edInv (x : Nat) : Nat := powMod edPrime 255 x (edPrime - 2)

/-- The opposite of an element. -/
def edNeg (x : Nat) : Nat := (edPrime - x % edPrime) % edPrime

/-- The curve's constant d, −121665/121666. -/
def edD : Nat := edNeg 121665 * edInv 121666 % edPrime

/-- The addition law of the curve −x² + y² = 1 + d x² y², which is complete. -/
def edAdd (a b : Nat × Nat) : Nat × Nat :=
  let t := edD * (a.1 * b.1 % edPrime) % edPrime * (a.2 * b.2 % edPrime) % edPrime
  ((a.1 * b.2 + a.2 * b.1) % edPrime * edInv (1 + t) % edPrime,
    (a.2 * b.2 + a.1 * b.1) % edPrime * edInv (1 + edNeg t) % edPrime)

/-- A multiple of a point by a number below 2^n. -/
def edMul : Nat → Nat → Nat × Nat → Nat × Nat
  | 0, _, _ => (0, 1)
  | n + 1, k, a =>
    let h := edMul n (k / 2) (edAdd a a)
    if k % 2 = 1 then edAdd h a else h

/-- The x of a point of given y and parity (RFC 8032, 5.1.3). -/
def edRecover (y parity : Nat) : Option Nat :=
  let square := (y * y + edPrime - 1) % edPrime * edInv (edD * (y * y % edPrime) + 1) % edPrime
  let r := powMod edPrime 255 square ((edPrime + 3) / 8)
  let x := if r * r % edPrime = square then r else r * powMod edPrime 255 2 ((edPrime - 1) / 4) % edPrime
  if x * x % edPrime ≠ square then none
  else if x = 0 ∧ parity = 1 then none
  else some (if x % 2 = parity then x else edNeg x)

/-- The base point: y is 4/5 and x is even. -/
def edBase : Nat × Nat :=
  let y := 4 * edInv 5 % edPrime
  ((edRecover y 0).getD 0, y)

/-- The 32 bytes of a point. -/
def edEncode (a : Nat × Nat) : List Byte := leBytes 32 (a.2 + (a.1 % 2) * 2 ^ 255)

/-- The point of 32 bytes. -/
def edDecode (bs : List Byte) : Option (Nat × Nat) :=
  let v := leNat bs
  let y := v % 2 ^ 255
  if bs.length ≠ 32 ∨ edPrime ≤ y then none else (edRecover y (v / 2 ^ 255)).map (fun x => (x, y))

/-! ## Keys and signatures -/

/-- A hash as a scalar. -/
def edScalar (m : List Byte) : Nat := leNat (sha512 m) % edOrder

/-- The secret scalar of a private key: bits 0 to 2 and 255 cleared, bit 254 set. -/
def edSecret (key : List Byte) : Nat := 2 ^ 254 + leNat ((sha512 key).take 32) % 2 ^ 254 / 8 * 8

/-- The public key of a private key. -/
def ed25519Public (key : List Byte) : List Byte := edEncode (edMul 256 (edSecret key) edBase)

/-- The signature of a message under a private key. -/
def ed25519Sign (key m : List Byte) : List Byte :=
  let r := edScalar ((sha512 key).drop 32 ++ m)
  let top := edEncode (edMul 256 r edBase)
  top ++ leBytes 32 ((r + edScalar (top ++ ed25519Public key ++ m) * edSecret key) % edOrder)

/-- Verification of a message under a public key: the equation multiplied by the cofactor, which RFC 8032 states first; it
also lets an implementation check the one without it (log 14). -/
def ed25519Verify (m key sig : List Byte) : Bool :=
  match edDecode key, edDecode (sig.take 32) with
  | some a, some r =>
    let k := leNat (sha512 (sig.take 32 ++ key ++ m)) % edOrder
    decide (sig.length = 64) && decide (leNat (sig.drop 32) < edOrder) &&
      edMul 4 8 (edMul 256 (leNat (sig.drop 32)) edBase) == edMul 4 8 (edAdd r (edMul 256 k a))
  | _, _ => false

end Sys2Proof.Machine
end

