-- ==== Sys2Proof/Machine/MlDsa.lean ====
section
/-!
DEFINITION. ML-DSA-65 (FIPS 204), for the signatures of R396, R402, R403 and R405. A polynomial is the list of its 256
coefficients, residues of the prime 8,380,417; a vector is a list of polynomials and a matrix a list of its rows. A sampler
that FIPS 204 lets run on without end draws from a fixed stretch of its stream, long beyond what it lets an implementation
stop at (log 14).
-/

namespace Sys2Proof.Machine

open Sys2Proof

/-- The prime q. -/
def mlPrime : Nat := 8380417

/-- The parameter set: rows, columns, and the bounds γ1, γ2 and β. -/
def mlRows : Nat := 6
def mlColumns : Nat := 5
def mlGamma1 : Nat := 2 ^ 19
def mlGamma2 : Nat := 261888
def mlBeta : Nat := 196

/-- Most ones in a hint. -/
def mlOmega : Nat := 55

/-! ## Polynomials -/

/-- A polynomial. -/
abbrev Poly := List Nat

/-- Sum, difference and coefficient product. -/
def polyAdd (a b : Poly) : Poly := List.zipWith (fun x y => (x + y) % mlPrime) a b
def polySub (a b : Poly) : Poly := List.zipWith (fun x y => (x + mlPrime - y) % mlPrime) a b
def polyDot (a b : Poly) : Poly := List.zipWith (fun x y => x * y % mlPrime) a b

/-- The zero polynomial. -/
def polyZero : Poly := List.replicate 256 0

/-- The eight bits of a number in reverse. -/
def turnBits (i : Nat) : Nat := (List.range 8).foldl (fun r b => 2 * r + i / 2 ^ b % 2) 0

/-- The roots of X^256 + 1 in the order of the transform: the powers 2·rev(i) + 1 of 1753. -/
def mlRoots : List Nat := (List.range 256).map (fun i => powMod mlPrime 9 1753 (2 * turnBits i + 1))

/-- The transform: the values at the roots. -/
def polyEval (a : Poly) : Poly := mlRoots.map (fun x => a.foldr (fun c v => (c + x * v) % mlPrime) 0)

/-- Power sums of the terms, each term multiplied on by its step. -/
def powerSums (steps : List Nat) : Nat → List Nat → List Nat
  | 0, _ => []
  | n + 1, ts => ts.foldl (fun v t => v + t) 0 % mlPrime :: powerSums steps n (polyDot ts steps)

/-- The inverse transform. -/
def polyInterpolate (a : Poly) : Poly :=
  let inv (x : Nat) : Nat := powMod mlPrime 23 x (mlPrime - 2)
  (powerSums (mlRoots.map inv) 256 a).map (fun v => v * inv 256 % mlPrime)

/-- A row times a vector, both transformed. -/
def rowTimes (row v : List Poly) : Poly := (List.zipWith polyDot row v).foldl polyAdd polyZero

/-- The size of a residue: its distance from 0. -/
def mlSize (x : Nat) : Nat := min x (mlPrime - x)

/-- Every coefficient of a vector is smaller than a bound. -/
def vecBelow (bound : Nat) (v : List Poly) : Bool := v.all (fun p => p.all (fun x => decide (mlSize x < bound)))

/-! ## Rounding -/

/-- The part of a residue above the low 13 bits, rounded (t1), and what it leaves (t0). -/
def highTwo (r : Nat) : Nat := (r + 4095) / 8192
def lowTwo (r : Nat) : Nat := (r + mlPrime - highTwo r * 8192) % mlPrime

/-- HighBits: the nearest multiple of 2γ2, the one at q − 1 counted as 0. -/
def highBits (r : Nat) : Nat := (r + mlGamma2 - 1) / (2 * mlGamma2) % 16

/-- LowBits, as a residue. -/
def lowBits (r : Nat) : Nat := (r + mlPrime - highBits r * (2 * mlGamma2)) % mlPrime

/-- LowBits is positive. -/
def lowPositive (r : Nat) : Bool := decide (0 < lowBits r ∧ lowBits r ≤ mlGamma2)

/-- UseHint. -/
def useHint (hint : Bool) (r : Nat) : Nat :=
  if !hint then highBits r else if lowPositive r then (highBits r + 1) % 16 else (highBits r + 15) % 16

/-- MakeHint: adding z changes the high bits. -/
def makeHint (z r : Nat) : Bool := decide (highBits r ≠ highBits ((r + z) % mlPrime))

/-! ## Bit packing -/

/-- Numbers of `w` bits each, one after another. -/
def packBits (w : Nat) (cs : List Nat) : List Byte := leBytes (w * cs.length / 8) (cs.foldr (fun c v => c + 2 ^ w * v) 0)

/-- The 256 numbers of `w` bits of a polynomial's bytes. -/
def unpackBits (w : Nat) (bs : List Byte) : List Nat :=
  let n := leNat bs
  (List.range 256).map (fun i => n / 2 ^ (w * i) % 2 ^ w)

/-- Equal stretches of a byte string. -/
def splitBytes (size : Nat) : Nat → List Byte → List (List Byte)
  | 0, _ => []
  | n + 1, bs => bs.take size :: splitBytes size n (bs.drop size)

/-- A coefficient between −γ1 + 1 and γ1 in its 20 bits, and back: its distance below γ1. -/
def mlFlip (x : Nat) : Nat := (mlGamma1 + mlPrime - x) % mlPrime

/-- The ones of a hint, row by row, with the running count after each row. -/
def packHint : Nat → List (List Bool) → List Nat × List Nat
  | _, [] => ([], [])
  | n, row :: rows =>
    let here := (List.range 256).filter (fun j => row.getD j false)
    let rest := packHint (n + here.length) rows
    (here ++ rest.1, (n + here.length) :: rest.2)

/-- The hint's bytes. -/
def hintBytes (h : List (List Bool)) : List Byte :=
  let p := packHint 0 h
  (p.1 ++ List.replicate (mlOmega - p.1.length) 0 ++ p.2).map (fun x => BitVec.ofNat 8 x)

/-- Strictly rising. -/
def rising : List Nat → Bool
  | a :: b :: l => decide (a < b) && rising (b :: l)
  | _ => true

/-- The rows of a hint: places `from` to the next count; every count is in order and each row's places rise. -/
def unpackHint (places : List Nat) : Nat → List Nat → Option (List (List Bool))
  | _, [] => some []
  | first, count :: counts =>
    let here := (places.take count).drop first
    if first ≤ count ∧ count ≤ mlOmega ∧ rising here then
      (unpackHint places count counts).map (fun rows => (List.range 256).map (fun j => here.contains j) :: rows)
    else none

/-- The hint of 61 bytes; the places that no row counts are 0. -/
def hintOf (bs : List Byte) : Option (List (List Bool)) :=
  let ns := bs.map (fun b => b.toNat)
  let counts := ns.drop mlOmega
  if ((ns.take mlOmega).drop (counts.getLastD 0)).all (fun x => x == 0) then unpackHint (ns.take mlOmega) 0 counts else none

/-! ## Sampling -/

/-- Residues of three bytes each, those below q. -/
def threeBytes : List Byte → List Nat
  | a :: b :: c :: l =>
    let z := a.toNat + 256 * b.toNat + 65536 * (c.toNat % 128)
    if z < mlPrime then z :: threeBytes l else threeBytes l
  | _ => []

/-- The matrix of a public seed, transformed. -/
def mlMatrix (rho : List Byte) : List (List Poly) :=
  (List.range mlRows).map (fun r => (List.range mlColumns).map (fun c =>
    (threeBytes (shake128 1680 (rho ++ leBytes 1 c ++ leBytes 1 r))).take 256))

/-- Small coefficients, −4 to 4, from half bytes; those above 8 are passed over. -/
def smallPoly (seed : List Byte) (i : Nat) : Poly :=
  (((shake256 1088 (seed ++ leBytes 2 i)).flatMap (fun b => [b.toNat % 16, b.toNat / 16])).filter (fun x => decide (x < 9))
    |>.take 256).map (fun x => (4 + mlPrime - x) % mlPrime)

/-- The mask vector of a signing attempt. -/
def maskVector (seed : List Byte) (count : Nat) : List Poly :=
  (List.range mlColumns).map (fun r => (unpackBits 20 (shake256 640 (seed ++ leBytes 2 (count + r)))).map mlFlip)

/-- The next place at or below i among the drawn bytes, and the rest. -/
def drawPlace (i : Nat) : List Byte → Nat × List Byte
  | [] => (0, [])
  | b :: l => if b.toNat ≤ i then (b.toNat, l) else drawPlace i l

/-- Places 256 − n to 255 are filled in turn; `signs` holds the signs still to come. -/
def fillBall : Nat → Nat → List Byte → Poly → Poly
  | 0, _, _, c => c
  | n + 1, signs, draws, c =>
    let i := 255 - n
    let d := drawPlace i draws
    fillBall n (signs / 2) d.2
      ((c.set i (c.getD d.1 0)).set d.1 (if signs % 2 = 1 then mlPrime - 1 else 1))

/-- The challenge polynomial, with 49 coefficients ±1. -/
def challengePoly (seed : List Byte) : Poly :=
  let bs := shake256 1088 seed
  fillBall 49 (leNat (bs.take 8)) (bs.drop 8) polyZero

/-! ## Keys -/

/-- What a seed ξ expands to: ρ, K, tr, the transformed s1, s2 and t0, and the public key. -/
structure MlKey where
  rho : List Byte
  secret : List Byte
  tr : List Byte
  s1 : List Poly
  s2 : List Poly
  t0 : List Poly
  publicKey : List Byte
  deriving DecidableEq, Repr

/-- ML-DSA.KeyGen_internal. -/
def mlKeyOf (xi : List Byte) : MlKey :=
  let e := shake256 128 (xi ++ leBytes 1 mlRows ++ leBytes 1 mlColumns)
  let small := (e.drop 32).take 64
  let s1 := (List.range mlColumns).map (fun r => polyEval (smallPoly small r))
  let s2 := (List.range mlRows).map (fun r => smallPoly small (r + mlColumns))
  let t := List.zipWith (fun row p => polyAdd (polyInterpolate (rowTimes row s1)) p) (mlMatrix (e.take 32)) s2
  let pk := e.take 32 ++ t.flatMap (fun p => packBits 10 (p.map highTwo))
  { rho := e.take 32, secret := (e.drop 96).take 32, tr := shake256 64 pk, s1, s2 := s2.map polyEval,
    t0 := t.map (fun p => polyEval (p.map lowTwo)), publicKey := pk }

/-- The public key of a seed: 1,952 bytes. -/
def mlDsaPublic (xi : List Byte) : List Byte := (mlKeyOf xi).publicKey

/-! ## Signing -/

/-- The hash that binds the commitment: 48 bytes. -/
def mlCommit (mu : List Byte) (w1 : List Poly) : List Byte := shake256 48 (mu ++ w1.flatMap (packBits 4))

/-- One attempt to sign with the masks from `count` on; none where a bound rejects it. -/
def mlAttempt (k : MlKey) (a : List (List Poly)) (mu seed : List Byte) (count : Nat) : Option (List Byte) :=
  let y := maskVector seed count
  let yHat := y.map polyEval
  let w := a.map (fun row => polyInterpolate (rowTimes row yHat))
  let commit := mlCommit mu (w.map (fun p => p.map highBits))
  let c := polyEval (challengePoly commit)
  let times (p : Poly) : Poly := polyInterpolate (polyDot c p)
  let z := List.zipWith polyAdd y (k.s1.map times)
  let r := List.zipWith polySub w (k.s2.map times)
  let ct0 := k.t0.map times
  let hint := List.zipWith (fun p q => List.zipWith (fun x v => makeHint ((mlPrime - v) % mlPrime) ((x + v) % mlPrime)) p q) r ct0
  if vecBelow (mlGamma1 - mlBeta) z && vecBelow (mlGamma2 - mlBeta) (r.map (fun p => p.map lowBits)) &&
      vecBelow mlGamma2 ct0 && decide ((hint.map (fun row => row.countP id)).sum ≤ mlOmega) then
    some (commit ++ z.flatMap (fun p => packBits 20 (p.map mlFlip)) ++ hintBytes hint)
  else none

/-- The first attempt that stands. -/
def mlAttempts (k : MlKey) (a : List (List Poly)) (mu seed : List Byte) : Nat → Nat → List Byte
  | 0, _ => []
  | n + 1, count =>
    match mlAttempt k a mu seed count with
    | some sig => sig
    | none => mlAttempts k a mu seed n (count + mlColumns)

/-- ML-DSA.Sign_internal on a formatted message with 32 random bytes; the attempts end where their two-byte count does. -/
def mlDsaSign (xi m rnd : List Byte) : List Byte :=
  let k := mlKeyOf xi
  let mu := shake256 64 (k.tr ++ m)
  mlAttempts k (mlMatrix k.rho) mu (shake256 64 (k.secret ++ rnd ++ mu)) 13107 0

/-! ## Verification -/

/-- ML-DSA.Verify_internal of a formatted message under a public key. -/
def mlDsaVerify (m pk sig : List Byte) : Bool :=
  let commit := sig.take 48
  let z := (splitBytes 640 mlColumns (sig.drop 48)).map (fun bs => (unpackBits 20 bs).map mlFlip)
  match hintOf (sig.drop 3248) with
  | none => false
  | some hint =>
    let t1 := (splitBytes 320 mlRows (pk.drop 32)).map (fun bs => (unpackBits 10 bs).map (fun x => x * 8192 % mlPrime))
    let c := polyEval (challengePoly commit)
    let zHat := z.map polyEval
    let w := List.zipWith (fun row t => polyInterpolate (polySub (rowTimes row zHat) (polyDot c (polyEval t)))) (mlMatrix (pk.take 32)) t1
    let w1 := List.zipWith (fun h p => List.zipWith useHint h p) hint w
    decide (pk.length = 1952) && decide (sig.length = 3309) && vecBelow (mlGamma1 - mlBeta) z &&
      mlCommit (shake256 64 (shake256 64 pk ++ m)) w1 == commit

end Sys2Proof.Machine
end

