-- ==== Sys2Proof/Machine/Secure.lean ====
section
/-!
DEFINITION. Firmware images and slots, the identity keys and the attestation report (R394 to R404).
-/

namespace Sys2Proof.Machine

open Sys2Proof

/-! ## Images (R395) -/

/-- Bytes of a slot (R340). -/
def slotBytes : Nat := 0x1000000

/-- A byte of a slot; an erased byte is 0xFF. -/
def slotByte (t : Tab Byte) (i : Nat) : Byte := Tab.read t 0xFF i

/-- Consecutive bytes of a slot. -/
def slotRange (t : Tab Byte) (i n : Nat) : List Byte := (List.range n).map (fun j => slotByte t (i + j))

/-- The 128 header bytes. -/
def imageHeader (t : Tab Byte) : List Byte := slotRange t 0 128

/-- Fields of a header (R395). -/
def fwKeySet (h : Nat) : Nat := bitsOf h 55 48
def fwSvn (h : Nat) : Nat := bitsOf h 103 96
def fwBodyLength (h : Nat) : Nat := bitsOf h 159 128

/-- The bit of PART_MASK of a variant. -/
def partBit : Variant → Nat
  | .tmn5800 => 160
  | .tmn5830 => 161
  | .tmn5840 => 162

/-- Step 2 of R396. -/
def headerFormOk (v : Variant) (h : Nat) : Bool :=
  decide (bitsOf h 31 0 = 0x46574E54) && decide (bitsOf h 47 32 = 1) && zeroAt h 63 56 && zeroAt h 127 104 &&
    zeroAt h 191 163 && zeroAt h 1023 576 && decide (1 ≤ fwBodyLength h) && decide (fwBodyLength h ≤ 0x600000) &&
    decide (fwSvn h ≤ 64) && bitAt h (partBit v)

/-- The message that pure ML-DSA signs under a context string (FIPS 204). -/
def mlMessage (ctx m : List Byte) : List Byte := leBytes 1 0 ++ leBytes 1 ctx.length ++ ctx ++ m

/-- "TMN-FW". -/
def ctxFirmware : List Byte := [0x54, 0x4D, 0x4E, 0x2D, 0x46, 0x57]

/-- "TMN-AT". -/
def ctxAttest : List Byte := [0x54, 0x4D, 0x4E, 0x2D, 0x41, 0x54]

/-- What the fuse block gives when it is read (R394). -/
def Part.fuseFields (p : Part) : Fuses :=
  { deviceSecret := p.deviceSecret, keyDigests := p.keyDigests, keyRevoked := p.keyRevoked, svnFloor := p.svnFloor,
    debugDigest := p.debugDigest, debugDisable := p.debugDisable }

/-- The one reading of a reset (R376, R394); the latch of R406 blocks it. -/
def State.readFuses (s : State) : State :=
  { s with sec := { s.sec with fuses := if s.sec.fuseLatch then none else some s.part.fuseFields } }

/-- Step 3 of R396: a KEY_SET without a digest mismatches, and every one while the fuses are not read (log 177). -/
def SecSt.keyBlockOk (c : SecSt) (keySet : Nat) (block : List Byte) : Bool :=
  match c.fuses.bind (fun f => if bitAt f.keyRevoked.toNat keySet then none else f.keyDigests[keySet]?) with
  | some d => sha3384Bits block == d
  | none => false

/-- SVN_FLOOR as this boot has read it (R403). -/
def SecSt.floor (c : SecSt) : Nat := (c.fuses.map Fuses.svnFloor).getD 0

/-- Steps 2 to 7 of R396 on a slot: its result of R397. -/
def State.slotResult (s : State) (t : Tab Byte) : Nat :=
  let head := imageHeader t
  let h := leNat head
  if !(headerFormOk s.part.variant h) then 0x02
  else if !(s.sec.keyBlockOk (fwKeySet h) (slotRange t 0x80 1984)) then 0x03
  else if fwSvn h < s.sec.floor then 0x04
  else if !(ed25519Verify head (slotRange t 0x80 32) (slotRange t 0x840 64)) then 0x05
  else if !(mlDsaVerify (mlMessage ctxFirmware head) (slotRange t 0xA0 1952) (slotRange t 0x880 3309)) then 0x06
  else if sha3384 (slotRange t 0x2000 (fwBodyLength h)) != (head.drop 24).take 48 then 0x07
  else 0x00

/-- The slot that is not named by BOOT_SLOT. -/
def State.otherSlot (s : State) : Nat := 1 - s.bootSlot

/-- The bytes of a slot. -/
def SecSt.slot (c : SecSt) (i : Nat) : Tab Byte := if i = 0 then c.slotA else c.slotB

/-- Replace the bytes of a slot. -/
def SecSt.setSlot (c : SecSt) (i : Nat) (t : Tab Byte) : SecSt := if i = 0 then { c with slotA := t } else { c with slotB := t }

/-- A slot with some bytes programmed from an offset on. -/
def programSlotBytes (t : Tab Byte) (off : Nat) (bs : List Byte) : Tab Byte := Tab.storeList t 0xFF off bs

/-! ## WRITE_FIRMWARE (R400) -/

/-- The status that a slot's result gives. -/
def firmwareStatus (result : Nat) : Status :=
  if result = 0 then .ok else if result = 3 ∨ result = 4 then .forbidden else .malformed

/-- Erase the other slot, program it and check it; the results of R397 stay those of the boot (log 63). -/
def State.programFirmware (s : State) (bs : List Byte) : State × Status :=
  let t := programSlotBytes [] 0 bs
  ({ s with sec := s.sec.setSlot s.otherSlot t }, firmwareStatus (s.slotResult t))

/-- Host command 0x04. -/
def State.writeFirmware (s : State) (space a n : Nat) (data : List Byte) : State × Status :=
  if n = 0 then (s, .zeroWork)
  else if slotBytes < n then (s, .outOfRange)
  else
    let q := s.readSource space a n
    if !(readGave q.2) then q
    else
      let r := q.1.programFirmware (s.sourceBytes space a n data)
      (r.1, if r.2 = .ok then q.2 else r.2)

/-! ## Identity keys (R402) -/

/-- "TMN-ID-ED25519". -/
def labelEd : List Byte := [0x54, 0x4D, 0x4E, 0x2D, 0x49, 0x44, 0x2D, 0x45, 0x44, 0x32, 0x35, 0x35, 0x31, 0x39]

/-- "TMN-ID-MLDSA65". -/
def labelMl : List Byte := [0x54, 0x4D, 0x4E, 0x2D, 0x49, 0x44, 0x2D, 0x4D, 0x4C, 0x44, 0x53, 0x41, 0x36, 0x35]

/-- A seed of R402, from the copy of DEVICE_SECRET that this boot has read. -/
def State.keySeed (s : State) (label : List Byte) : List Byte :=
  shake256 32 (leBytes 32 ((s.sec.fuses.map Fuses.deviceSecret).getD 0).toNat ++ label ++ leBytes 8 s.part.serial)

/-- 256 bits of the entropy source, and their use. -/
def State.entropy (s : State) : BitVec 256 :=
  Config.freeValue (s.free + 3) ++ Config.freeValue (s.free + 2) ++ Config.freeValue (s.free + 1) ++ Config.freeValue s.free

/-- Use up several free values. -/
def State.useFrees (s : State) (n : Nat) : State := { s with free := s.free + n }

/-! ## Attestation (R403, R404) -/

/-- Bytes of a report, and of its signed part. -/
def reportBytes : Nat := 9248
def signedBytes : Nat := 0x9C0

/-- Exactly n bytes of a list, zeros where it ends. -/
def fitBytes (n : Nat) (bs : List Byte) : List Byte := bs.take n ++ List.replicate (n - bs.length) 0

/-- The measurement of a reel; zero if there is none. -/
def reelMeasurement (r : Option Reel) : List Byte :=
  match r with
  | some x => leBytes 48 x.measurement.toNat
  | none => leBytes 48 0

/-- The image of the destination table in force (R242). -/
def State.tableImage (s : State) : List Byte :=
  let body := (List.range 5120).flatMap (fun i => leBytes 16 (Tab.read s.route.inForce 0 i).toNat) ++
    leBytes 4 0x52544544 ++ leBytes 2 1 ++ leBytes 6 0
  body ++ leBytes 4 (crc32c body).toNat

/-- TABLE_MEASUREMENT; zero if the table is empty. -/
def State.tableMeasurement (s : State) : List Byte :=
  if s.route.inForce.isEmpty then leBytes 48 0 else sha3384 s.tableImage

/-- CONFIG_MEASUREMENT (R404). -/
def State.configMeasurement (s : State) : List Byte :=
  sha3384 (objKKeys.flatMap (fun k =>
    leBytes 2 (k / 256) ++ leBytes 1 (k % 256) ++ leBytes 1 (valueBytes k) ++ leBytes (valueBytes k) (s.obj k)))

/-- The DEBUG_DISABLE fuse as this boot has read it; while it is not read it counts as set (log 177). -/
def State.debugDisabled (s : State) : Bool := (s.sec.fuses.map Fuses.debugDisable).getD true

/-- Bytes 0x000 to 0x01F of a report. -/
def State.reportHead (s : State) : List Byte :=
  let h := leNat s.sec.header
  leBytes 4 0x41545354 ++ leBytes 2 1 ++ leBytes 2 s.part.variant.partNumber ++ leBytes 8 s.part.serial ++
    leBytes 1 s.part.siliconRev ++ leBytes 1 s.rst.cfgCode ++ leBytes 1 s.bootSlot ++ leBytes 1 s.sec.resultA ++
    leBytes 1 s.sec.resultB ++ leBytes 1 (fwKeySet h) ++ leBytes 1 (fwSvn h) ++ leBytes 1 s.sec.floor ++
    leBytes 4 (bitsOf h 95 64) ++ leBytes 4 (s.sec.debugLevel % 4 + (if s.debugDisabled then 4 else 0))

/-- The measurements of a report. -/
def State.reportMeasurements (s : State) : List Byte :=
  sha3384 s.sec.header ++ reelMeasurement s.reels.active ++ reelMeasurement s.reels.staged ++ s.tableMeasurement ++
    s.configMeasurement ++ leBytes 48 s.part.factoryDigest.toNat ++ leBytes 48 s.sec.contextMeasurement.toNat

/-- The signed bytes of a report. -/
def State.reportBody (s : State) (nonce : List Byte) : List Byte :=
  fitBytes signedBytes (s.reportHead ++ fitBytes 32 nonce ++ leBytes 8 s.time.tb ++ leBytes 4 (s.obj Obj.lineTakeNumber) ++
    leBytes 4 s.rst.resetCount ++ s.reportMeasurements ++ leBytes 96 0 ++
    ed25519Public (s.keySeed labelEd) ++ mlDsaPublic (s.keySeed labelMl))

/-- The whole report; the 32 random bytes of its ML-DSA-65 signature are free (R403, log 178). -/
def State.report (s : State) (nonce : List Byte) : List Byte :=
  let m := s.reportBody nonce
  m ++ ed25519Sign (s.keySeed labelEd) m ++
    fitBytes 3309 (mlDsaSign (s.keySeed labelMl) (mlMessage ctxAttest m) (leBytes 32 s.entropy.toNat)) ++ leBytes 3 0 ++
    fitBytes 64 s.part.endorsement ++ fitBytes 3309 (s.part.endorsement.drop 64) ++ leBytes 3 0

/-- Host command 0x05. -/
def State.attest (s : State) (space a n : Nat) (nonce : List Byte) : State × Status × Nat :=
  let keep := s.host.cmd.resultLength
  if n < reportBytes then (s, .outOfRange, keep)
  else if s.sec.zeroised then (s, .forbidden, keep)
  else
    let q := s.readSource space a 32
    if !(readGave q.2) then (q.1, q.2, keep)
    else match s.writeFault space a reportBytes with
      | some st => (q.1, st, keep)
      | none =>
        let w := (q.1.useFrees 4).spaceWrite 0 space a (q.1.report (s.sourceBytes space a 32 nonce))
        (w.1, worseEcc q.2 w.2, reportBytes)

end Sys2Proof.Machine
end

