-- ==== Sys2Proof/Machine/HostCmd.lean ====
section
/-!
DEFINITION. The host command block: accepting a CMD write, carrying the command out, and its completion (R79, R319, R385,
R399, R400).
-/

namespace Sys2Proof.Machine

open Sys2Proof

/-- CMD values. -/
def cmdLoad : Nat := 1
def cmdSave : Nat := 2
def cmdRestore : Nat := 3
def cmdFirmware : Nat := 4
def cmdAttest : Nat := 5
def cmdBootOther : Nat := 6

/-- Commands that are accepted only while no take is open and TAKE_CONTROL is STOP (R79, R400). -/
def cmdWantsStop (cmd : Nat) : Bool := cmd == cmdSave || cmd == cmdRestore || cmd == cmdFirmware || cmd == cmdBootOther

/-- CMD_SPACE fits the command (R319). -/
def cmdSpaceOk (cmd space : Nat) : Bool :=
  if cmd = cmdLoad then space == 1 else if cmd = cmdBootOther then true else space == 1 || space == 2

/-- The status with which a command ends at once, if it does. -/
def State.cmdRefusal (s : State) (cmd : Nat) : Option Status :=
  let space := s.host.cmd.space
  if s.rst.recovery && !(cmd == cmdFirmware && space != 1) then some .notReady
  else if !(decide (1 ≤ cmd ∧ cmd ≤ 6)) then some .malformed
  else if decide (cmd ≤ 3) && decide (s.obj Obj.deviceState ≠ 0) then some .notReady
  else if cmdWantsStop cmd && !s.stopped then some .notReady
  else if !(cmdSpaceOk cmd space) then some .malformed
  else none

/-- BOOT_OTHER_ONCE sets its latch (R400). -/
def State.latchOther (s : State) : State := { s with sec := { s.sec with otherOnce := some s.otherSlot } }

/-- Carry a command out: the new state, the status and RESULT_LENGTH. -/
def State.runCommand (s : State) (cmd space a n : Nat) (data : List Byte) : State × Status × Nat :=
  let keep := s.host.cmd.resultLength
  if cmd = cmdLoad then ((s.loadReel a).1, (s.loadReel a).2, keep)
  else if cmd = cmdSave then s.saveContext space a n
  else if cmd = cmdRestore then ((s.restoreContext space a n data).1, (s.restoreContext space a n data).2, keep)
  else if cmd = cmdFirmware then ((s.writeFirmware space a n data).1, (s.writeFirmware space a n data).2, keep)
  else if cmd = cmdAttest then s.attest space a n data
  else (s.latchOther, .ok, keep)

/-- Keep what the completion of the running command will report. -/
def State.keepResult (s : State) (st : Status) (len : Nat) : State :=
  { s with host := { s.host with cmd := { s.host.cmd with result := some (st, len), waiting := none, data := [] } } }

/-- A command that reads host memory waits for the data. -/
def cmdReadsHost (cmd space : Nat) : Bool := space == 2 && decide (3 ≤ cmd ∧ cmd ≤ 5)

/-- Keep the command and its operands until its data has come. -/
def State.awaitData (s : State) (cmd : Nat) (data : List Byte) : State :=
  { s with host := { s.host with cmd := { s.host.cmd with
      waiting := some (cmd, s.host.cmd.addr, s.host.cmd.length), data := data, result := none } } }

/-- Note a refused context command (R419). -/
def State.noteRefusedCommand (s : State) (cmd : Nat) (st : Status) : State :=
  if cmd = cmdSave ∨ cmd = cmdRestore then s.refuseContext st else s

/-- BUSY is set. -/
def State.markBusy (s : State) : State := { s with host := { s.host with cmd := { s.host.cmd with busy := true } } }

/-- An accepted CMD write: a command whose operands lie in the part is carried out, and one that reads host memory waits
for the data (log 64). -/
def State.acceptCommand (s : State) (cmd : Nat) (data : List Byte) : State :=
  let c := s.host.cmd
  match s.cmdRefusal cmd with
  | some st => (s.noteRefusedCommand cmd st).keepResult st c.resultLength
  | none =>
    if cmdReadsHost cmd c.space then s.awaitData cmd data
    else
      let r := s.runCommand cmd c.space c.addr c.length data
      r.1.keepResult r.2.1 r.2.2

/-- A CMD write (R319): ignored and logged while BUSY is 1. -/
def State.writeCmd (s : State) (cmd : Nat) (data : List Byte) : State :=
  if s.host.cmd.busy then s.busyIgnored else s.markBusy.acceptCommand cmd data

/-- A CMD write by the host, where the BARs answer. -/
def State.hostCommand (s : State) (cmd : Nat) (data : List Byte) : State :=
  if !s.barOpen then s.unsupportedWrite else (s.wakeBlock .hostPort).writeCmd cmd data

/-- LOAD_REEL (R59). -/
def execLoadReel (s : State) : Host.Outcome State Fault Refusal := .next (s.hostCommand cmdLoad [])

/-- SAVE_CONTEXT (R79). -/
def execSaveContext (s : State) : Host.Outcome State Fault Refusal := .next (s.hostCommand cmdSave [])

/-- RESTORE_CONTEXT (R79). -/
def execRestoreContext (s : State) : Host.Outcome State Fault Refusal := .next (s.hostCommand cmdRestore [])

/-- WRITE_FIRMWARE (R400). -/
def execWriteFirmware (data : List Byte) (s : State) : Host.Outcome State Fault Refusal :=
  .next (s.hostCommand cmdFirmware data)

/-- ATTEST (R403). -/
def execAttest (s : State) : Host.Outcome State Fault Refusal := .next (s.hostCommand cmdAttest [])

/-- BOOT_OTHER_ONCE (R400). -/
def execBootOtherOnce (s : State) : Host.Outcome State Fault Refusal := .next (s.hostCommand cmdBootOther [])

/-- The data of a waiting command has come: it is carried out. -/
def State.runWaiting (s : State) : State :=
  match s.host.cmd.waiting with
  | some (cmd, a, n) =>
    let r := s.runCommand cmd 2 a n s.host.cmd.data
    r.1.keepResult r.2.1 r.2.2
  | none => s

/-- Completion: CMD_STATUS and RESULT_LENGTH are set, BUSY clears, and one event is raised in G1 (R319). -/
def State.reportCommand (s : State) (st : Status) (len : Nat) : State :=
  { s with host := { s.host with cmd := { s.host.cmd with
      busy := false, status := statusCode st, resultLength := len, result := none, waiting := none, data := [] } } }.event
    0x02B (unitOf 0x8 0) st 0

/-- HOST_COMMAND_COMPLETE (R319). A command that reads host memory waits while the function is in D3hot (R306). -/
def execHostCommandComplete (s : State) : Host.Outcome State Fault Refusal :=
  let t := s.runWaiting
  .next (match s.host.cmd.waiting.isSome && !s.dmaOpen, t.host.cmd.busy, t.host.cmd.result with
    | false, true, some (st, len) => t.reportCommand st len
    | _, _, _ => s)

end Sys2Proof.Machine
end

