-- ==== Sys2Proof/Machine/Rings.lean ====
section
/-!
DEFINITION. The ingest rings, the answer ring and the publication of answers, and host reads that fail (R52 to R54, R306,
R312 to R316, R318, R322).
-/

namespace Sys2Proof.Machine

open Sys2Proof

/-! ## Ingest ring blocks (R312) -/

/-- A ring. -/
def State.ring (s : State) (r : Nat) : Ring := Tab.read s.host.rings Ring.reset r

/-- Replace a ring. -/
def State.setRing (s : State) (r : Nat) (x : Ring) : State :=
  { s with host := { s.host with rings := Tab.put s.host.rings r x } }

/-- The distance from one index to a later one, modulo 2^32. -/
def indexDistance (lo hi : Nat) : Nat := (hi + 2 ^ 32 - lo % 2 ^ 32) % 2 ^ 32

/-- The unit of a ring (R416). -/
def ringUnit (r : Nat) : Nat := unitOf 0x7 r

/-- R312: stop a ring. -/
def State.stopRing (s : State) (r : Nat) : State :=
  (s.setRing r { s.ring r with enable := false, status := statusCode .malformed }).event 0x028 (ringUnit r) .malformed 0

/-- A TAIL write (R312): one that names more descriptors than the ring holds stops the ring and is not taken (log 65). -/
def State.writeTail (s : State) (r v : Nat) : State :=
  let x := s.ring r
  if 2 ^ x.sizeLog2 < indexDistance x.head v then s.stopRing r else s.setRing r { x with tail := v }

/-- An ENABLE write (R312): a restart clears the status that stopped the ring (log 65). -/
def State.writeEnable (s : State) (r : Nat) (on : Bool) : State :=
  let x := s.ring r
  s.setRing r { x with enable := on, status := if on && !x.enable then statusCode .ok else x.status }

/-- INGEST_TAIL_WRITE (R312). -/
def execIngestTailWrite (ring value : Nat) (s : State) : Host.Outcome State Fault Refusal :=
  let t := s.wakeBlock .hostPort
  .next (if !t.barOpen then t.unsupportedWrite
    else if ring < 8 then t.writeTail ring (value % 2 ^ 32) else t)

/-- INGEST_ENABLE_WRITE (R312). -/
def execIngestEnableWrite (ring : Nat) (enable : Bool) (s : State) : Host.Outcome State Fault Refusal :=
  let t := s.wakeBlock .hostPort
  .next (if !t.barOpen then t.unsupportedWrite else if ring < 8 then t.writeEnable ring enable else t)

/-! ## Ingest descriptors (R313) -/

/-- Fields of a descriptor. -/
def ingHostAddr (d : BitVec 256) : Nat := bitsOf d.toNat 63 0
def ingHbmAddr (d : BitVec 256) : Nat := bitsOf d.toNat 111 64
def ingLength (d : BitVec 256) : Nat := bitsOf d.toNat 159 128
def ingWafer (d : BitVec 256) : Nat := bitsOf d.toNat 175 160
def ingKind (d : BitVec 256) : Nat := bitsOf d.toNat 177 176
def ingSignal (d : BitVec 256) : Bool := bitAt d.toNat 178
def ingFlag (d : BitVec 256) : Nat := bitsOf d.toNat 201 192
def ingTile (d : BitVec 256) : Nat := bitsOf d.toNat 215 208

/-- The first check of R313 that a descriptor fails. A FLAG of ten bits is always below 1,024. -/
def State.ingestFault (s : State) (d : BitVec 256) : Option Status :=
  let v := s.part.variant
  firstFault [
    need (decide (ingKind d ≠ 3) && zeroAt d.toNat 127 112 && zeroAt d.toNat 191 179 && zeroAt d.toNat 207 202) .malformed,
    need (!(ingSignal d) || (s.reels.active.isSome && decide (ingTile d < s.budget))) .outOfRange,
    need (decide (0 < ingLength d)) .zeroWork, need (hbmInRange v (ingHbmAddr d) (ingLength d)) .unmapped,
    need (!(meetsReserved v (ingHbmAddr d) (ingLength d)) && !(s.meetsDuplexCopy (ingHbmAddr d) (ingLength d))) .forbidden]

/-- A ring may start its next descriptor: enabled, DMA open, fewer than eight in flight, and one published. -/
def State.ringReady (s : State) (x : Ring) : Bool :=
  x.enable && s.dmaOpen && decide (x.inFlight.length < 8) && decide (x.inFlight.length < indexDistance x.head x.tail)

/-- The host address of a descriptor of a ring (R312). -/
def Ring.slotAddr (x : Ring) (i : Nat) : Nat := x.base + 32 * (i % 2 ^ x.sizeLog2)

/-- Start the next descriptor of a ring: it is read and checked, and a good one's data is asked for. -/
def State.startDescriptor (s : State) (r : Nat) (d : BitVec 256) : State :=
  let x := s.ring r
  let i := (x.head + x.inFlight.length) % 2 ^ 32
  let v := (s.ingestFault d).getD .ok
  let t := (s.setRing r { x with inFlight := x.inFlight ++ [{ desc := d, index := i, verdict := v }] }).emit
    (.hostRead (x.slotAddr i) 32)
  if v = .ok then t.emitReads (ingHostAddr d) (ingLength d) else t

/-- INGEST_DESCRIPTOR (R313). -/
def execIngestDescriptor (ring : Nat) (desc : BitVec 256) (s : State) : Host.Outcome State Fault Refusal :=
  .next (if decide (ring < 8) && s.ringReady (s.ring ring) then (s.wakeBlock .hostPort).startDescriptor ring desc else s)

/-! ## Completion of a descriptor (R314, R315) -/

/-- R315: add a wafer to the open take's list. -/
def State.addWafer (s : State) (w : Nat) : State :=
  let n := s.obj Obj.lineTakeNumber
  { s with take := { s.take with answers := s.take.answers.map (fun a =>
      if a.take = n ∧ !a.closed ∧ w ∉ a.wafers then
        { a with wafers := a.wafers ++ [w], toPublish := a.toPublish ++ [w] } else a) } }

/-- TAKE_NUMBER of a write-back: the open take; with none open a free value (log 4). -/
def State.ingestTake (s : State) : Nat :=
  if s.takeOpen then s.obj Obj.lineTakeNumber else s.freeNow.toNat % 2 ^ 32

/-- A descriptor's flag is added: its data has landed, or there was none to land (R313, R314; log 66). -/
def ingestSignals (st : Status) : Bool := st == .ok || st == .eccRecovered || st == .eccLost || st == .zeroWork


/-- Step 2 of R314. -/
def State.ingestFlag (s : State) (d : BitVec 256) (st : Status) : State :=
  if ingSignal d && ingestSignals st then s.addFlag (ingTile d) (ingFlag d) 1 else s

/-- Steps 3 and 4 of R314. -/
def State.ingestWriteBack (s : State) (r : Nat) (f : InFlight) (st : Status) : State :=
  let x := s.ring r
  let head := (x.head + 1) % 2 ^ 32
  let t := ((s.useFree.setRing r { x with head := head, inFlight := x.inFlight.drop 1 }).emit
    (.hostWrite (x.slotAddr f.index + 27) (leBytes 1 (statusCode st) ++ leBytes 4 s.ingestTake)))
  if x.headWb = 0 then t else t.emit (.hostWrite x.headWb (leBytes 4 head))

/-- The entry of a descriptor that failed a check (R313, R419). -/
def State.ingestLog (s : State) (r : Nat) (f : InFlight) (st : Status) : State :=
  if st = .malformed ∨ st = .outOfRange ∨ st = .unmapped ∨ st = .forbidden then s.log 0x213 (ringUnit r) st f.index else s

/-- What a completed descriptor means for the open take (R315, R411). -/
def State.ingestJudge (s : State) (d : BitVec 256) (st : Status) : State :=
  if !s.takeOpen then s
  else if st == .ok && ingKind d == 0 then s.addWafer (ingWafer d)
  else if statusFails st || st == .eccLost then s.failTake
  else s

/-- R314: complete the oldest descriptor of a ring, whose data writes have been acknowledged. -/
def State.completeDescriptor (s : State) (r : Nat) (f : InFlight) (st : Status) : State :=
  ((((s.ingestFlag f.desc st).ingestWriteBack r f st).ingestLog r f st).event (0x020 + r) (ringUnit r) st 0).ingestJudge
    f.desc st

/-- The oldest descriptor of a ring, with its data: a good one writes HBM; one that failed a check carries none. -/
def State.ingestOldest (s : State) (r : Nat) (f : InFlight) (data : List Byte) : State :=
  if f.verdict ≠ .ok then s.completeDescriptor r f f.verdict
  else if data.length = ingLength f.desc then
    let w := s.hbmWriteChecked (ingHbmAddr f.desc) data
    w.1.completeDescriptor r f w.2
  else s

/-- INGEST_COMPLETE (R314). In D3hot HEAD holds (R306). -/
def execIngestComplete (ring : Nat) (data : List Byte) (s : State) : Host.Outcome State Fault Refusal :=
  .next (match (s.ring ring).inFlight with
    | f :: _ => if decide (8 ≤ ring) || !s.dmaOpen then s else s.ingestOldest ring f data
    | [] => s)

/-! ## Host reads that fail (R313, R318, R322) -/

/-- The bytes that had landed before the read failed stay written; how many is a free value (log 4, log 11). -/
def State.partialData (s : State) (d : BitVec 256) : State :=
  let n := s.freeNow.toNat % (ingLength d + 1)
  (s.useFree.hbmWriteChecked (ingHbmAddr d) ((List.range n).map (fun i => Config.hostByte s.free (ingHostAddr d + i)))).1

/-- The oldest descriptor of a ring ends with HOST_ABORT; in D3hot, where HEAD holds, it ends so after the return to D0
(R306). -/
def State.abortDescriptor (s : State) (r : Nat) : Option State :=
  match (s.ring r).inFlight with
  | f :: fs =>
    if f.verdict ≠ .ok then none
    else
      let a := s.partialData f.desc
      some (if s.dmaOpen then a.completeDescriptor r f .hostAbort
        else a.setRing r { a.ring r with inFlight := { f with verdict := .hostAbort } :: fs })
  | [] => none

/-- The MOVE from SPACE 2 that a logical tile runs: its physical tile, its entry and its destination. -/
def State.hostMove (s : State) (l : Nat) : Option (Nat × QEntry × Desc) :=
  match s.startable l (fun x => recOpcode x == opMove) with
  | some (p, e) =>
    let a := s.desc p (recOp e.x 64)
    let b := s.desc p (recOp e.x 80)
    if (s.preStatus l e).isNone && s.canStart l p e && a.space == 2 && !(a.headOk && a.isEmpty) &&
        (s.descFault a false [0, 1, 2]).isNone && (s.descFault b true [0, 1, 2]).isNone && moveShapeOk e.x a b &&
        !(moveTooLong e.x a b)
    then some (p, e, b) else none
  | none => none

/-- The MOVE completes with HOST_ABORT, its destination unspecified (R75, R318). -/
def State.abortMove (s : State) (l : Nat) : Option State :=
  match s.hostMove l with
  | some (p, e, b) => some (State.complete l p s.freeCycles e (Done.only (s.useFree.smear p b) .hostAbort))
  | none => none

/-- The running host command ends with HOST_ABORT. -/
def State.abortCommand (s : State) : Option State :=
  if s.host.cmd.waiting.isSome then some (s.keepResult .hostAbort s.host.cmd.resultLength) else none

/-- The request that a failed read belongs to ends with HOST_ABORT; none where no such read is outstanding. -/
def State.abortRead (s : State) (read : HostRead) : Option State :=
  match read with
  | .ring r => if r < 8 then s.abortDescriptor r else none
  | .moveOf l => s.abortMove l
  | .command => s.abortCommand

/-- COMPLETION_TIMEOUT (R322): AER Completion Timeout, and one entry (log 67). -/
def execCompletionTimeout (read : HostRead) (s : State) : Host.Outcome State Fault Refusal :=
  .next (match (s.tlpViolation 5).abortRead read with
    | some t => t
    | none => s)

/-- ERROR_COMPLETION (R322): no AER report, and one entry. -/
def execErrorCompletion (read : HostRead) (s : State) : Host.Outcome State Fault Refusal :=
  .next (match (s.log 0x215 (unitOf 0x8 0) .hostAbort 0).abortRead read with
    | some t => t
    | none => s)

/-! ## Answers (R52 to R54, R316) -/

/-- The take whose answers come next, and the least wafer it has still to publish (R53). A wafer ingested after a higher one
was published comes next all the same (log 149). -/
def State.nextAnswer (s : State) : Option (TakeAnswers × Nat) :=
  match s.take.answers.find? (fun a => !(a.toPublish.isEmpty)) with
  | some a => (listMin? a.toPublish).map (fun w => (a, w))
  | none => none

/-- Bits 55 to 48 of a record. -/
def State.answerFlags (s : State) (a : TakeAnswers) : Nat :=
  (if s.recordValid a then 1 else 0) + (if a.closed then 0 else 2) + s.obj Obj.shedLevel % 4 * 4 + (if s.recordMasked a then 16 else 0) +
    (if a.selfSlated then 32 else 0) + (if a.lateAnchored then 64 else 0)

/-- MODEL_ID; with no reel active a free value (log 4). -/
def State.answerModel (s : State) : Nat :=
  match s.reels.active with
  | some r => r.modelId
  | none => (Config.freeValue (s.free + 1)).toNat % 2 ^ 16

/-- The fields of a record in the order of R52, CRC apart. VERDICT_CLASS, CONFIDENCE and RESULT_VALUE come from output
tensors that the spec does not say how a reel designates: free values (log 68). -/
def State.answerFields (s : State) (a : TakeAnswers) (w : Nat) : List (Nat × Nat) :=
  let f := s.freeNow.toNat
  [(4, a.take), (2, w), (1, s.answerFlags a), (1, f % 2 ^ 8), (2, bitsOf f 23 8), (2, s.answerModel), (4, s.reported),
   (8, s.time.tb), (4, bitsOf f 55 24)]

/-- Bytes 0 to 27 of a record. -/
def State.answerBody (s : State) (a : TakeAnswers) (w : Nat) : List Byte :=
  (s.answerFields a w).flatMap (fun q => leBytes q.1 q.2)

/-- The record of R52. -/
def State.answerRecord (s : State) (a : TakeAnswers) (w : Nat) : List Byte :=
  s.answerBody a w ++ leBytes 4 (crc32c (s.answerBody a w)).toNat

/-- R54: the values of subindices 01 to 0A. -/
def State.answerValues (s : State) (a : TakeAnswers) (w : Nat) : List Nat :=
  (s.answerFields a w).map (fun q => q.2) ++ [(crc32c (s.answerBody a w)).toNat]

/-- Put a record into the ten subindices of an answer object. -/
def State.putAnswer (s : State) (index : Nat) (vs : List Nat) : State :=
  vs.zipIdx.foldl (fun (t : State) q => t.setObj (objKey index (q.2 + 1)) q.1) s

/-- The record finds room in the answer ring (R306, R316). -/
def State.answerRoom (s : State) : Bool :=
  let r := s.host.answers
  r.enable && s.dmaOpen && decide (indexDistance r.readIndex r.writeIndex ≠ 2 ^ r.sizeLog2)

/-- R316: write a record to the answer ring, or count it in OVERFLOWS. -/
def State.ringAnswer (s : State) (rec : List Byte) : State :=
  let r := s.host.answers
  let i := (r.writeIndex + 1) % 2 ^ 32
  if s.answerRoom then
    let t := { s.wakeBlock .hostPort with host := { s.host with answers := { r with writeIndex := i } } }.emit
      (.hostWrite (r.base + 32 * (r.writeIndex % 2 ^ r.sizeLog2)) rec)
    (if r.indexWb = 0 then t else t.emit (.hostWrite r.indexWb (leBytes 4 i))).event 0x029 (unitOf 0x8 0) .ok 0
  else { s with host := { s.host with answers := { r with overflows := (r.overflows + 1) % 2 ^ 32 } } }.event 0x02A
    (unitOf 0x8 0) .ok 0

/-- The counts of R361 for a published record. -/
def State.countAnswer (s : State) (a : TakeAnswers) : State :=
  if !a.closed then { s with take := { s.take with
    published := s.take.published + 1, publishedInvalid := s.take.publishedInvalid + (if s.recordValid a then 0 else 1) } }
  else if s.takeOpen then { s with take := { s.take with latePublished := s.take.latePublished + 1 } }
  else s

/-- The wafer has its record. -/
def State.dropWafer (s : State) (take w : Nat) : State :=
  { s with take := { s.take with answers := s.take.answers.map (fun b =>
      if b.take = take then { b with toPublish := b.toPublish.erase w } else b) } }

/-- Publish the record of one wafer. -/
def State.publish (s : State) (a : TakeAnswers) (w : Nat) : State :=
  let vs := s.answerValues a w
  let t := { (s.ringAnswer (s.answerRecord a w)) with free := s.free + 2 }
  (((t.putAnswer (0x6000 + w % 256) vs).putAnswer 0x6100 vs).countAnswer a).dropWafer a.take w

/-- ANSWER_PUBLISH (R53, R54, R316): the next record in order. -/
def execAnswerPublish (dt : Nat) (s : State) : Host.Outcome State Fault Refusal :=
  let t := s.advance dt
  .next (match t.nextAnswer with
    | some (a, w) => t.publish a w
    | none => t)

end Sys2Proof.Machine
end

