-- ==== Sys2Proof/Machine/Bar.lean ====
section
/-!
DEFINITION. The BARs of the host port: the blocks of BAR0, the dictionary mailbox of BAR4, the HBM window of BAR2, and the
events of the port (R302 to R312, R316, R317, R319, R321, R322, R338, R339).
-/

namespace Sys2Proof.Machine

open Sys2Proof

/-! ## Parts of a block -/

/-- The bytes `off` to `off + size - 1` of a block. -/
def wordPart (w off size : Nat) : Nat := bitsOf w (8 * (off + size) - 1) (8 * off)

/-- A write of `size` bytes at `off` touches the field at bits `hi` to `lo`. -/
def fieldHit (off size hi lo : Nat) : Bool := decide (8 * off ≤ hi) && decide (lo < 8 * (off + size))

/-- The value of a field after a write. -/
def fieldAfter (off size value hi lo old : Nat) : Nat :=
  bitsOf (setBits (old <<< lo) (8 * (off + size) - 1) (8 * off) value) hi lo

/-- A write to a reserved field (R310): it sets bits of one, or it covers nothing but reserved fields (log 69). -/
def reservedSet (off size value : Nat) (spans : List (Nat × Nat)) : Bool :=
  spans.any (fun q => decide (bitsOf (value <<< (8 * off)) q.1 q.2 ≠ 0)) ||
    (List.range (8 * size)).all (fun i => spans.any (fun q => decide (q.2 ≤ 8 * off + i ∧ 8 * off + i ≤ q.1)))

/-- UNIT of the host port with the number of a BAR (R419). -/
def barUnit (bar : Nat) : Nat := unitOf 0x8 bar

/-- A BAR access refused or ignored (R310, R419). -/
def State.barIgnored (s : State) (bar off : Nat) (st : Status) : State := s.log 0x211 (barUnit bar) st off

/-- The entry of a write to reserved bits or of a value outside its range. -/
def State.logIf (s : State) (b : Bool) (bar off : Nat) : State := if b then s.barIgnored bar off .ok else s

/-! ## The blocks as they read -/

/-- The port status block (R309). -/
def State.portWord (s : State) : Nat :=
  s.featureMap + s.host.linkWidth * 2 ^ 32 + s.obj Obj.lineTakeNumber * 2 ^ 64 + s.reported * 2 ^ 96 +
    s.host.windowBase * 2 ^ 128

/-- The host command block (R319); CMD is write-only and reads 0 (log 69). -/
def State.cmdWord (s : State) : Nat :=
  let c := s.host.cmd
  (if c.busy then 2 ^ 8 else 0) + c.status * 2 ^ 16 + c.addr * 2 ^ 32 + c.space * 2 ^ 80 + c.length * 2 ^ 128 +
    c.resultLength * 2 ^ 192

/-- An ingest ring block (R312). -/
def Ring.word (x : Ring) : Nat :=
  x.base + x.sizeLog2 * 2 ^ 64 + (if x.enable then 2 ^ 72 else 0) + x.tail * 2 ^ 96 + x.head * 2 ^ 128 + x.status * 2 ^ 160 +
    x.headWb * 2 ^ 192

/-- The answer ring block (R316). -/
def AnswerRing.word (x : AnswerRing) : Nat :=
  x.base + x.sizeLog2 * 2 ^ 64 + (if x.enable then 2 ^ 72 else 0) + x.writeIndex * 2 ^ 96 + x.readIndex * 2 ^ 128 +
    x.overflows * 2 ^ 160 + x.indexWb * 2 ^ 192

/-- The control block of the mailbox (R338). -/
def MailboxSt.word (m : MailboxSt) : Nat := m.doneTag * 2 ^ 32 + (if m.busy then 2 ^ 64 else 0) + m.status * 2 ^ 72

/-- A completion ring record as the window shows it (R309). -/
def State.windowRecord (s : State) (l k : Nat) : Nat := if l < s.budget then (Tab.read (s.lt l).ring 0 k).toNat else 0

/-- WRITE_INDEX as the window shows it. -/
def State.windowIndex (s : State) (l : Nat) : Nat := if l < s.budget then (s.lt l).writeIndex else 0

/-- A word of the MSI-X table; the last word of an entry holds its mask bit (R321). -/
def State.msixWord (s : State) (w : Nat) : Nat :=
  if w % 4 = 3 then (if s.host.unmaskedVectors.contains (w / 4) then 0 else 1) else Tab.read s.host.msixTable 0 w

/-- The number that consecutive 32-bit words spell. -/
def wordsOf (f : Nat → Nat) (i n : Nat) : Nat := listSum ((List.range n).map (fun j => f (i + j) * 2 ^ (32 * j)))

/-- An aligned read of BAR0; reserved offsets read 0 (R309, R310). -/
def State.bar0Value (s : State) (off size : Nat) : Nat :=
  if off < 0x40 then wordPart s.portWord off size
  else if 0x1000 ≤ off ∧ off < 0x1040 then wordPart s.cmdWord (off - 0x1000) size
  else if 0x10000 ≤ off ∧ off < 0x10200 then wordPart (s.ring ((off - 0x10000) / 64)).word ((off - 0x10000) % 64) size
  else if 0x20000 ≤ off ∧ off < 0x20040 then wordPart s.host.answers.word (off - 0x20000) size
  else if 0x30000 ≤ off ∧ off < 0x30800 then
    wordPart (Tab.read s.host.segments 0 ((off - 0x30000) / 8)).toNat ((off - 0x30000) % 8) size
  else if 0x100000 ≤ off ∧ off < 0x280000 then
    let o := off - 0x100000
    wordPart (s.windowRecord (o / 0x2000) (o % 0x2000 / 32)) (o % 32) size
  else if 0x280000 ≤ off ∧ off < 0x280300 then wordsOf s.windowIndex ((off - 0x280000) / 4) (size / 4)
  else if 0x400000 ≤ off ∧ off < 0x400400 then wordsOf s.msixWord ((off - 0x400000) / 4) (size / 4)
  else if 0x401000 ≤ off ∧ off < 0x401008 then wordPart (maskOf s.host.msixPending) (off - 0x401000) size
  else 0

/-- Offsets of the request and response buffers in BAR4. -/
def requestStart : Nat := 0x1000
def responseStart : Nat := 0x80000

/-- Bytes of the request buffer. -/
def requestSpace : Nat := 0x7F000

/-- Consecutive bytes of a buffer. -/
def bufferBytes (t : Tab Byte) (off n : Nat) : List Byte := Tab.readList t (fun _ => 0) off n

/-- An aligned read of BAR4 (R338). -/
def State.bar4Value (s : State) (off size : Nat) : Nat :=
  if off < 0x40 then wordPart s.mailbox.word off size
  else if requestStart ≤ off ∧ off < responseStart then leNat (bufferBytes s.mailbox.request (off - requestStart) size)
  else if responseStart ≤ off ∧ off < 0x100000 then leNat (bufferBytes s.mailbox.response (off - responseStart) size)
  else 0

/-! ## Reads -/

/-- Bytes of a BAR. -/
def State.barBytes (s : State) (bar : Nat) : Nat :=
  if bar = 0 then 0x4000000 else if bar = 2 then 2 ^ s.host.bar2Log2 else if bar = 4 then 0x100000 else 0

/-- An access lies inside a BAR that answers. -/
def State.barTakes (s : State) (bar off size : Nat) : Bool := s.barOpen && decide (off + size ≤ s.barBytes bar)

/-- R310: naturally aligned, of 4 or 8 bytes. -/
def barAligned (off size : Nat) : Bool := (size == 4 || size == 8) && off % size == 0

/-- A read answered with Completer Abort: an AER report and one entry (R310, R311, R322). -/
def State.abortBarRead (s : State) (bar off : Nat) (st : Status) : State :=
  ((s.emit .completerAbort).reportAer 6).barIgnored bar off st

/-- A memory read that no BAR takes (R322). -/
def State.unsupportedRead (s : State) : State :=
  if s.linkAlive then (s.emit .unsupportedRequest).tlpViolation 2 else s

/-- A read of the HBM window (R311). -/
def State.windowRead (s : State) (off size : Nat) : State :=
  let a := s.host.windowBase + off
  match s.loadRange a size with
  | some .eccLost => (s.hbmTouch true a size).1.abortBarRead 2 off .eccLost
  | some st => s.abortBarRead 2 off st
  | none => (s.hbmTouch true a size).1.emit (.completion ((List.range size).map (fun i => s.hbmByte true (a + i))))

/-- A read of a completion ring whose tile the CN does not reach: the networks of its die answer with ISOLATED (R266,
R375). -/
def State.ringUnreached (s : State) (bar off : Nat) : Bool :=
  bar == 0 && decide (0x100000 ≤ off ∧ off < 0x280000) && s.hubDown ((off - 0x100000) / 0x2000)

/-- A host read. -/
def State.barRead (s : State) (bar off size : Nat) : State :=
  if !(s.barTakes bar off size) then s.unsupportedRead
  else if bar = 2 then s.windowRead off size
  else if !(barAligned off size) then s.abortBarRead bar off .ok
  else if s.ringUnreached bar off then s.abortBarRead bar off .isolated
  else s.useFree.emit (.completion (leBytes size (if bar = 0 then s.bar0Value off size else s.bar4Value off size)))

/-- BAR_READ (R310, R322). -/
def execBarRead (bar offset size : Nat) (s : State) : Host.Outcome State Fault Refusal :=
  .next ((s.wakeBlock .hostPort).barRead bar offset size)

/-- BAR2_READ (R311). -/
def execBar2Read (offset size : Nat) (s : State) : Host.Outcome State Fault Refusal :=
  .next ((s.wakeBlock .hostPort).barRead 2 offset size)

/-! ## Writes of BAR2 -/

/-- A write of the HBM window (R311): discarded and logged outside the range, in a reserved area or on a duplex copy. -/
def State.windowWrite (s : State) (off : Nat) (bs : List Byte) : State :=
  let a := s.host.windowBase + off
  match s.writeFault 1 a bs.length with
  | some st => s.barIgnored 2 off st
  | none => (s.hbmWrite a bs).1

/-- BAR2_WRITE (R311). -/
def execBar2Write (offset : Nat) (data : List Byte) (s : State) : Host.Outcome State Fault Refusal :=
  .next (let t := s.wakeBlock .hostPort
    if !(t.barTakes 2 offset data.length) then t.unsupportedWrite else t.windowWrite offset data)

/-! ## Writes of the BAR0 blocks (R310) -/

/-- WINDOW_BASE: a multiple of the BAR2 size. -/
def State.writePort (s : State) (off size v : Nat) : State :=
  let t := s.logIf (reservedSet off size v [(63, 37), (511, 176)]) 0 off
  if !(fieldHit off size 175 128) then t
  else
    let w := fieldAfter off size v 175 128 s.host.windowBase
    if w % 2 ^ s.host.bar2Log2 = 0 then { t with host := { t.host with windowBase := w } } else t.barIgnored 0 off .ok

/-- The fields of the command block, CMD apart. -/
def CmdBlock.write (c : CmdBlock) (off size v : Nat) : CmdBlock :=
  { c with
    addr := if fieldHit off size 79 32 then fieldAfter off size v 79 32 c.addr else c.addr,
    space := if fieldHit off size 81 80 then fieldAfter off size v 81 80 c.space else c.space,
    length := if fieldHit off size 191 128 then fieldAfter off size v 191 128 c.length else c.length }

/-- A write of the command block: its fields first, then CMD. -/
def State.writeCmdBlock (s : State) (off size v : Nat) : State :=
  let t := s.logIf (reservedSet off size v [(15, 9), (31, 24), (127, 82), (511, 256)]) 0 (0x1000 + off)
  let u := { t with host := { t.host with cmd := t.host.cmd.write off size v } }
  if fieldHit off size 7 0 then u.writeCmd (fieldAfter off size v 7 0 0) [] else u

/-- BASE and SIZE_LOG2 of a ring in their ranges. -/
def ringFieldsOk (base sizeLog2 : Nat) : Bool := base % 4096 == 0 && decide (4 ≤ sizeLog2 ∧ sizeLog2 ≤ 16)

/-- The configuration of a ring: what a write leaves in BASE, SIZE_LOG2 and the write-back address, whether one of them was
refused because the ring is enabled, and whether one was out of range. -/
structure RingConfig where
  base : Nat
  sizeLog2 : Nat
  wb : Nat
  locked : Bool
  bad : Bool
  deriving DecidableEq, Repr

/-- Write the configuration fields of a ring block (R310, R312, R316). -/
def ringConfig (off size v base sizeLog2 wb : Nat) (enabled : Bool) : RingConfig :=
  let hb := fieldHit off size 63 0
  let hs := fieldHit off size 68 64
  let hw := fieldHit off size 255 192
  let nb := fieldAfter off size v 63 0 base
  let ns := fieldAfter off size v 68 64 sizeLog2
  let okB := ringFieldsOk nb 4
  let okS := ringFieldsOk 0 ns
  { base := if hb && okB && !enabled then nb else base, sizeLog2 := if hs && okS && !enabled then ns else sizeLog2,
    wb := if hw && !enabled then fieldAfter off size v 255 192 wb else wb,
    locked := enabled && ((hb && okB) || (hs && okS) || hw), bad := (hb && !okB) || (hs && !okS) }

/-- Write 0x214 for a locked field. -/
def State.logLocked (s : State) (b : Bool) : State := if b then s.busyIgnored else s

/-- A write of an ingest ring block: configuration, then TAIL, then ENABLE; where TAIL stops the ring, an ENABLE of 1 in
the same write does not restart it (log 65). -/
def State.writeRing (s : State) (r off size v : Nat) : State :=
  let x := s.ring r
  let c := ringConfig off size v x.base x.sizeLog2 x.headWb x.enable
  let t := ((s.logIf (c.bad || reservedSet off size v [(71, 69), (95, 73), (191, 168), (511, 256)]) 0
    (0x10000 + 64 * r + off)).logLocked c.locked).setRing r { x with base := c.base, sizeLog2 := c.sizeLog2, headWb := c.wb }
  let tail := fieldAfter off size v 127 96 x.tail
  let hit := fieldHit off size 127 96
  let u := if hit then t.writeTail r tail else t
  if fieldHit off size 72 72 && !(hit && decide (2 ^ c.sizeLog2 < indexDistance x.head tail))
  then u.writeEnable r (fieldAfter off size v 72 72 (if x.enable then 1 else 0) == 1) else u

/-- A READ_INDEX write (R316). -/
def State.writeReadIndex (s : State) (v off : Nat) : State :=
  let x := s.host.answers
  if 2 ^ x.sizeLog2 < indexDistance v x.writeIndex then s.barIgnored 0 (0x20000 + off) .ok
  else { s with host := { s.host with answers := { x with readIndex := v } } }

/-- A write of the answer ring block. -/
def State.writeAnswers (s : State) (off size v : Nat) : State :=
  let x := s.host.answers
  let c := ringConfig off size v x.base x.sizeLog2 x.indexWb x.enable
  let t := (s.logIf (c.bad || reservedSet off size v [(71, 69), (95, 73), (511, 256)]) 0 (0x20000 + off)).logLocked c.locked
  let u := { t with host := { t.host with answers := { x with base := c.base, sizeLog2 := c.sizeLog2, indexWb := c.wb } } }
  let w := if fieldHit off size 159 128 then u.writeReadIndex (fieldAfter off size v 159 128 x.readIndex) off else u
  if fieldHit off size 72 72 then { w with host := { w.host with answers := { w.host.answers with
      enable := fieldAfter off size v 72 72 (if x.enable then 1 else 0) == 1 } } } else w

/-- A write of a segment table entry: that entry is in force at once with no take open, else at the next opening
(R317). -/
def State.writeSegment (s : State) (i off size v : Nat) : State :=
  let e := (Tab.read s.host.segments 0 i).toNat
  let t := s.logIf (reservedSet off size v [(11, 1)]) 0 (0x30000 + 8 * i + off)
  let n := BitVec.ofNat 64 (setBits (setBits e (8 * (off + size) - 1) (8 * off) v) 11 1 0)
  { t with host := { t.host with
      segments := Tab.store t.host.segments 0 i n,
      segmentsInForce := if t.takeOpen then t.host.segmentsInForce else Tab.store t.host.segmentsInForce 0 i n } }

/-- A write of one word of the MSI-X table (R321); the other bits of an entry's last word are reserved (log 6). -/
def State.writeMsixWord (s : State) (w v : Nat) : State :=
  if w % 4 = 3 then
    let t := s.logIf (decide (2 ≤ v)) 0 (0x400000 + 4 * w)
    if v % 2 = 0 then t.unmaskVector (w / 4) else t.maskVector (w / 4)
  else { s with host := { s.host with msixTable := Tab.store s.host.msixTable 0 w v } }

/-- A write of one or two words of the MSI-X table. -/
def State.writeMsix (s : State) (w size v : Nat) : State :=
  let t := s.writeMsixWord w (v % 2 ^ 32)
  if size = 8 then t.writeMsixWord (w + 1) (v / 2 ^ 32) else t

/-- An aligned write of BAR0 (R310). -/
def State.bar0Write (s : State) (off size v : Nat) : State :=
  if off < 0x40 then s.writePort off size v
  else if 0x1000 ≤ off ∧ off < 0x1040 then s.writeCmdBlock (off - 0x1000) size v
  else if 0x10000 ≤ off ∧ off < 0x10200 then s.writeRing ((off - 0x10000) / 64) ((off - 0x10000) % 64) size v
  else if 0x20000 ≤ off ∧ off < 0x20040 then s.writeAnswers (off - 0x20000) size v
  else if 0x30000 ≤ off ∧ off < 0x30800 then s.writeSegment ((off - 0x30000) / 8) ((off - 0x30000) % 8) size v
  else if 0x100000 ≤ off ∧ off < 0x280300 then s
  else if 0x400000 ≤ off ∧ off < 0x400400 then s.writeMsix ((off - 0x400000) / 4) size v
  else if 0x401000 ≤ off ∧ off < 0x401008 then s
  else s.barIgnored 0 off .ok

/-! ## The mailbox (R338, R339) -/

/-- One entry of a request at an offset of the buffer: its access and the offset after it; none where it overruns. An OP
that is not listed, a reserved bit or a read with data makes the entry MALFORMED. -/
def requestEntry (t : Tab Byte) (off : Nat) : Option (Access × Nat) :=
  let h := leNat (bufferBytes t off 8)
  let n := bitsOf h 63 32
  let next := off + 8 + (n + 7) / 8 * 8
  let op := bitsOf h 3 0
  let good := decide (1 ≤ op ∧ op ≤ 3) && zeroAt h 7 5 && (op == 2 || n == 0)
  if requestSpace < next then none
  else some ({ write := !good || op == 2, describe := !good || op == 3, complete := bitAt h 4, index := bitsOf h 31 16,
               sub := bitsOf h 15 8, data := bufferBytes t (off + 8) n }, next)

/-- The entries of a request; none where they overrun the buffer. -/
def requestEntries (t : Tab Byte) : Nat → Nat → Option (List Access)
  | 0, _ => some []
  | n + 1, off =>
    match requestEntry t off with
    | none => none
    | some (a, next) => (requestEntries t n next).map (fun as => a :: as)

/-- A request in the buffer. -/
def State.startRequest (s : State) (tag : Nat) : State :=
  let h := leNat (bufferBytes s.mailbox.request 0 8)
  let t := { s with mailbox := { s.mailbox with busy := true } }
  if !(zeroAt h 63 16) then t.completeRequest tag .malformed t.mailbox.response
  else if h = 0 then t.completeRequest tag .zeroWork (Tab.storeList t.mailbox.response 0 0 (leBytes 8 0))
  else match requestEntries s.mailbox.request (bitsOf h 15 0) 8 with
    | none => t.completeRequest tag .malformed t.mailbox.response
    | some as => t.enqueueJob { path := .pcie, tag := tag, todo := as, answers := [] }

/-- A DOORBELL write (R339). -/
def State.writeDoorbell (s : State) (tag : Nat) : State :=
  if s.mailbox.busy then s.busyIgnored else s.startRequest (tag % 2 ^ 32)

/-- DOORBELL (R339). -/
def execDoorbell (tag : Nat) (s : State) : Host.Outcome State Fault Refusal :=
  let t := s.wakeBlock .hostPort
  .next (if !t.barOpen then t.unsupportedWrite else t.writeDoorbell tag)

/-- An aligned write of BAR4 (R338); the response buffer is written by the part alone (log 69). -/
def State.bar4Write (s : State) (off size v : Nat) : State :=
  if off < 0x40 then
    let t := s.logIf (reservedSet off size v [(71, 65), (511, 80)]) 4 off
    if fieldHit off size 31 0 then t.writeDoorbell (fieldAfter off size v 31 0 0) else t
  else if requestStart ≤ off ∧ off < responseStart then
    { s with mailbox := { s.mailbox with
        request := Tab.storeList s.mailbox.request 0 (off - requestStart) (leBytes size v) } }
  else if responseStart ≤ off ∧ off < 0x100000 then s
  else s.barIgnored 4 off .ok

/-! ## REGISTER_WRITE -/

/-- A host write of a BAR. -/
def State.barWrite (s : State) (bar off size value : Nat) : State :=
  let v := value % 2 ^ (8 * size)
  if !(s.barTakes bar off size) then s.unsupportedWrite
  else if bar = 2 then s.windowWrite off (leBytes size v)
  else if !(barAligned off size) then s.barIgnored bar off .ok
  else if bar = 0 then s.bar0Write off size v
  else s.bar4Write off size v

/-- The first part of a segmented SDO download is buffered (R328). -/
def State.openDownload (s : State) (a : Access) : State :=
  if !s.coeOpen || s.server.halted then s
  else { s.wakeBlock .ecatController with ecat := { s.ecat with segment := some a } }.emit .sdoContinue

/-- An SDO download in one part; it ends a segmented one. -/
def State.wholeDownload (s : State) (a : Access) : State :=
  { s with ecat := { s.ecat with segment := none } }.coeAccess { a with write := true, describe := false }


/-! ## The port -/

/-- The attribute bits of a BAR: each is 64-bit (binary 10 at bits 2 to 1), and BAR2 is prefetchable (bit 3) (R308). -/
def barAttributes (n : Nat) : Nat := if n = 2 then 0xC else if n = 0 ∨ n = 4 then 0x4 else 0

/-- A field of the configuration space as it reads (R302, R303, R306, R308, R321; log 159). -/
def State.configValue (s : State) : ConfigField → Nat
  | .identity => s.view 0x2000 0x01 + s.part.variant.partNumber * 2 ^ 16
  | .command => if s.host.memSpace then 2 else 0
  | .classCode => 0x120000
  | .bar n => barAttributes n
  | .maxPayload => s.host.maxPayload
  | .maxRead => s.host.maxRead
  | .aerSeverity => s.host.aerSeverity
  | .bar2Size => s.host.bar2Log2 - 20
  | .msix => if s.host.functionMask then 2 ^ 14 else 0
  | .power => 8 + (if s.host.d3hot then 3 else 0)

/-- The function mask (R321): where it is cleared, each pending vector that is open sends its message. -/
def State.writeFunctionMask (s : State) (on : Bool) : State :=
  let a := { s with host := { s.host with functionMask := on } }
  if on then a else a.sendAllPending

/-- A new size of BAR2 keeps WINDOW_BASE a multiple of it (log 159). -/
def HostSt.resizeBar2 (h : HostSt) (log2 : Nat) : HostSt :=
  { h with bar2Log2 := log2, windowBase := h.windowBase - h.windowBase % 2 ^ log2 }

/-- A write of a configuration field. A value that the field does not have, and a field that is read-only, changes
nothing; the power state changes by the rows D3HOT_ENTRY and D0_RETURN. -/
def State.configWrite (s : State) (f : ConfigField) (v : Nat) : State :=
  match f with
  | .command => { s with host := { s.host with memSpace := bitAt v 1 } }
  | .maxPayload => if v ≤ 2 then { s with host := { s.host with maxPayload := v } } else s
  | .maxRead => if v ≤ 5 then { s with host := { s.host with maxRead := v } } else s
  | .aerSeverity => { s with host := { s.host with aerSeverity := v % 2 ^ 32 } }
  | .bar2Size => if 10 ≤ v ∧ v ≤ 16 then { s with host := s.host.resizeBar2 (v + 20) } else s
  | .msix => s.writeFunctionMask (bitAt v 14)
  | .identity => s
  | .classCode => s
  | .bar _ => s
  | .power => s

/-- An accepted configuration request. -/
def State.configAccess (s : State) (a : ConfigAccess) : State :=
  match a.write with
  | some v => (s.configWrite a.field v).emit .configAccepted
  | none => s.emit (.configData (s.configValue a.field))

/-- A configuration request: retried until the part is ready, then accepted (R304). -/
def State.configRequest (s : State) (a : ConfigAccess) : State :=
  if !s.linkAlive then s
  else if s.rst.ready then (s.wakeBlock .hostPort).configAccess a
  else ((s.wakeBlock .hostPort).emit .requestRetry).log 0x212 (unitOf 0x8 0) .ok 0

/-- CONFIG_REQUEST (R303, R304). The row gives no field: it reads the first word, the IDs; an access to any field is a
target of REGISTER_WRITE (log 158). -/
def execConfigRequest (s : State) : Host.Outcome State Fault Refusal :=
  .next (s.configRequest { field := .identity, write := none })

/-- The entry into Standby starts, if the part is stopped and active (R306, R383). -/
def State.enterStandby (s : State) : State :=
  if s.stopped && decide (s.obj Obj.deviceState = 0) then s.setObj Obj.deviceState 1 else s

/-- D3HOT_ENTRY (R306). -/
def execD3hotEntry (s : State) : Host.Outcome State Fault Refusal :=
  let s := s.wakeBlock .hostPort
  .next (if !s.rst.ready || s.host.d3hot then s
    else { s with host := { s.host with d3hot := true } }.enterStandby)

/-- D0_RETURN (R306, R384). -/
def execD0Return (s : State) : Host.Outcome State Fault Refusal :=
  let s := s.wakeBlock .hostPort
  .next (if !s.host.d3hot then s
    else ({ s with host := { s.host with d3hot := false } }.sendAllPending).writePower 2)

/-- LINK_DEGRADE (R305): the port never retrains to a wider width before the next reset. With 0 for the width that works, no
width does, and the link is gone until the next reset: no DMA, no answer ring, no ingest (R412, log 184). -/
def execLinkDegrade (width : Nat) (s : State) : Host.Outcome State Fault Refusal :=
  .next (if [0, 1, 2, 4, 8].contains width && decide (width < s.host.linkWidth) then
    { s with host := { s.host with linkWidth := width, widest := width, linkLost := decide (width = 0) } }.event 0x040
      (unitOf 0x8 0) .ok width else s)

/-- MALFORMED_TLP (R322). -/
def execMalformedTlp (s : State) : Host.Outcome State Fault Refusal := .next (s.tlpViolation 1)

/-- POISONED_WRITE (R322). -/
def execPoisonedWrite (s : State) : Host.Outcome State Fault Refusal := .next (s.tlpViolation 3)

/-- UNEXPECTED_COMPLETION (R322). -/
def execUnexpectedCompletion (s : State) : Host.Outcome State Fault Refusal := .next (s.tlpViolation 4)

end Sys2Proof.Machine
end

