-- ==== Sys2Proof/Machine/Ecat.lean ====
section
/-!
DEFINITION. The EtherCAT controller: SYNC0 and the discipline of TB_COUNT, process data, the state machine, FoE and SII
(R20, R21, R25, R27, R28, R331 to R337, R377).
-/

namespace Sys2Proof.Machine

open Sys2Proof

/-- AL states. -/
def alInit : Nat := 1
def alPreop : Nat := 2
def alBoot : Nat := 3
def alSafeop : Nat := 4
def alOp : Nat := 8

/-- The unit of the controller (R416). -/
def ecatUnit : Nat := unitOf 0x9 0

/-! ## TB_COUNT and distributed clocks (R21) -/

/-- The value that distributed clocks give TB_COUNT: 3.6 counts per nanosecond, cut to whole counts (log 143). -/
def dcCount (dcTime : Nat) : Nat := dcTime * 18 / 5

/-- The largest difference that is slewed away. -/
def slewLimit : Nat := 36000

/-- TB_COUNT is set to the DC value, counted, and one event is raised in G3. The instants that the part keeps are not
shifted with it (log 144). -/
def State.stepTb (s : State) (target : Nat) : State :=
  ({ s with time := { s.time with tb := target % 2 ^ 64, slewLeft := 0, slewPhase := 0 } }.incObj Obj.tbSteps).event 0x060
    (unitOf 0xE 0) .ok 0

/-- R21 at a SYNC0 event. -/
def State.discipline (s : State) (dcTime : Nat) : State :=
  let diff : Int := (dcCount dcTime : Int) - s.time.tb
  let t := { s with time := { s.time with dcActive := true } }
  if !s.time.running then t
  else if diff.natAbs ≤ slewLimit then { t with time := { t.time with slewLeft := diff } }
  else t.stepTb (dcCount dcTime)

/-! ## The latch of R27 -/

/-- The last instant up to now at which the rate limit let the integer part rise. -/
def State.lastRise (s : State) : Nat :=
  let i0 := s.time.plantHeld / 2 ^ 16
  let i := s.plantPosition s.time.tb / 2 ^ 16
  let r := s.plantFirstRise + (i - i0 - 1) * s.advMinTb
  if i = i0 then s.time.plantLimitTb
  else if s.plantLimited s.time.tb then r
  else max (s.plantCrossing i) r

/-- The plant position at which the take opened: found at its first latch where it is not known (log 36). -/
def State.plantOrigin (s : State) : Nat := s.time.plantBase.getD (s.obj Obj.plantPosition)

/-- How often 65,536 wafers have been added, this latch included (R25). -/
def State.plantTurns (s : State) : Nat :=
  let raw := s.obj Obj.plantPosition
  if s.time.plantValid then s.time.plantWraps + (if raw + 2 ^ 31 < s.time.plantPrev then 1 else 0)
  else if raw + 2 ^ 31 < s.plantOrigin then 1 else 0

/-- The unsaturated position that this latch gives. -/
def State.plantLatched (s : State) : Nat := s.obj Obj.plantPosition + s.plantTurns * 2 ^ 32 - s.plantOrigin

/-- Latch PLANT_POSITION in the open take. -/
def State.latchPosition (s : State) : State :=
  let v := s.plantLatched
  let x := s.time
  { s.countLimited with time := { s.countLimited.time with
      plantValid := true, plantPrev := s.obj Obj.plantPosition, plantWraps := s.plantTurns, plantBase := some s.plantOrigin,
      plantPos := v, plantAdvance := if x.plantValid then v - x.plantPos else 0,
      plantCycle := x.tb - x.plantTb, plantTb := x.tb,
      plantHeld := s.plantPosition x.tb, plantLimitTb := if x.plantValid && !x.plantLost then s.lastRise else x.plantLimitTb,
      plantLost := false } }


/-- A slate from process data: without effect in Standby (R385), else classified with the SYNC0 event's timestamp. -/
def State.plantSlate (s : State) : State := if s.linePaused then s.ignorePulse else s.slateAt s.time.tb

/-- The latch of the process-data source: the lot count first, judged at the position before it, then the position
(log 145). -/
def State.latchPlant (s : State) : State :=
  let a := { s with time := { s.time with lotLatched := some (s.obj Obj.plantLotCount), plantWritten := false } }
  let b := if s.lotChanged then a.plantSlate else a
  (if b.takeOpen then b.latchPosition else b).fireDue


/-- DC modes (R335). -/
def State.dcMode (s : State) : Bool := decide (2 ≤ s.obj Obj.syncMode)

/-- The SYNC0 events that are missing between the last one and now, by the cycle time of the MainDevice (log 151). -/
def State.missedSince (s : State) : Nat :=
  let cycle := dcCount (s.obj 0x1C3202)
  match s.ecat.sync0At with
  | some t => if cycle = 0 then 0 else (s.time.tb - t + cycle / 2) / cycle - 1
  | none => 0

/-- SM_EVENTS_MISSED of both directions (R330). -/
def State.addMissed (s : State) (n : Nat) : State := (s.addObj 0x1C320B 16 n).addObj 0x1C330B 16 n

/-- A SYNC0 event in OP counts what was missed before it. -/
def State.countMissed (s : State) : State := if s.ecat.al = alOp ∧ s.dcMode then s.addMissed s.missedSince else s

/-- What a SYNC0 event latches: the lot objects, the position of process data, and in mode 0x0002 the input image; in mode
0x0003 the image follows at SYNC1. -/
def State.syncLatch (s : State) : State :=
  let a := if s.dcMode then s.latchLot else s
  let b := if a.latchesPlant then a.latchPlant else a
  let c := { b with ecat := { b.ecat with
    sync0At := if b.ecat.al = alOp then some b.time.tb else none, sync1At := some (b.time.tb + dcCount b.ecat.sync1Ns) } }
  if c.obj inputSyncMode = 2 then c.latchInputs else c.sync1Latch

/-- SYNC0 (R21, R27, R330, R335). -/
def execSync0 (dt dcTime : Nat) (s : State) : Host.Outcome State Fault Refusal :=
  let a := s.advance dt
  .next (if a.ecat.released then (a.countMissed.discipline dcTime).syncLatch else a)

/-- SYNC0_ABSENCE (R21): TB_COUNT runs free. -/
def execSync0Absence (dt : Nat) (s : State) : Host.Outcome State Fault Refusal :=
  let a := s.advance dt
  .next { a with time := { a.time with dcActive := false, slewLeft := 0 } }

/-! ## Process data -/

/-- Write the values of an RxPDO into its objects. -/
def State.writeMapped (s : State) : List Nat → List Byte → State
  | [], _ => s
  | e :: es, bs =>
    let n := mapBits e / 8
    (if mapIndex e = 0 then s else s.setObj (objKey (mapIndex e) (mapSub e)) (leNat (bs.take n))).writeMapped es (bs.drop n)

/-- The entries of the assigned RxPDOs. -/
def State.rxEntries (s : State) : List Nat := (s.pdoEntries 0x1C12).flatMap s.pdoEntries

/-- The values of a buffer reach the mapped objects, and SM-synchronous mode latches the lot objects (R328, R335). -/
def State.takeOutputs (s : State) (data : List Byte) : State :=
  let b := s.writeMapped s.rxEntries data
  let c := { b with time := { b.time with plantWritten := true } }
  if c.obj Obj.syncMode = 1 then c.latchLot else c

/-- A valid SM2 buffer: it replaces the one before, read or not (three-buffer mode, R331), and in OP its values reach the
objects (R328; log 70). It is the latch of SM-synchronous inputs. -/
def State.receivePdo (s : State) (data : List Byte) : State :=
  let a := { s with ecat := { s.ecat with sm2Valid := true, rxBuffer := data } }
  let b := if s.ecat.al = alOp then a.takeOutputs data else a
  if b.obj inputSyncMode = 1 then b.latchInputs else b

/-- PROCESS_DATA_UPDATE (R328, R335). -/
def execProcessDataUpdate (dt : Nat) (data : List Byte) (s : State) : Host.Outcome State Fault Refusal :=
  let a := s.advance dt
  .next (if a.ecat.released && (a.ecat.al == alSafeop || a.ecat.al == alOp) && data.length == a.assignedBytes 0x1C12
    then (a.wakeBlock .ecatController).receivePdo data else a)

/-- The MainDevice reads SM3, in SAFEOP and OP: it always gets the newest complete buffer, once there is one (R331). -/
def State.readInputs (s : State) : State :=
  if s.ecat.released && (s.ecat.al == alSafeop || s.ecat.al == alOp) && !s.ecat.txImage.isEmpty
  then (s.wakeBlock .ecatController).emit (.processInputs s.ecat.txImage) else s

/-! ## The state machine (R333) -/

/-- Whether a state lies below another. -/
def alLower (from_ target : Nat) : Bool :=
  if from_ = alBoot then target == alInit else [alInit, alPreop, alSafeop].contains target && decide (target < from_)

/-- R28: the process-data source is lost. -/
def State.losePlant (s : State) : State :=
  if s.plantSource then
    { s.countLimited with time := { s.time with plantHeld := s.plantPosition s.time.tb, plantLost := true } }.event 0x061
      (unitOf 0xE 0) .ok 0
  else s

/-- The other slot is erased, so that no interrupted image is ever booted (R334; log 71). -/
def State.voidSlot (s : State) : State := { s with sec := s.sec.setSlot s.otherSlot [] }

/-- A FoE write that is open ends without its image (R334). -/
def State.abandonFoe (s : State) : State :=
  if s.ecat.foe.isNone then s
  else
    let a := { s with ecat := { s.ecat with foe := none } }
    if a.rst.restored || a.rst.recovery then a.voidSlot
    else { a with ecat := { a.ecat with foeHeld := a.ecat.foeHeld ++ [([], true, true)] } }

/-- What leaving a state does. -/
def State.leaveAl (s : State) : State :=
  if s.ecat.al = alOp then s.losePlant else if s.ecat.al = alBoot then s.abandonFoe else s

/-- Enter a state with an AL status code (0 for none): one event in G12. -/
def State.enterAl (s : State) (target code : Nat) : State :=
  let a := s.leaveAl
  let seg := if target = alInit ∨ target = alBoot then none else a.ecat.segment
  ({ a with ecat := { a.ecat with
      al := target, alCode := code, alError := decide (code ≠ 0), sm2Valid := false, segment := seg } }.event 0x180 ecatUnit .ok
    target).emit (.alStatus target code)

/-- A refused transition (R333). -/
def State.refuseAl (s : State) (code : Nat) : State :=
  ({ s with ecat := { s.ecat with alCode := code, alError := true } }.log 0x221 ecatUnit .ok code).emit
    (.alStatus s.ecat.al code)

/-- An AL request: `from_` is the state from which `check` decides (0 to accept, or the AL status of the refusal). -/
def State.requestAl (s : State) (from_ target check : Nat) (accept : State → State) : State :=
  if !s.ecat.released then s
  else if s.ecat.al = from_ then (if check = 0 then accept (s.enterAl target 0) else s.refuseAl check)
  else if s.ecat.al = target then
    { s with ecat := { s.ecat with alCode := 0, alError := false } }.emit (.alStatus target 0)
  else if alLower s.ecat.al target then s.enterAl target 0
  else s.refuseAl 0x0011

/-- SM0 and SM1 as R331 has them: 1,024 bytes each, at 0x1000 and 0x1400. -/
def mailboxOk (m : MailboxCfg) : Bool := m == { sm0 := 0x1000, sm0Len := 1024, sm1 := 0x1400, sm1Len := 1024 }

/-- INIT_TO_PREOP (R333, R377). -/
def execInitToPreop (mailbox : MailboxCfg) (s : State) : Host.Outcome State Fault Refusal :=
  .next ((s.wakeBlock .ecatController).requestAl alInit alPreop
    (if s.obj Obj.journalState = 0 then 0x0011 else if !(mailboxOk mailbox) then 0x0016 else 0) id)

/-- A sync manager of process data stands as R331 has it: in three-buffer mode, where it carries anything at its start. -/
def smOk (c : CycleCfg) (start len want : Nat) : Bool := len == 0 || (start == want && c.threeBuffer)

/-- The checks of PREOP → SAFEOP; a sync manager that does not stand as R331 has it is refused like one of a wrong length
(log 185). -/
def State.safeopFault (s : State) (sm2Len sm3Len : Nat) (c : CycleCfg) : Nat :=
  if sm2Len ≠ s.assignedBytes 0x1C12 ∨ !(smOk c c.sm2 sm2Len 0x1800) then 0x001D
  else if sm3Len ≠ s.assignedBytes 0x1C13 ∨ !(smOk c c.sm3 sm3Len 0x1C00) then 0x001E
  else if 3 < s.obj Obj.syncMode ∨ (s.obj Obj.positionSource = 1 ∧ !s.dcMode) then 0x0030
  else if c.sync0Ns < 125000 ∨ 100000000 < c.sync0Ns then 0x0035
  else 0

/-- CYCLE_TIME of both directions, and where SYNC1 lies after SYNC0; the buffers of SM2 and SM3 start empty. -/
def State.setCycle (s : State) (c : CycleCfg) : State :=
  let a := (s.setObj 0x1C3202 c.sync0Ns).setObj 0x1C3302 c.sync0Ns
  { a with ecat := { a.ecat with sync1Ns := c.sync1Ns, rxBuffer := [], txImage := [] } }

/-- PREOP_TO_SAFEOP (R331, R333), with the sync managers and the cycle that the MainDevice has set. -/
def execPreopToSafeop (sm2Len sm3Len : Nat) (cycle : CycleCfg) (s : State) : Host.Outcome State Fault Refusal :=
  .next ((s.wakeBlock .ecatController).requestAl alPreop alSafeop (s.safeopFault sm2Len sm3Len cycle)
    (fun t => t.setCycle cycle))

/-- On entry to OP the missed events count from 0 and SYNC_ERROR is FALSE (R330; log 72). -/
def State.startOp (s : State) : State :=
  let a := (((s.setObj 0x1C320B 0).setObj 0x1C330B 0).setObj 0x1C3220 0).setObj 0x1C3320 0
  { a with ecat := { a.ecat with sync0At := none } }

/-- SAFEOP_TO_OP (R333). -/
def execSafeopToOp (s : State) : Host.Outcome State Fault Refusal :=
  .next ((s.wakeBlock .ecatController).requestAl alSafeop alOp (if s.ecat.sm2Valid then 0 else 0x0019) State.startOp)

/-- INIT_TO_BOOT (R333). -/
def execInitToBoot (s : State) : Host.Outcome State Fault Refusal :=
  .next ((s.wakeBlock .ecatController).requestAl alInit alBoot (if s.stopped then 0 else 0x0011) id)

/-- AL_STATE_FALL (R333). -/
def execAlStateFall (target : Nat) (s : State) : Host.Outcome State Fault Refusal :=
  let s := s.wakeBlock .ecatController
  .next (if !s.ecat.released then s
    else if alLower s.ecat.al target then s.enterAl target 0
    else s.refuseAl 0x0011)

/-- SYNC_ERROR_LIMIT + 1 SYNC0 events in a row have been missed (R330, R335; log 72). -/
def State.noteMissed (s : State) : State :=
  ((s.addMissed (s.obj Obj.syncErrorLimit + 1)).setObj 0x1C3220 1).setObj 0x1C3320 1

/-- SYNC_ERROR (R335). -/
def execSyncError (dt : Nat) (s : State) : Host.Outcome State Fault Refusal :=
  let a := s.advance dt
  .next (if a.ecat.released ∧ a.ecat.al = alOp then
    (a.noteMissed.event 0x181 ecatUnit .ok 0).enterAl alSafeop 0x002C else a)

/-- SM2_WATCHDOG (R335). -/
def execSm2Watchdog (dt : Nat) (s : State) : Host.Outcome State Fault Refusal :=
  let a := s.advance dt
  .next (if a.ecat.released ∧ a.ecat.al = alOp then (a.event 0x182 ecatUnit .ok 0).enterAl alSafeop 0x001B else a)

/-! ## FoE (R334, R377) -/

/-- "FIRMWARE". -/
def foeName : List Byte := [0x46, 0x49, 0x52, 0x4D, 0x57, 0x41, 0x52, 0x45]

/-- A refused FoE request. -/
def State.refuseFoe (s : State) (code : Nat) : State := (s.log 0x223 ecatUnit .ok code).emit (.foeError code)

/-- FoE data is programmed as it arrives: after the restore, or under the recovery service (R377, R399). -/
def State.foeLive (s : State) : Bool := s.rst.restored || s.rst.recovery

/-- An accepted FoE write. -/
def State.openFoe (s : State) : State :=
  let a := { s with ecat := { s.ecat with foe := some 0 } }
  (if s.foeLive then a.voidSlot
    else { a with ecat := { a.ecat with foeHeld := a.ecat.foeHeld ++ [([], true, true)] } }).emit .foeAck

/-- FOE_WRITE (R334). While a write is open no other is accepted, under an error code that the spec does not give (log 4). -/
def execFoeWrite (name : List Byte) (password : Nat) (s : State) : Host.Outcome State Fault Refusal :=
  let s := s.wakeBlock .ecatController
  .next (if !s.ecat.released || s.ecat.al == alInit then s
    else if s.ecat.al ≠ alBoot then s.refuseFoe 0x8009
    else if name ≠ foeName then s.refuseFoe 0x8001
    else if password ≠ 0 then s.refuseFoe 0x8004
    else if s.ecat.foe.isSome then s.useFree.refuseFoe (s.freeNow.toNat % 2 ^ 32)
    else s.openFoe)

/-- Program data into the other slot; where programming fails the slot is left invalid (log 71). -/
def State.programFoe (s : State) (off : Nat) (data : List Byte) (ok : Bool) : State :=
  if ok then { s with sec := s.sec.setSlot s.otherSlot (programSlotBytes (s.sec.slot s.otherSlot) off data) } else s.voidSlot

/-- Data of an open write. -/
def State.takeFoe (s : State) (n : Nat) (data : List Byte) (last ok : Bool) : State :=
  let a := { s with ecat := { s.ecat with foe := if last then none else some (n + data.length) } }
  if s.foeLive then
    let b := a.programFoe n data ok
    if ok then b.emit .foeAck else { b with ecat := { b.ecat with foe := none } }.refuseFoe 0x800B
  else { a with ecat := { a.ecat with foeHeld := a.ecat.foeHeld ++ [(data, false, ok)] } }.emit .foeAck

/-- Data beyond 16 MiB ends the write. -/
def State.foeTooLong (s : State) : State := s.abandonFoe.refuseFoe 0x8003

/-- FOE_DATA (R334, R377). -/
def execFoeData (data : List Byte) (last programmed : Bool) (s : State) : Host.Outcome State Fault Refusal :=
  let s := s.wakeBlock .ecatController
  .next (match s.ecat.foe with
    | none => s
    | some n =>
      if s.ecat.al ≠ alBoot then s
      else if slotBytes < n + data.length then s.foeTooLong
      else s.takeFoe n data last programmed)

/-- FOE_READ (R334). -/
def execFoeRead (s : State) : Host.Outcome State Fault Refusal :=
  let s := s.wakeBlock .ecatController
  .next (if !s.ecat.released || s.ecat.al == alInit then s else s.refuseFoe 0x8002)

/-- R377: program what was held; a start erases the slot, and a failure leaves it invalid until the next start. An open
write whose data failed ends with its error (R334). -/
def State.drainFoe (s : State) : State :=
  let r := s.ecat.foeHeld.foldl (fun (x : State × Nat × Bool) (h : List Byte × Bool × Bool) =>
    if h.2.1 then (x.1.voidSlot, 0, true)
    else if !x.2.2 then x
    else (x.1.programFoe x.2.1 h.1 h.2.2, x.2.1 + h.1.length, h.2.2)) (s, 0, true)
  let a := { r.1 with ecat := { r.1.ecat with foeHeld := [] } }
  if a.ecat.foe.isSome && !r.2.2 then { a with ecat := { a.ecat with foe := none } }.refuseFoe 0x800B else a

/-! ## SII (R333) -/

/-- The key of the station alias among the firmware's records (log 73). -/
def aliasKey : Nat := objKey 2 0

/-- The SII word of the configured station alias (log 73). -/
def aliasWord : Nat := 4

/-- Keep a firmware record: at once in force, and programmed unless the next snapshot is about to hold it. -/
def State.keepRecord (s : State) (key v : Nat) : State :=
  let a := { s with journal := { s.journal with fwRecords := Tab.put s.journal.fwRecords key v } }
  if s.journalBusy || s.journalFull 1 then a
  else (State.programAll [(key, kindValue, v)] [] a).1.compactIfFull

/-- A word of the SII: the kept alias, else the image of the factory region. -/
def State.siiWord (s : State) (word : Nat) : Nat :=
  let image := Tab.read s.part.sii 0 word % 2 ^ 16
  if word = aliasWord ∧ s.rst.restored then (Tab.look s.journal.fwRecords aliasKey).getD image else image

/-- An SII read (R333). -/
def State.siiRead (s : State) (word : Nat) : State :=
  if s.ecat.released then (s.wakeBlock .ecatController).emit (.siiData word (s.siiWord word)) else s

/-- The level of TRST_N: low, it holds the test port in reset, whose instruction register then holds IDCODE (R437, log
188). -/
def State.driveTrst (s : State) (high : Bool) : State :=
  { s with sec := { s.sec with trstN := high, jtagIr := if high then s.sec.jtagIr else 0x01 } }

/-- The link of an EtherCAT port comes up: MII_RX_DELAY of the port takes force (R345). -/
def State.miiLinkUp (s : State) (port : Nat) : State :=
  if s.rst.restored ∧ port < 2 then s.applyCal 6 (port + 1) else s

/-- SII_WRITE (R333): before the restore no record can be kept, and the write is discarded. -/
def execSiiWrite (word value : Nat) (s : State) : Host.Outcome State Fault Refusal :=
  let s := s.wakeBlock .ecatController
  .next (if !s.ecat.released then s
    else if word = aliasWord ∧ s.rst.restored then s.keepRecord aliasKey (value % 2 ^ 16)
    else s.log 0x224 ecatUnit .ok 0)

/-! ## REGISTER_WRITE -/

/-- REGISTER_WRITE (R302 to R308, R310, R328, R333, R345, R353, R405). -/
def execRegisterWrite (target : RegTarget) (s : State) : Host.Outcome State Fault Refusal :=
  .next (match target with
    | .sdo a more => if more then s.openDownload { a with write := true, describe := false } else s.wholeDownload a
    | .bar bar offset size value => (s.wakeBlock .hostPort).barWrite bar offset size value
    | .siiRead word => s.siiRead word
    | .linkUp port => s.miiLinkUp port
    | .inputsRead => s.readInputs
    | .trst high => s.driveTrst high
    | .sramUpset addr double => s.sramUpset addr double
    | .window offset value => s.ctlAccess offset (some value)
    | .windowRead offset => s.ctlAccess offset none
    | .debug op => s.debugAccess op
    | .config a => s.configRequest a)

end Sys2Proof.Machine
end

