-- ==== Sys2Proof/Machine/Fence.lean ====
section
/-!
DEFINITION. Fences of blocks, the local reset and self-test that follow, Idle and Sleep (R374, R375, R381, R382).
-/

namespace Sys2Proof.Machine

open Sys2Proof

/-! ## Coming up (R305, R376) -/

/-- The link trains at a width that the slot and its lanes give: x16, x8, x4, x2 or x1, a free value (R302, log 173), no
wider than lanes that have failed since the last reset left it (R305). -/
def State.trainLink (s : State) : State :=
  if s.linkAlive then
    { s with host := { s.host with linkWidth := min s.host.widest (2 ^ (s.freeNow.toNat % 5)) } }.useFree
  else s

/-- The EtherCAT controller is released once its clock is good and firmware or the recovery service runs, unless CFG_SENSE
has EtherCAT off (R332, R376, R399). -/
def State.releaseEcat (s : State) : State :=
  if s.rst.domains.contains .ecat && (s.rst.fwRunning || s.rst.recovery) && !s.ecatOff && !(s.blockDown .ecatController)
  then { s with ecat := { s.ecat with released := true } } else s

/-! ## Fences (R374, R375) -/

/-- Put a block's fence on record; a second one since the last reset makes the block unusable. -/
def State.recordFence (s : State) (b : Block) : State :=
  let n := Tab.read s.rst.laneFences 0 (blockKey b)
  { s with rst := { s.rst with
      laneFences := Tab.put s.rst.laneFences (blockKey b) (n + 1), fencedBlocks := insertOnce s.rst.fencedBlocks b,
      unusableBlocks := if 1 ≤ n then insertOnce s.rst.unusableBlocks b else s.rst.unusableBlocks } }

/-- The block exists on the variant. -/
def State.blockFitted (s : State) : Block → Bool
  | .tile p => decide (p < s.part.variant.tiles)
  | .stack i => decide (i < s.part.variant.stacks)
  | .segment d c => decide (d < s.part.variant.dies) && decide (c < 12)
  | .laneGroup g => s.part.variant.hasBridge && decide (g < 8)
  | .port k => decide (k < s.part.variant.ports)
  | .core c => decide (c < 8)
  | .network d => decide (d < s.part.variant.dies)
  | .hostPort => true
  | .ecatController => true

/-- What a fence does beside the block itself. A stack answers with ISOLATED until it returns, and is declared lost once it
is unusable (R389). Of the others no request reaches the wrapper: a segment is declared failed, a lane group closed, a port
down (log 46); the SN hub of a die's networks answers with ISOLATED; the host port and the EtherCAT controller leave their
links (log 175). The fence is one fault, counted there or here. -/
def State.maskFence (s : State) : Block → State
  | .stack i => if s.rst.unusableBlocks.contains (.stack i) then s.loseStack i else s.countFault
  | .segment d c => if s.mem.failedSegments.contains (12 * d + c) then s.countFault else s.failSegment d c
  | .laneGroup g => ((s.closeGroup g 0).closeGroup g 1).countFault
  | .port k =>
    let a := if (s.port k).state = portUp then s.portDown k true else s.countFault
    let u := a.rst.unusableBlocks.contains (.port k)
    (a.setPort k { Port.fresh with state := portDownState, unusable := u, dead := (a.port k).dead }).refreshFabric
  | .tile p => s.fenceTile p
  | .core c => s.fenceCore c
  | .network _ => s.isolateHub.countFault
  | .hostPort => s.countFault
  | .ecatController => ({ s.leaveAl with ecat := EcatSt.reset }).countFault

/-- Fence a block (R375). -/
def State.fenceBlock (s : State) (b : Block) : State :=
  match b with
  | .tile p => s.fenceTile p
  | .core c => s.fenceCore c
  | _ =>
    if s.inReset || !(s.blockFitted b) || s.rst.fencedBlocks.contains b then s
    else ((s.recordFence b).event 0x143 (blockUnit b) .isolated 0).maskFence b

/-- BLOCK_FENCE (R374, R375). -/
def execBlockFence (block : Block) (s : State) : Host.Outcome State Fault Refusal := .next (s.fenceBlock block).settle

/-- SEQUENCER_STALL (R374): no progress for 1 ms with work queued. -/
def execSequencerStall (dt phys : Nat) (s : State) : Host.Outcome State Fault Refusal :=
  let a := s.advance dt
  .next (match a.logicalOf phys with
    | some l => if (a.lt l).queue.isEmpty then a else (a.fenceTile phys).settle
    | none => a)

/-- CN_REQUEST_TIMEOUT (R266, R374). -/
def execCnRequestTimeout (dt : Nat) (block : Block) (s : State) : Host.Outcome State Fault Refusal :=
  .next ((s.advance dt).fenceBlock block).settle

/-! ## Local reset and self-test (R375) -/

/-- A block returns to service; a stack declared lost and a segment declared failed do not before the next reset. -/
def State.returnBlock (s : State) (b : Block) : State :=
  let a := { s with rst := { s.rst with fencedBlocks := s.rst.fencedBlocks.erase b } }
  match b with
  | .laneGroup g => { a with mem := { a.mem with
      closedGroups := a.mem.closedGroups.filter (fun k => k / 2 != g), sparedLanes := a.mem.sparedLanes.filter (fun k => k / 2 != g) } }
  | .port k => if a.fabric.enabled then a.trainPort k else a.setPort k { Port.fresh with dead := (a.port k).dead }
  | .hostPort => { a with host := { HostSt.reset with
      activation := a.host.activation, widest := a.host.widest, linkLost := a.host.linkLost } }.trainLink
  | .ecatController => a.releaseEcat
  | _ => a

/-- The outcome of the test of a fenced block that is no tile and no core. -/
def State.testBlock (s : State) (b : Block) (passed : Bool) : State :=
  if !(s.rst.fencedBlocks.contains b) || s.rst.unusableBlocks.contains b then s
  else if passed then s.returnBlock b
  else
    let a := { s with rst := { s.rst with unusableBlocks := insertOnce s.rst.unusableBlocks b } }
    match b with
    | .port k => a.setPort k { a.port k with unusable := true }
    | .stack i => a.loseStack i
    | _ => a

/-- The outcome of the test of a fenced tile. -/
def State.testTile (s : State) (p : Nat) (passed : Bool) : State :=
  let t := s.pt p
  if !t.fenced || t.unusable then s
  else if passed then s.returnTile p
  else (s.setPt p { t.sleep with unusable := true }).stopClock p

/-- A core that is healthy again is one at which the failure of another is raised (R348). -/
def State.targetAgain (s : State) (c : Nat) : State :=
  { s with intr := { s.intr with srcCfg := Tab.put s.intr.srcCfg 0x120 (s.srcCfg 0x120 ||| 2 ^ (8 + c)) } }

/-- The outcome of the test of a fenced core: one that passes becomes the spare (R349). -/
def State.testCore (s : State) (c : Nat) (passed : Bool) : State :=
  let k := s.core c
  if k.condition = 1 then
    let a := s.setCore c { k with condition := if passed then 0 else 2 }
    if passed then a.targetAgain c else a
  else s

/-- BLOCK_SELF_TEST_DONE (R375). -/
def execBlockSelfTestDone (block : Block) (passed : Bool) (s : State) : Host.Outcome State Fault Refusal :=
  .next (match block with
    | .tile p => s.testTile p passed
    | .core c => s.testCore c passed
    | b => s.testBlock b passed).settle

/-- The block is one of a die (R382). -/
def dieBlock : Block → Bool
  | .core _ => false
  | .hostPort => false
  | .ecatController => false
  | _ => true

/-- A block other than a tile is in Sleep (R382): it is unusable, or a block of a die in Standby, or the transmit side of a
port that is dark or has no role. -/
def State.blockAsleep (s : State) (b : Block) : Bool :=
  s.rst.unusableBlocks.contains b || (dieBlock b && decide (s.obj Obj.deviceState = 2)) ||
    (match b with
    | .port k => (s.port k).unusable || (s.port k).state == portDark || (s.port k).state == portHeldDark || s.portRole k == 0
    | .stack i => s.rst.bistInForce.failedStacks.contains i
    | .segment d c => s.rst.bistInForce.failedSegments.contains (12 * d + c)
    | .laneGroup g => s.rst.bistInForce.failedGroups.contains g
    | .core c => (s.core c).condition == 2
    | _ => false)

/-- BLOCK_IDLE (R381): a block without work becomes Idle by itself, and active by its next request; nothing else changes. -/
def execBlockIdle (block : Block) (s : State) : Host.Outcome State Fault Refusal :=
  .next (match block with
    | .tile p => if p < s.part.variant.tiles ∧ !(s.pt p).sleeping then s.setPt p { s.pt p with idle := true } else s
    | b =>
      if s.blockFitted b && !(s.blockAsleep b) then
        { s with rst := { s.rst with idleBlocks := insertOnce s.rst.idleBlocks b } }
      else s)

end Sys2Proof.Machine
end

