-- ==== Sys2Proof/Machine/Reset.lean ====
section
/-!
DEFINITION. Reset sources, what a reset keeps, CFG_SENSE, the release of the clock domains, the thermal trip and the boot ROM
(R351, R364 to R373, R376 to R380, R386, R396 to R399).
-/

namespace Sys2Proof.Machine

open Sys2Proof

/-! ## What a reset leaves (R365, R386) -/

/-- Cause bits (R367). -/
def causePowerOn : Nat := 1
def causeRst : Nat := 2
def causePerst : Nat := 4
def causeFlr : Nat := 8
def causeDictionary : Nat := 16
def causeWatchdog : Nat := 32
def causeThermal : Nat := 64

/-- Every tile after a reset: its memories hold new unspecified values (R444). -/
def State.resetTiles (s : State) : Tab PhysTile :=
  (List.range s.part.variant.tiles).map (fun p => (p, { PhysTile.fresh with epoch := (s.pt p).epoch + 1 }))

/-- The flash keeps its slots; what the journal role had in hand is gone. -/
def JournalSt.interrupted (j : JournalSt) : JournalSt :=
  { j with lastSeq := 0, nextSlot := 0, compacting := false, worn := false, fwRecords := [], clearing := false }

/-- The always-on domain keeps its registers, the sensors' trip comparison and the pins' levels. -/
def ResetSt.held (r : ResetSt) : ResetSt :=
  { ResetSt.powerUp with
    pwrGood := r.pwrGood, rstN := r.rstN, perstN := r.perstN, asserted := r.asserted, lastCauses := r.lastCauses,
    causeHistory := r.causeHistory, resetCount := r.resetCount, hotSample := r.hotSample, thermTrip := r.thermTrip }

/-- The flash keeps the slots, the always-on domain the debug level, the failure count and the latches (R400, R405, R406). -/
def SecSt.held (c : SecSt) : SecSt :=
  { SecSt.powerUp with
    slotA := c.slotA, slotB := c.slotB, otherOnce := c.otherOnce, trstN := c.trstN, jtagIr := c.jtagIr, debugLevel := c.debugLevel,
    debugFailures := c.debugFailures, fuseLatch := c.fuseLatch, zeroised := c.zeroised }

/-- A FoE write that the reset interrupts leaves its slot erased (log 71). -/
def State.dropFoe (s : State) : State := if s.ecat.foe.isSome && s.foeLive then s.voidSlot else s

/-- Every block but the always-on domain is held in reset. -/
def State.resetBlocks (s : State) : State :=
  let a := s.dropFoe
  { State.reset with
    part := a.part, phys := a.resetTiles, journal := a.journal.interrupted, rst := a.rst.held, sec := a.sec.held,
    free := a.free, out := a.out, pending := a.pending }

/-! ## Sources (R364, R366) -/

/-- LAST_CAUSES with one more cause: the first reset after ready starts it afresh (R366). -/
def ResetSt.causesWith (r : ResetSt) (cause : Nat) : Nat := if r.ready then cause else r.lastCauses ||| cause

/-- The cause registers at the start of a reset. -/
def ResetSt.begin (r : ResetSt) (cause : Nat) : ResetSt :=
  { r with asserted := cause, lastCauses := r.causesWith cause, causeHistory := r.causeHistory ||| cause,
           resetCount := (r.resetCount + 1) % 2 ^ 32 }

/-- A source is asserted. -/
def State.assertSource (s : State) (cause : Nat) : State :=
  if s.rst.asserted = 0 then { s with rst := s.rst.begin cause }.resetBlocks
  else { s with rst := { s.rst with
      asserted := s.rst.asserted ||| cause, lastCauses := s.rst.lastCauses ||| cause,
      causeHistory := s.rst.causeHistory ||| cause } }

/-- A source is released; with the last one the sequence of R376 starts, from the state the reset left. -/
def State.releaseSource (s : State) (cause : Nat) : State :=
  { s with rst := { s.rst with asserted := clearBits s.rst.asserted cause } }

/-- A source that the part itself asserts for 10 µs (R364). -/
def State.pulseSource (s : State) (cause : Nat) : State := (s.assertSource cause).releaseSource cause

/-! ## Pins and supplies -/

/-- PWR_GOOD_FALL (R364). -/
def execPwrGoodFall (dt : Nat) (s : State) : Host.Outcome State Fault Refusal :=
  let a := s.advance dt
  .next (if a.rst.pwrGood then { a with rst := { a.rst with pwrGood := false } }.assertSource causePowerOn else a)

/-- PWR_GOOD_RISE (R376). -/
def execPwrGoodRise (dt : Nat) (s : State) : Host.Outcome State Fault Refusal :=
  let a := s.advance dt
  .next (if a.rst.pwrGood then a else { a with rst := { a.rst with pwrGood := true } }.releaseSource causePowerOn)

/-- RST_N_ASSERT: the pin has stayed low for 1 µs (R364). -/
def execRstNAssert (dt : Nat) (s : State) : Host.Outcome State Fault Refusal :=
  let a := s.advance dt
  .next (if a.rst.rstN then { a with rst := { a.rst with rstN := false } }.assertSource causeRst else a)

/-- RST_N_RISE (R364). -/
def execRstNRise (dt : Nat) (s : State) : Host.Outcome State Fault Refusal :=
  let a := s.advance dt
  .next (if a.rst.rstN then a else { a with rst := { a.rst with rstN := true } }.releaseSource causeRst)

/-- PERST_N_ASSERT: the pin has stayed low for 1 µs (R364). -/
def execPerstNAssert (dt : Nat) (s : State) : Host.Outcome State Fault Refusal :=
  let a := s.advance dt
  .next (if a.rst.perstN then { a with rst := { a.rst with perstN := false } }.assertSource causePerst else a)

/-- PERST_N_RISE (R364). -/
def execPerstNRise (dt : Nat) (s : State) : Host.Outcome State Fault Refusal :=
  let a := s.advance dt
  .next (if a.rst.perstN then a else { a with rst := { a.rst with perstN := true } }.releaseSource causePerst)

/-- The pin sources that stay asserted. -/
def ResetSt.pinSources (r : ResetSt) : Nat := (if r.rstN then 0 else causeRst) + (if r.perstN then 0 else causePerst)

/-- What the loss of the always-on supply leaves of its domain: power-on only, and a count of 1 (R365, R386, R405, R406). -/
def State.loseAlwaysOn (s : State) : State :=
  let c := causePowerOn + s.rst.pinSources
  { s with
    rst := { s.rst with
      pwrGood := false, asserted := c, lastCauses := c, causeHistory := c, resetCount := 1, hotSample := false,
      thermTrip := false },
    sec := { s.sec with otherOnce := none, debugLevel := 0, debugFailures := 0, fuseLatch := false, zeroised := false } }

/-- ALWAYS_ON_SUPPLY_LOSS (R364, R365): the supplies are gone, so PWR_GOOD is low until PWR_GOOD_RISE. -/
def execAlwaysOnSupplyLoss (s : State) : Host.Outcome State Fault Refusal := .next s.resetBlocks.loseAlwaysOn

/-! ## Resets that the part times itself -/

/-- FUNCTION_LEVEL_RESET (R307, R364): initiated by a configuration write, which is accepted only once the part is ready. -/
def execFunctionLevelReset (dt : Nat) (s : State) : Host.Outcome State Fault Refusal :=
  let a := s.advance dt
  .next (if a.linkAlive && a.rst.ready then a.pulseSource causeFlr else a)

/-- 1 ms in TB counts. -/
def tbPerMs : Nat := 3600000

/-- DICTIONARY_RESET_START (R364, R369): 1 ms after the reset command was answered. -/
def execDictionaryResetStart (dt : Nat) (s : State) : Host.Outcome State Fault Refusal :=
  let a := s.advance dt
  .next (if a.server.halted && decide (a.server.haltedTb + tbPerMs ≤ a.time.tb) then a.pulseSource causeDictionary else a)

/-- DEVICE_WATCHDOG_EXPIRY (R351): armed while firmware runs; it expires only when no healthy core can carry the role, and
is suspended while a core is halted (R405). -/
def execDeviceWatchdogExpiry (dt : Nat) (s : State) : Host.Outcome State Fault Refusal :=
  let a := s.advance dt
  .next (if a.rst.fwRunning && a.healthyCores.isEmpty && !a.anyHalted then a.pulseSource causeWatchdog else a)

/-! ## Temperatures (R345, R371, R388) -/

/-- The die sensors of the variant. -/
def Part.sensors (p : Part) : Nat := 8 * p.variant.dies

/-- A raw die reading. -/
def rawReading (raw : List Nat) (i : Nat) : Int := signedOf 16 (raw.getD i 0)

/-- Some raw reading is at or above TRIP_THRESHOLD. -/
def Part.hot (p : Part) (raw : List Nat) : Bool :=
  (List.range p.sensors).any (fun i => decide ((p.tripThreshold : Int) ≤ rawReading raw i))

/-- Every raw reading is at or below TRIP_RELEASE. -/
def Part.cool (p : Part) (raw : List Nat) : Bool :=
  (List.range p.sensors).all (fun i => decide (rawReading raw i ≤ (p.tripRelease : Int)))

/-- An effective reading: ⌊raw × gain / 0x8000⌋ + offset (R345). -/
def State.effectiveReading (s : State) (raw : List Nat) (i : Nat) : Int :=
  rawReading raw i * (s.obj (calEffKey 5 (i + 1)) : Int) / 0x8000 + s.objInt (calEffKey 4 (i + 1)) 16

/-- Store one effective reading. -/
def State.showReading (s : State) (raw : List Nat) (i : Nat) : State :=
  s.setObj (Obj.dieTemperature + i) (unsignedOf 16 (s.effectiveReading raw i))

/-- Store the reported temperature of a fitted stack, if the sample brings it. -/
def State.showStack (s : State) (raw : List Nat) (i : Nat) : State :=
  match raw[16 + i]? with
  | some t => s.setObj (Obj.stackTemperature + i) (t % 2 ^ 16)
  | none => s

/-- MAX_TEMP: the highest of the present effective readings. -/
def State.highestReading (s : State) : Int := s.dieReadings.foldl max (s.dieReadings.headD 0)

/-- Once firmware has the calibration, a sample brings it into force and shows the effective readings (R345, R388). -/
def State.showReadings (s : State) (raw : List Nat) : State :=
  if !s.rst.restored then s
  else
    let a := (s.applyCals 4).applyCals 5
    let b := (List.range s.part.sensors).foldl (fun (t : State) i => t.showReading raw i) a
    let c := (List.range s.part.variant.stacks).foldl (fun (t : State) i => t.showStack raw i) b
    (c.setObj Obj.maxTemp (unsignedOf 16 c.highestReading)).refreshAlert

/-- The trip comparison: two hot samples in a row (R371). -/
def State.tripCheck (s : State) (raw : List Nat) : State :=
  let hot := s.part.hot raw
  let a := { s with rst := { s.rst with hotSample := hot } }
  if hot && s.rst.hotSample && !s.rst.thermTrip then
    { a with rst := { a.rst with thermTrip := true } }.assertSource causeThermal else a

/-- TEMP_SAMPLE (R371, R388): `raw` holds the raw readings of die sensors 0 to 15, then the reported temperatures of the
stacks (R388), as many as the sender gives. -/
def execTempSample (dt : Nat) (raw : List Nat) (s : State) : Host.Outcome State Fault Refusal :=
  let a := s.advance dt
  .next (({ a with rst := { a.rst with rawTemps := raw } }.showReadings raw).tripCheck raw)

/-- THERMAL_RELEASE (R371): every raw reading has stayed at or below TRIP_RELEASE for 1 s. -/
def execThermalRelease (dt : Nat) (raw : List Nat) (s : State) : Host.Outcome State Fault Refusal :=
  let a := s.advance dt
  .next (if a.rst.thermTrip && a.part.cool raw then
    { a with rst := { a.rst with thermTrip := false, hotSample := false } }.releaseSource causeThermal else a)

/-! ## CFG_SENSE (R378 to R380) -/

/-- The boundaries between neighbouring codes, in ohms (R379). -/
def cfgBounds : List Nat :=
  [1110, 1400, 1760, 2180, 2740, 3440, 4270, 5290, 6650, 8360, 10300, 13000, 16400, 20300, 25500]

/-- The code of a measured resistance; none for a shorted or open pin. -/
def cfgDecode (ohms : Nat) : Option Nat :=
  if 500 ≤ ohms ∧ ohms ≤ 32000 then some (cfgBounds.countP (fun b => decide (b ≤ ohms))) else none

/-- The code the part uses: 8 for a shorted or open pin (R380). -/
def cfgCode (ohms : Nat) : Nat := (cfgDecode ohms).getD 8

/-- The code is latched, and its bit 1 sets the combination mode (R5, R378). -/
def State.latchCfg (s : State) (ohms : Nat) : State :=
  let m := bitsOf (cfgCode ohms) 1 1
  ({ s with rst := { s.rst with
      cfgSampled := true, cfgCode := cfgCode ohms, cfgFault := (cfgDecode ohms).isNone } }.setObj Obj.combinationMode m).setObj
    Obj.modeInForce m

/-- CFG_SENSE_SAMPLE (R378). -/
def execCfgSenseSample (dt ohms : Nat) (s : State) : Host.Outcome State Fault Refusal :=
  let a := s.advance dt
  .next (if a.inReset || a.rst.cfgSampled then a else a.latchCfg ohms)

/-! ## Clock domains (R372, R373) -/

/-- The variant has a domain (R1, R372). -/
def Variant.hasDomain (v : Variant) : Domain → Bool
  | .tile p => decide (p < v.tiles)
  | .segment d c => decide (d < v.dies ∧ c < 12)
  | .cnSn d => decide (d < 2)
  | .hbmController i => decide (i < v.stacks)
  | .hbmPhy i => decide (i < v.stacks)
  | .opticalTx k => decide (k < v.ports)
  | .opticalRx k => decide (k < v.ports)
  | .bridge d => v.hasBridge && decide (d < 2)
  | .pcie i => decide (i < 2)
  | .ecat => true
  | .control => true
  | .timebase => true
  | .security => true

/-- Whether a domain is one of a die, whose clock-good has a time limit (R373). The receive clocks of the ports are recovered
from light in bring-up and have none (log 137). -/
def Domain.ofDie : Domain → Bool
  | .tile _ => true
  | .segment _ _ => true
  | .cnSn _ => true
  | .hbmController _ => true
  | .hbmPhy _ => true
  | .opticalTx _ => true
  | .opticalRx _ => false
  | .bridge _ => true
  | .pcie _ => false
  | .ecat => false
  | .control => false
  | .timebase => false
  | .security => false

/-- The domains that Standby gates: those of the dies and the receive domains of their ports (R383). -/
def Domain.gated : Domain → Bool
  | .opticalRx _ => true
  | d => Domain.ofDie d

/-- The domains of the dies of a variant. -/
def dieDomains (v : Variant) : List Domain :=
  ((List.range v.tiles).map Domain.tile ++
    (List.range v.dies).flatMap (fun d => (List.range 12).map (fun c => Domain.segment d c)) ++ [Domain.cnSn 0, .cnSn 1] ++
    (List.range v.stacks).flatMap (fun i => [Domain.hbmController i, .hbmPhy i]) ++
    (List.range v.ports).map Domain.opticalTx ++ [Domain.bridge 0, .bridge 1]).filter (fun d => Variant.hasDomain v d)

/-- The block of a domain is out of service, and so sleeps until the next reset (R382, R390). -/
def State.domainDown (s : State) : Domain → Bool
  | .tile p => !(s.tileUsable p)
  | .segment d c => s.blockAsleep (.segment d c)
  | .cnSn d => s.blockAsleep (.network d)
  | .hbmController i => s.blockAsleep (.stack i)
  | .hbmPhy i => s.blockAsleep (.stack i)
  | .opticalTx k => (s.port k).unusable
  | _ => false

/-- Every domain of the dies is released, or has passed its time limit, or belongs to a block that sleeps: BIST and the exit
from Standby come after that, so that no block of a die works without its clock-good (R373, R376, R384). -/
def State.clocksSettled (s : State) : Bool :=
  (dieDomains s.part.variant).all (fun d =>
    s.rst.domains.contains d || s.rst.failedDomains.contains d || s.domainDown d)

/-- Clock-good ends the wake of a tile (R381). -/
def State.endWake (s : State) (p : Nat) : State := if (s.pt p).waking then s.setPt p (s.pt p).wake else s

/-- What the release of a domain starts: TB_COUNT, the EtherCAT controller, the training of the host link, or the work of a
tile that was woken. -/
def State.startDomain (s : State) : Domain → State
  | .timebase => { s with time := { s.time with running := true } }
  | .ecat => s.releaseEcat
  | .pcie _ => s.trainLink
  | .tile p => s.endWake p
  | _ => s

/-- The PLL of a domain is on: that of a tile is off while the tile is unusable, or sleeps outside the exit from Standby and
is not being woken (R381, R382). -/
def State.clockOn (s : State) : Domain → Bool
  | .tile p => s.tileUsable p && (!(s.pt p).sleeping || (s.pt p).waking || decide (s.obj Obj.deviceState = 3))
  | _ => true

/-- A domain may be released now; the domains of the dies have no clock in Standby. -/
def State.domainWaits (s : State) (d : Domain) : Bool :=
  !s.inReset && Variant.hasDomain s.part.variant d && !(s.rst.domains.contains d) && !(s.rst.failedDomains.contains d) &&
    !(Domain.gated d && decide (s.obj Obj.deviceState = 2)) && s.clockOn d

/-- CLOCK_GOOD (R373). -/
def execClockGood (dt : Nat) (domain : Domain) (s : State) : Host.Outcome State Fault Refusal :=
  let a := s.advance dt
  .next (if a.domainWaits domain then
    { a with rst := { a.rst with domains := a.rst.domains ++ [domain] } }.startDomain domain else a)


/-! ## The boot ROM (R396 to R399) -/

/-- The slot that is tried first: the one BOOT_OTHER_ONCE asked for, else that of the CFG_SENSE code (R396, R400; log 179). -/
def State.firstSlot (s : State) : Nat := s.sec.otherOnce.getD (bitsOf s.rst.cfgCode 0 0)

/-- R396, R397: the outcome of a slot; step 1 fails where the fuses could not be read. -/
def State.trySlot (s : State) (i : Nat) : Nat :=
  if s.sec.fuses.isNone then 0x08 else s.slotResult (s.sec.slot i)

/-- Report the outcome of a slot. -/
def SecSt.setResult (c : SecSt) (i r : Nat) : SecSt := if i = 0 then { c with resultA := r } else { c with resultB := r }

/-- Step 7 of R396: the body of an image lies in the shared SRAM, once steps 1 to 6 have passed (log 186). -/
def State.copyBody (s : State) (t : Tab Byte) : State :=
  s.sramWrite (Config.bodyBase % sramBytes) (slotRange t 0x2000 (fwBodyLength (leNat (imageHeader t))))

/-- What an attempt on a slot leaves in the shared SRAM. -/
def State.afterTry (s : State) (i r : Nat) : State := if r = 0x00 ∨ r = 0x07 then s.copyBody (s.sec.slot i) else s

/-- A slot has passed: the identity keys are derived and firmware starts (R398). -/
def State.startFirmware (s : State) (i : Nat) : State :=
  { s with sec := { s.sec with header := imageHeader (s.sec.slot i), identity := true },
           rst := { s.rst with fwRunning := true } }

/-- Both slots have failed: the recovery service runs; the part is ready without firmware (R399; log 74). -/
def State.startRecovery (s : State) : State :=
  { s with rst := { s.rst with recovery := true, ready := true } }.drainFoe

/-- What firmware reports once it runs: a failed first slot (R398) and a CFG_SENSE fault (R380). -/
def State.reportBoot (s : State) (fellBack : Bool) : State :=
  let a := if fellBack then s.event 0x160 (unitOf 0xF 0) .ok (s.sec.resultA * 256 + s.sec.resultB) else s
  if a.rst.cfgFault then a.event 0x144 0 .ok 0 else a

/-- The ROM tries the slots in order. -/
def State.bootRom (s : State) : State :=
  let i := s.firstSlot
  let r := s.trySlot i
  let a := { s.afterTry i r with sec := { (s.sec.setResult i r) with otherOnce := none } }
  if r = 0 then (a.startFirmware i).reportBoot false
  else
    let q := s.trySlot (1 - i)
    let b := { a.afterTry (1 - i) q with sec := a.sec.setResult (1 - i) q }
    if q = 0 then (b.startFirmware (1 - i)).reportBoot true else b.startRecovery

/-- The domains that the boot ROM and firmware run on are released (R372, R376). -/
def State.bootClocks (s : State) : Bool := [Domain.timebase, .security, .control].all (fun d => s.rst.domains.contains d)

/-- BOOT_VERIFY (R376, R396). -/
def execBootVerify (dt : Nat) (s : State) : Host.Outcome State Fault Refusal :=
  let a := s.advance dt
  .next (if a.inReset || a.rst.fwRunning || a.rst.recovery || !a.rst.cfgSampled || !a.bootClocks then a
    else a.readFuses.bootRom.releaseEcat)

end Sys2Proof.Machine
end

