-- ==== Sys2Proof/Machine/Restore.lean ====
section
/-!
DEFINITION. The built-in self-test, the journal restore that makes the part ready, and Standby (R259, R264, R265, R343, R346,
R347, R370, R376, R382 to R393, R401).
-/

namespace Sys2Proof.Machine

open Sys2Proof

/-! ## BIST (R389 to R391) -/

/-- The conditions of a die: VDD_CORE between 0.72 and 0.80 V, and a clock that held 2.4 GHz within 1 %. -/
def BistFinding.dieValid (f : BistFinding) (d : Nat) : Bool :=
  decide (720 ≤ f.vddCore.getD d 0 ∧ f.vddCore.getD d 0 ≤ 800) && f.clockOk.getD d false

/-- Every fitted die was tested under valid conditions. -/
def BistFinding.allValid (f : BistFinding) (dies : Nat) : Bool := (List.range dies).all (fun d => BistFinding.dieValid f d)

/-- BIST_COMPLETE (R376, R389): the result waits for the restore; HBM holds zero with valid ECC. -/
def State.finishBist (s : State) (f : BistFinding) : State :=
  let a := { s with rst := { s.rst with bistDone := true, bistFound := some f },
                    mem := { s.mem with hbm := [], badBursts := [], patrolFound := [] } }
  ((a.setObj Obj.vddCoreDx0 (f.vddCore.getD 0 0 % 2 ^ 16)).setObj Obj.vddCoreDx1
    (if s.part.variant.dies = 2 then f.vddCore.getD 1 0 % 2 ^ 16 else 0)).setObj Obj.bistDurationMs (f.durationMs % 2 ^ 16)

/-- BIST_COMPLETE: it runs once the clocks of the dies are good or have timed out. -/
def execBistComplete (dt : Nat) (found : BistFinding) (s : State) : Host.Outcome State Fault Refusal :=
  let a := s.advance dt
  .next (if a.inReset || !a.rst.fwRunning || a.rst.bistDone || !a.clocksSettled then a else a.finishBist found)

/-- The die of a stack: half 0 lies on DX0, half 1 on DX1; both halves of a TMN-5840 lie on DX0 (R251). -/
def stackDie (v : Variant) (i : Nat) : Nat := if v.dies = 1 then 0 else i / 4

/-- Per die the finding where its conditions were valid, else the past result (R391). Cores are tested with DX0 and lane
groups with both dies (log 78). -/
def bistMerge (v : Variant) (now past : BistFinding) : BistFinding :=
  let pick (die : Nat → Nat) (a b : List Nat) : List Nat :=
    a.filter (fun x => BistFinding.dieValid now (die x)) ++ b.filter (fun x => !(BistFinding.dieValid now (die x)))
  { now with
    failedTiles := (pick tileDie now.failedTiles past.failedTiles).filter (fun p => decide (p < v.tiles)),
    failedCores := (pick (fun _ => 0) now.failedCores past.failedCores).filter (fun c => decide (c < 8)),
    failedStacks := (pick (stackDie v) now.failedStacks past.failedStacks).filter (fun i => decide (i < v.stacks)),
    failedGroups := (if BistFinding.allValid now v.dies then now.failedGroups else past.failedGroups).filter
      (fun g => v.hasBridge && decide (g < 8)),
    failedSegments := (pick (fun k => k / 12) now.failedSegments past.failedSegments).filter
      (fun k => decide (k < 12 * v.dies)),
    failedPorts := (pick (fun k => k / 16) now.failedPorts past.failedPorts).filter (fun k => decide (k < v.ports)) }

/-- A domain whose clock-good never rose is treated as a block that failed BIST (R373); the CN and the SN are no block of
R389, see `State.loseNetworks`. -/
def BistFinding.addDomain (f : BistFinding) : Domain → BistFinding
  | .tile p => { f with failedTiles := insertOnce f.failedTiles p }
  | .segment d c => { f with failedSegments := insertOnce f.failedSegments (12 * d + c) }
  | .hbmController i => { f with failedStacks := insertOnce f.failedStacks i }
  | .hbmPhy i => { f with failedStacks := insertOnce f.failedStacks i }
  | .opticalTx k => { f with failedPorts := insertOnce f.failedPorts k }
  | .bridge _ => { f with failedGroups := List.range 8 }
  | _ => f

/-- The keys of the firmware's record of the last BIST under valid conditions: one group of three values (R392, log
79). -/
def bistKey (i : Nat) : Nat := objKey 1 (i + 1)

/-- The record of a result. -/
def bistRecord (f : BistFinding) : List (Nat × Nat) :=
  let tiles (w : Nat) : Nat := tileWord w (fun p => f.failedTiles.contains p)
  [(bistKey 0, tiles 0 + tiles 1 * 2 ^ 64),
   (bistKey 1, tiles 2 + (maskOf f.failedCores.eraseDups + maskOf f.failedStacks.eraseDups * 2 ^ 8 +
      maskOf f.failedGroups.eraseDups * 2 ^ 16) * 2 ^ 64),
   (bistKey 2, maskOf f.failedSegments.eraseDups + maskOf f.failedPorts.eraseDups * 2 ^ 32)]

/-- The numbers below n whose bits are set in a word. -/
def setNumbers (n w : Nat) : List Nat := (List.range n).filter (fun i => bitAt w i)

/-- The result of a record. -/
def bistOfRecord (a b c : Nat) : BistFinding :=
  { BistFinding.clean with
    failedTiles := setNumbers 192 (a + bitsOf b 63 0 * 2 ^ 128), failedCores := setNumbers 8 (bitsOf b 71 64),
    failedStacks := setNumbers 8 (bitsOf b 79 72), failedGroups := setNumbers 8 (bitsOf b 87 80),
    failedSegments := setNumbers 24 (bitsOf c 31 0), failedPorts := setNumbers 32 (bitsOf c 63 32) }

/-- The result that the journal holds. -/
def State.journalBist (s : State) : Option BistFinding :=
  match Tab.look s.journal.fwRecords (bistKey 0), Tab.look s.journal.fwRecords (bistKey 1),
      Tab.look s.journal.fwRecords (bistKey 2) with
  | some a, some b, some c => some (bistOfRecord a b c)
  | _, _, _ => none

/-- The finding of this start. -/
def State.bistNow (s : State) : BistFinding := s.rst.bistFound.getD BistFinding.clean

/-- The result in force after the restore (R373, R391). -/
def State.bistResult (s : State) : BistFinding :=
  s.rst.failedDomains.foldl BistFinding.addDomain
    (bistMerge s.part.variant s.bistNow (s.journalBist.getD s.part.factoryBist))

/-- A result with nothing failed. -/
def BistFinding.allPassed (f : BistFinding) : Bool :=
  f.failedTiles.isEmpty && f.failedCores.isEmpty && f.failedStacks.isEmpty && f.failedGroups.isEmpty &&
    f.failedSegments.isEmpty && f.failedPorts.isEmpty

/-- BIST_STATUS (R393). -/
def State.bistStatusOf (s : State) (f : BistFinding) : Nat :=
  if BistFinding.allValid s.bistNow s.part.variant.dies then (if BistFinding.allPassed f then 1 else 2)
  else if s.journalBist.isSome then 3 else 4

/-- Keep records of one group: at once in force, and programmed unless the next snapshot is about to hold them. -/
def State.keepGroup (s : State) (vs : List (Nat × Nat)) : State :=
  let a := { s with journal := { s.journal with
      fwRecords := vs.foldl (fun (t : Tab Nat) x => Tab.put t x.1 x.2) s.journal.fwRecords } }
  if s.journalBusy || s.journalFull vs.length then a
  else (State.programAll (groupOf vs) [] a).1.compactIfFull

/-- R392: a result under valid conditions is recorded where it differs from the record in force. -/
def State.recordBist (s : State) (f : BistFinding) : State :=
  if BistFinding.allValid s.bistNow s.part.variant.dies &&
      (bistRecord f).any (fun x => Tab.look s.journal.fwRecords x.1 != some x.2) then s.keepGroup (bistRecord f) else s

/-! ## Blocks that failed BIST (R347, R389, R390) -/

/-- A failed tile sleeps. -/
def State.failTile (s : State) (p : Nat) : State := s.sleepTile p

/-- The core on which a failed core's role starts: C7, or the lowest-numbered core that passed where C7 failed too. -/
def roleCore (failed : List Nat) : Option Nat :=
  if failed.contains 7 then (List.range 7).find? (fun c => !(failed.contains c)) else some 7

/-- A failed core runs nothing; its role and its sources go to another. -/
def State.failCore (s : State) (failed : List Nat) (c : Nat) : State :=
  let k := s.core c
  let a := s.setCore c { k with roles := [], condition := 2 }
  match roleCore failed with
  | some r => ((if c = r then a else a.setCore r { a.core r with roles := (a.core r).roles ++ k.roles })).retarget c r
  | none => a

/-- A failed port is held down until the next reset. -/
def State.failPort (s : State) (k : Nat) : State := s.setPort k (Port.heldDown { s.port k with unusable := true })

/-- A block is marked unusable until the next reset. -/
def State.markUnusable (s : State) (b : Block) : State :=
  { s with rst := { s.rst with unusableBlocks := insertOnce s.rst.unusableBlocks b } }

/-- The networks of a die whose clock-good never rose are unusable (R373, R390). -/
def State.loseNetwork (s : State) : Domain → State
  | .cnSn d => s.markUnusable (.network d)
  | _ => s

/-- ENABLED_TILES: the built tiles less those that the result in force marks unusable (R390). -/
def State.tilesPassed (s : State) : Nat :=
  ((List.range s.part.variant.tiles).filter (fun p => !(s.rst.bistInForce.failedTiles.contains p))).length

/-- R389, R390: put a result in force. -/
def State.applyBist (s : State) (f : BistFinding) : State :=
  let a := ({ s with rst := { s.rst with bistInForce := f } }.setObj Obj.bistStatus (s.bistStatusOf f))
  let b := f.failedTiles.foldl (fun (t : State) p => t.failTile p) a
  let c := f.failedCores.foldl (fun (t : State) k => t.failCore f.failedCores k) b
  let d := f.failedStacks.foldl (fun (t : State) i => t.loseStack i) c
  let e := f.failedGroups.foldl (fun (t : State) g => (t.closeGroup g 0).closeGroup g 1) d
  let g := f.failedSegments.eraseDups.foldl (fun (t : State) k => t.failSegment (k / 12) (k % 12)) e
  let h := f.failedPorts.foldl (fun (t : State) k => t.failPort k) g
  let n := h.rst.failedDomains.foldl (fun (t : State) d => t.loseNetwork d) h
  if n.tilesPassed < n.part.variant.minTiles then n.event 0x161 0 .ok 0 else n

/-- A tile whose clock does not come good while the part runs is unusable until the next reset; outside the exit from
Standby, which places every logical tile again, a logical tile on it moves to a reserve tile. -/
def State.loseTile (s : State) (p : Nat) : State :=
  let a := (s.setPt p { (s.pt p).sleep with unusable := true }).stopClock p
  if a.obj Obj.deviceState = 0 then (a.moveFrom p).settle else a

/-- A clock that does not come good after the restore, at the exit from Standby or in the wake of a tile: its block is out
of service until the next reset like one that failed BIST. The BIST result in force stands (R4), so the block is marked
unusable on its own account (R373, R384, log 174). -/
def State.loseDomain (s : State) : Domain → State
  | .tile p => s.loseTile p
  | .segment e c => (s.markUnusable (.segment e c)).failSegment e c
  | .cnSn d => s.markUnusable (.network d)
  | .hbmController i => (s.markUnusable (.stack i)).loseStack i
  | .hbmPhy i => (s.markUnusable (.stack i)).loseStack i
  | .opticalTx k => (s.markUnusable (.port k)).failPort k
  | .bridge _ => (List.range 8).foldl (fun (t : State) g =>
      (((t.markUnusable (.laneGroup g)).closeGroup g 0).closeGroup g 1)) s
  | _ => s

/-- CLOCK_GOOD_TIMEOUT (R373): the part starts without the domain. -/
def execClockGoodTimeout (dt : Nat) (domain : Domain) (s : State) : Host.Outcome State Fault Refusal :=
  let a := s.advance dt
  .next (if a.domainWaits domain && Domain.ofDie domain then
    let b := { a with rst := { a.rst with failedDomains := a.rst.failedDomains ++ [domain] } }
    if b.rst.restored then b.loseDomain domain else b
  else a)

/-! ## The restore (R376) -/

/-- R401: SVN_FLOOR rises to the image's SVN, and the key sets below the image's are revoked. -/
def State.blowFuses (s : State) : State :=
  let h := leNat s.sec.header
  { s with part := { s.part with
      svnFloor := max s.part.svnFloor (fwSvn h),
      keyRevoked := s.part.keyRevoked ||| BitVec.ofNat 4 (2 ^ fwKeySet h - 1) } }

/-- R24, R26, R29, R32: the line starts from the restored values, which are in force until a take opens. -/
def State.startLine (s : State) : State :=
  let a := s.setObj Obj.sourceInForce (s.obj Obj.positionSource)
  { a with
    time := { a.time with
      period := s.obj Obj.advNominalPeriodUs * tbPerUs, lastAdv := s.time.tb, advSeen := false, silenceRaised := false },
    take := { a.take with inForce := a.valuesToForce } }

/-- The running values that start from K objects: the loss scale and the predictors' margins (R149, R210). -/
def State.startRunning (s : State) : State :=
  (List.range 64).foldl (fun (t : State) p => t.setObj (Obj.predictorMargin + p) (s.obj Obj.marginInit))
    (s.setObj Obj.lossScale (s.obj Obj.lossScaleInit))

/-- Every effective calibration value, and the event of a factory region whose CRC failed (R345, R346). -/
def State.startCalibration (s : State) : State :=
  let a := [1, 2, 3, 4, 5, 6].foldl (fun (t : State) n => t.applyCals n) s
  let b := a.setObj Obj.factoryCalValid (if s.part.factoryCrcOk then 1 else 0)
  if s.part.factoryCrcOk then b else b.event 0x0E6 0 .ok 0

/-- R370: takes resume where every cause is within RESUME_MASK. -/
def State.resumeTakes (s : State) : State :=
  if clearBits s.rst.lastCauses (s.obj Obj.resumeMask) = 0 then (s.setObj Obj.takeControl 1).setObj Obj.takesResumed 1 else s

/-- Without a valid region the first snapshot is wanted (log 53). -/
def State.firstSnapshot (s : State) : State := if s.regionValid then s else s.startCompaction

/-- The journal is restored and the part is ready: what was detected before is logged (R417). -/
def State.comeUp (s : State) : State :=
  { s.restoreJournal with rst := { s.restoreJournal.rst with restored := true, ready := true } }.flushEarly

/-- JOURNAL_RESTORE (R343, R370, R376, R391). -/
def State.restore (s : State) : State :=
  let a := s.comeUp.firstSnapshot
  let f := a.bistResult
  let b := (a.applyBist f).recordBist f
  let c := b.startCalibration.startRunning.startLine
  let d := c.forcePriorities c.shadowValues
  (((d.resumeTakes.restReserve.event 0x140 0 .ok d.rst.lastCauses).blowFuses.enablePorts).drainFoe).compactIfFull

/-- JOURNAL_RESTORE (R376). -/
def execJournalRestore (dt : Nat) (s : State) : Host.Outcome State Fault Refusal :=
  let a := s.advance dt
  .next (if a.inReset || !a.rst.fwRunning || !a.rst.bistDone || a.rst.restored then a else a.restore)

/-! ## Standby (R383, R384, R386) -/

/-- A command that has started and not completed. -/
def QEntry.running (e : QEntry) : Bool :=
  match e.st with
  | .queued => false
  | .inRun _ => true
  | .issued => true

/-- No command is still running. -/
def State.quiet (s : State) : Bool := s.tiles.all (fun e => !(e.2.queue.any QEntry.running))

/-- The dies are gated: every tile loses what R444 lets it lose. -/
def State.gateTiles (s : State) : State :=
  { s with phys := (List.range s.part.variant.tiles).map (fun p => (p, (s.pt p).sleep)),
           fabric := { s.fabric with rounds := [], ready := [] } }

/-- The clocks of the dies stop; each domain is released again at the exit (R383, R384). -/
def State.gateClocks (s : State) : State :=
  { s with rst := { s.rst with domains := s.rst.domains.filter (fun d => !(Domain.gated d)) } }

/-- The ports go dark, where the fabric is not absent or held dark anyway. -/
def State.standbyPorts (s : State) : State := if !s.hasOptics || s.heldDark then s else s.darkenPorts

/-- Steps 2 to 5 of R383. -/
def State.enterSleep (s : State) : State :=
  (((s.standbyPorts.gateTiles.gateClocks).setObj Obj.deviceState 2).incObj Obj.standbyEntries).event 0x141 0 .ok 0

/-- STANDBY_ENTRY (R383): once the commands still running have completed. -/
def execStandbyEntry (dt : Nat) (s : State) : Host.Outcome State Fault Refusal :=
  let a := s.advance dt
  .next (if decide (a.obj Obj.deviceState = 1) && a.quiet then a.enterSleep else a)

/-- A logical tile placed again: queue, streams and ring empty, flags 0, its step counter kept (R384, R386). -/
def LogTile.again (t : LogTile) (phys : Option Nat) : LogTile :=
  { t.renew phys t.stepLevel with stepCtr := t.stepCtr }

/-- Every usable tile is powered and fills its random table. -/
def State.wakeTiles (s : State) : State := s.placeable.foldl (fun (t : State) p => t.wakeTile p) s

/-- Place the active reel's tiles under R56 and reload their descriptors. -/
def State.replaceReel (s : State) (r : Reel) : State :=
  let place := s.placement r
  let used := (List.range r.tileBudget).map (fun l => (l, (s.lt l).again place[l]?))
  let rest := (s.tiles.filter (fun e => decide (r.tileBudget ≤ e.1))).map (fun e => (e.1, e.2.again none))
  let a : State := { s with tiles := used ++ rest, mem := { s.mem with snQueue := [] } }
  place.zipIdx.foldl (fun (t : State) q => t.loadDescriptors r q.2 q.1) a

/-- Every fill under way ends: the exit from Standby waits for them (R384, step 4). -/
def State.endFills (s : State) : State :=
  { s with phys := s.phys.map (fun e => if e.2.filling then (e.1, e.2.fillTable s.seed) else e) }

/-- Steps 1 to 6 of R384. -/
def State.leaveSleep (s : State) : State :=
  let a := s.wakeTiles
  let b := match a.reels.active with
    | some r => a.replaceReel r
    | none => a
  b.restReserve.endFills.enablePorts.setObj Obj.deviceState 0

/-- STANDBY_EXIT (R384), once the domains of the dies have been released. -/
def execStandbyExit (dt : Nat) (s : State) : Host.Outcome State Fault Refusal :=
  let a := s.advance dt
  .next (if decide (a.obj Obj.deviceState = 3) && a.clocksSettled then a.leaveSleep else a)

end Sys2Proof.Machine
end

