-- ==== Sys2Proof/Machine/Jtag.lean ====
section
/-!
DEFINITION. The test port: instructions, debug unlock and scan (R405, R406).
-/

namespace Sys2Proof.Machine

open Sys2Proof

/-- A command of the test port: TRST_N low holds the port in reset (R437). -/
def State.testPort (s : State) (act : State → State) : State := if s.sec.trstN then act s else s

/-- Load the instruction register. -/
def State.loadIr (s : State) (code : Nat) : State := { s with sec := { s.sec with jtagIr := code } }

/-- A free value in the next output, and its use. -/
def State.freeOut (s : State) (n : Nat) : List Byte :=
  (List.range n).map (fun i => (Config.freeValue (s.free + i)).setWidth 8)

/-- EXTEST (R405): the instruction is selected; the boundary register is left out (log 75). -/
def execExtest (s : State) : Host.Outcome State Fault Refusal := .next (s.testPort (fun t => t.loadIr 0x00))

/-- SAMPLE/PRELOAD (R405): as EXTEST. -/
def execSamplePreload (s : State) : Host.Outcome State Fault Refusal := .next (s.testPort (fun t => t.loadIr 0x02))

/-- The IDCODE: the part number in bits 27 to 12; the other bits are not given (log 76). -/
def State.idcode (s : State) : Nat :=
  setBits (s.freeNow.toNat % 2 ^ 32) 27 12 s.part.variant.partNumber

/-- IDCODE (R405). -/
def execIdcode (s : State) : Host.Outcome State Fault Refusal :=
  .next (s.testPort (fun t => (t.loadIr 0x01).useFree.emit (.tdo (leBytes 4 t.idcode))))

/-! ## Debug unlock -/

/-- A challenge is refused (R405). -/
def State.challengeRefused (s : State) : Bool := s.debugDisabled || decide (3 ≤ s.sec.debugFailures)

/-- A fresh challenge; it replaces the one before. -/
def State.newChallenge (s : State) : State :=
  ({ s with sec := { s.sec with challenge := some s.entropy } }.useFrees 4).emit (.tdo (leBytes 32 s.entropy.toNat))

/-- DBG_CHALLENGE (R405): a refused one leaves none to answer, and answers nothing. -/
def execDbgChallenge (s : State) : Host.Outcome State Fault Refusal :=
  .next (s.testPort (fun t =>
    let a := t.loadIr 0x10
    if a.challengeRefused then { a with sec := { a.sec with challenge := none } } else a.newChallenge))

/-- "TMN-DBG". -/
def ctxDebug : List Byte := [0x54, 0x4D, 0x4E, 0x2D, 0x44, 0x42, 0x47]

/-- The 43 bytes that a response signs. -/
def State.debugMessage (s : State) (challenge : BitVec 256) (level : Nat) : List Byte :=
  leBytes 32 challenge.toNat ++ leBytes 8 s.part.serial ++ leBytes 2 s.part.variant.partNumber ++ leBytes 1 level

/-- Both signatures verify under keys whose digest is DEBUG_DIGEST. -/
def State.debugVerifies (s : State) (challenge : BitVec 256) (level : Nat) (keys sigEd sigMl : List Byte) : Bool :=
  let m := s.debugMessage challenge level
  s.sec.fuses.any (fun f => sha3384Bits keys == f.debugDigest) && ed25519Verify m (keys.take 32) sigEd &&
    mlDsaVerify (mlMessage ctxDebug m) (keys.drop 32) sigMl

/-- A response that unlocks: a listed level, and signatures that verify (log 77). -/
def State.debugAccepts (s : State) (challenge : BitVec 256) (level : Nat) (keys sigEd sigMl : List Byte) : Bool :=
  (level == 1 || level == 2) && s.debugVerifies challenge level keys sigEd sigMl

/-- DBG_RESPONSE (R405): the latest challenge is answered once. Without one a response counts as failed. -/
def State.answerChallenge (s : State) (level : Nat) (keys sigEd sigMl : List Byte) : State :=
  let used := { s with sec := { s.sec with challenge := none } }
  let fail := { used with sec := { used.sec with debugFailures := s.sec.debugFailures + 1 } }
  match s.sec.challenge with
  | none => fail
  | some c =>
    if s.debugAccepts c level keys sigEd sigMl then
      { used with sec := { used.sec with debugLevel := max s.sec.debugLevel level } }.event 0x162 (unitOf 0xF 0) .ok level
    else fail

/-- DBG_RESPONSE. -/
def execDbgResponse (level : Nat) (keys sigEd sigMl : List Byte) (s : State) : Host.Outcome State Fault Refusal :=
  .next (s.testPort (fun t => (t.loadIr 0x11).answerChallenge level keys sigEd sigMl))

/-- DBG_STATUS (R405, R406): the level, the failure count, the zeroisation state and the step that failed, one byte each (log
77). -/
def State.debugStatus (s : State) : List Byte :=
  leBytes 1 s.sec.debugLevel ++ leBytes 1 (min s.sec.debugFailures 255) ++ leBytes 1 (if s.sec.zeroised then 1 else 0) ++
    leBytes 1 s.sec.scanFailStep

/-- DBG_STATUS. -/
def execDbgStatus (s : State) : Host.Outcome State Fault Refusal :=
  .next (s.testPort (fun t => (t.loadIr 0x12).emit (.tdo t.debugStatus)))

/-! ## Scan (R406) -/

/-- Step 1: every domain but always-on, security and the test port is held in reset. No cause is recorded; LAST_CAUSES, which
nothing can read until the next reset, is emptied so that this reset starts it afresh (R366). -/
def State.holdForScan (s : State) : State :=
  let a := s.resetBlocks
  { a with
    rst := { a.rst with lastCauses := if s.rst.ready then 0 else a.rst.lastCauses },
    sec := { s.sec with slotA := a.sec.slotA, slotB := a.sec.slotB, heldForScan := true } }

/-- Step 2: the identity keys, the seeds and the copies of DEVICE_SECRET are zeroised. -/
def State.zeroise (s : State) : State := 
  { s with sec := { s.sec with
      identity := false, zeroised := true, fuses := s.sec.fuses.map (fun f => { f with deviceSecret := 0 }) } }

/-- Step 3: the random table of every tile is zeroised. -/
def State.zeroiseTables (s : State) : State :=
  { s with phys := s.phys.map (fun e => (e.1, { e.2 with tableFill := .zeroed, filling := false, parityErrors := [] })) }

/-- Step 4: fuse reading is blocked. -/
def State.blockFuses (s : State) : State := { s with sec := { s.sec with fuseLatch := true } }

/-- Step 5: internal scan is enabled. -/
def State.openScan (s : State) : State := { s with sec := { s.sec with scanEnabled := true } }

/-- Steps 1 to 4 of R406. -/
def State.scanStep (s : State) : Nat → State
  | 1 => s.holdForScan
  | 2 => s.zeroise
  | 3 => s.zeroiseTables
  | 4 => s.blockFuses
  | _ => s

/-- The first n steps. -/
def State.scanSteps (s : State) : Nat → State
  | 0 => s
  | n + 1 => (s.scanSteps n).scanStep (n + 1)

/-- The read-back of step k fails: scan stays disabled. Whether the step itself took effect is open (log 4). -/
def State.failScan (s : State) (k : Nat) : State :=
  let a := s.scanSteps (k - 1)
  let b := if a.freeNow.toNat % 2 = 1 then a.useFree.scanStep k else a.useFree
  { b with sec := { b.sec with scanEnabled := false, scanFailStep := k } }

/-- The whole sequence. -/
def State.enableScan (s : State) : State :=
  let a := (s.scanSteps 4).openScan
  { a with sec := { a.sec with scanFailStep := 0 } }

/-- SCAN_ENABLE (R406): it runs only after a level-2 unlock; `readbackFails` names the step whose read-back fails, if any. -/
def execScanEnable (readbackFails : Option Nat) (s : State) : Host.Outcome State Fault Refusal :=
  .next (s.testPort (fun t =>
    let a := t.loadIr 0x20
    if a.sec.debugLevel ≠ 2 then a
    else match readbackFails with
      | some k => if 1 ≤ k ∧ k ≤ 5 then a.failScan k else a.enableScan
      | none => a.enableScan))

/-- BYPASS (R405): 0xFF, and every code that is not listed. -/
def execBypass (code : Nat) (s : State) : Host.Outcome State Fault Refusal := .next (s.testPort (fun t => t.loadIr (code % 2 ^ 8)))

end Sys2Proof.Machine
end

