-- ==== Sys2Proof/Machine/Mask.lean ====
section
/-!
DEFINITION. The mask unit: TRIM, TIPIN, SCAN and CHECK (R133 to R148) and what they report to the density controller
(R149, R150).
-/

namespace Sys2Proof.Machine

open Sys2Proof

/-! ## Sorting -/

/-- Merge two ranked lists; `before a b` holds when a may stand ahead of b. The fuel is the joint length. -/
def mergeRanked {α : Type} (before : α → α → Bool) : Nat → List α → List α → List α
  | 0, _, _ => []
  | _ + 1, [], ys => ys
  | _ + 1, xs, [] => xs
  | n + 1, x :: xs, y :: ys =>
    if before x y then x :: mergeRanked before n xs (y :: ys) else y :: mergeRanked before n (x :: xs) ys

/-- Merge neighbouring lists. -/
def mergePairs {α : Type} (before : α → α → Bool) : List (List α) → List (List α)
  | a :: b :: t => mergeRanked before (a.length + b.length + 1) a b :: mergePairs before t
  | l => l

/-- Merge until one list is left. -/
def mergeAll {α : Type} (before : α → α → Bool) : Nat → List (List α) → List α
  | 0, l => l.flatten
  | n + 1, l => if l.length ≤ 1 then l.flatten else mergeAll before n (mergePairs before l)

/-- Rank a list. -/
def ranked {α : Type} (before : α → α → Bool) (l : List α) : List α := mergeAll before (l.length + 1) (l.map (fun a => [a]))

/-! ## Operands (R71, R137) -/

/-- QMODE of a mask command. -/
def maskQmode (x : Nat) : Nat := bitsOf x 178 177


/-- PER_QUIRE. -/
def perQuire (x : Nat) : Nat := bitsOf x 199 192

/-- The number of quires of a metadata tensor. -/
def Desc.quires (m : Desc) : Nat := m.sz 0 * m.sz 1

/-- META of SCAN and CHECK: UINT16 of RANK 2. -/
def metaOk (m : Desc) : Bool := m.elemType == 0x0C && m.layout == 0 && m.rank == 2

/-- W and META of TRIM and TIPIN, both of RANK 2 (R134); a destination with an exact entry is MALFORMED (R205). -/
def maskedOk (x : Nat) (w m : Desc) : Bool :=
  w.layout == maskQmode x && w.rank == 2 && m.rank == 2 && m.isMetaOf w && !(scaleExact w.scaleId) &&
    !(scaleExact m.scaleId)

/-- The quires of a metadata tensor in the order of R116, read under R127. -/
def State.maskQuires (s : State) (p x : Nat) (m : Desc) : List Quire := (s.codes p m).map (readQuire (maskQmode x))

/-- The bits rejected in all quires. -/
def rejectedOf (qs : List Quire) : Nat := listSum (qs.map (fun q => q.rejected))

/-- One present position of W: quire, bit, slot. -/
structure Present where
  quire : Nat
  bit : Nat
  slot : Nat
  deriving DecidableEq, Repr

/-- The element index of bit `b` of quire `q` in W's uncompressed logical order (R99, R141). -/
def Desc.bitIndex (w : Desc) (q b : Nat) : Nat :=
  let n := w.sz 0 / 4
  w.elemIndex [4 * (q % n) + b % 4, 4 * (q / n) + b / 4]

/-- Repack one quire under R116: the kept bits in ascending order with their values, freed slots zero. -/
def repackQuire (slots : Nat) (codes : Array Nat) (q : Nat) (kept : List (Nat × Option Nat)) : List Nat :=
  let cs := kept.map (fun b => match b.2 with
    | some t => codes.getD (q * slots + t) 0
    | none => 0)
  cs ++ List.replicate (slots - cs.length) 0

/-- Write W and META back: `now` gives each quire's bits, ascending, with the slot whose value each keeps; quires whose
metadata does not change keep their bytes. -/
def State.rewriteMask (s : State) (p : Nat) (w m : Desc) (now : List (List (Nat × Option Nat))) : State × Status :=
  let codes := (s.codes p w).toArray
  let old := (s.codes p m).toArray
  let md (q : List (Nat × Option Nat)) : Nat := listSum (q.map (fun b => 2 ^ b.1))
  let n := w.slots
  let wc := now.zipIdx.flatMap (fun q =>
    if old.getD q.2 0 = md q.1 then (List.range n).map (fun t => codes.getD (q.2 * n + t) 0)
    else repackQuire n codes q.2 q.1)
  let r := s.writeCodes p w wc
  let t := r.1.writeCodes p m (now.map md)
  (t.1, worseEcc r.2 t.2)

/-- The fraction F of a class or of the record (R141, R144); `key` is TRIM_DENSITY or REGROW_DENSITY. -/
def State.fraction (s : State) (x key : Nat) : Nat :=
  if fromPolicy x then s.obj (key + 256 * policyClass x) else bitsOf x 175 160

/-- The status of a mask command that met `rej` rejected bits (R138). -/
def maskStatus (rej : Nat) (ecc : Status) : Status := if rej = 0 then ecc else .quireViolation


/-! ## TRIM (R141) -/

/-- The rank of a stored element: its magnitude, none for a NaN. -/
def trimMagnitude (elem code : Nat) : Option Val :=
  match fmtOf elem with
  | some f => if (f.decode code).isNan then none else some (f.decode code).abs
  | none => none

/-- One weight for ranking. -/
structure Weight where
  at_ : Present
  mag : Option Val
  index : Nat
  deriving DecidableEq, Repr

/-- Larger magnitude first, NaN last, then the lower element index. -/
def weightBefore (a b : Weight) : Bool :=
  match a.mag, b.mag with
  | some u, some v => Val.lt v u || (Val.le v u && decide (a.index ≤ b.index))
  | some _, none => true
  | none, some _ => false
  | none, none => decide (a.index ≤ b.index)

/-- Every present weight of W. -/
def State.weightsOf (s : State) (p : Nat) (w : Desc) (qs : List Quire) : List Weight :=
  let codes := (s.codes p w).toArray
  qs.zipIdx.flatMap (fun q => q.1.accepted.map (fun a =>
    { at_ := { quire := q.2, bit := a.1, slot := a.2 },
      mag := trimMagnitude w.elemType (codes.getD (q.2 * w.slots + a.2) 0), index := w.bitIndex q.2 a.1 }))

/-- TRIM once its checks have passed. -/
def State.trimRun (s : State) (p x : Nat) (w m : Desc) : Done :=
  let qs := s.maskQuires p x m
  let all := s.weightsOf p w qs
  let keep := shareOf (s.fraction x Obj.trimDensity) w
  let drop := if all.length ≤ keep then [] else ((ranked weightBefore all).drop keep).map (fun a => 16 * a.at_.quire + a.at_.bit)
  let gone := (drop.foldl (fun (t : Array Bool) i => t.setIfInBounds i true) (Array.replicate (16 * qs.length) false))
  let now := qs.zipIdx.map (fun q => (q.1.accepted.filter (fun a => !(gone.getD (16 * q.2 + a.1) false))).map (fun a =>
    (a.1, some a.2)))
  let r := s.rewriteMask p w m now
  let rej := rejectedOf qs
  { s := r.1, status := maskStatus rej r.2, count0 := drop.length, count1 := 0, rejected := rej, oor := 0,
    report := some (all.length - drop.length, w.sz 0 * w.sz 1) }

/-- TRIM. -/
def trimEff (s : State) (_l p : Nat) (e : QEntry) : Done :=
  let w := s.desc p (recOp e.x 64)
  let m := s.desc p (recOp e.x 80)
  if w.headOk && w.isEmpty then Done.only s .zeroWork
  else match firstFault [s.descFault w true [0], s.descFault m true [0], need (maskedOk e.x w m) .malformed] with
    | some st => Done.only s st
    | none => s.trimRun p e.x w m

/-! ## SCAN (R142, R143) -/

/-- R137: the forms of SCAN's operands. DESIGN CHOICE (log 192): the table gives GA and GB no LAYOUT; they are dense, and a
quire-compressed one is MALFORMED. -/
def scanOk (x : Nat) (m c ga gb : Desc) : Bool :=
  metaOk m && c.isForm 0x0B [2 * perQuire x, m.quires] && !(scaleExact c.scaleId) && ga.layout == 0 &&
    gb.layout == 0 && ga.rank == 2 &&
    gb.rank == 2 && ga.sz 0 == 4 * m.sz 0 && gb.sz 0 == 4 * m.sz 1 && gb.sz 1 == ga.sz 1 &&
    classOk ga.elemType gb.elemType && classWidth ga.elemType == classWidth gb.elemType

/-- G at one position: FP32 products summed in slices of 256, the slices added in ascending order. -/
def scanSum (products : List F32) : F32 :=
  match (chunks 256 (ceilDiv products.length 256) products).map sliceSum with
  | [] => 0
  | a :: t => t.foldl f32Add a

/-- G(k, n) (R142). -/
def scanG (ga gb : Array Val) (n0 k0 ms k n : Nat) : F32 :=
  scanSum ((List.range ms).map (fun j => roundF32 (Val.mul (gb.getD (j * k0 + k) Val.zero) (ga.getD (j * n0 + n) Val.zero))))

/-- A candidate: |G| and its bit. -/
def candBefore (a b : F32 × Nat) : Bool :=
  Val.lt (f32Val b.1) (f32Val a.1) || (Val.le (f32Val b.1) (f32Val a.1) && decide (a.2 ≤ b.2))

/-- The row of CAND for one quire (R143). -/
def candRow (per : Nat) (cands : List (F32 × Nat)) : List Nat :=
  let top := (ranked candBefore cands).take per
  top.flatMap (fun c => [c.1.toNat, c.2 + 2 ^ 31]) ++ List.replicate (2 * (per - top.length)) 0

/-- SCAN once its checks have passed. -/
def State.scanRun (s : State) (l p x : Nat) (m c ga gb : Desc) : Done :=
  let qs := s.maskQuires p x m
  let a := (s.vals l p ga).toArray
  let b := (s.vals l p gb).toArray
  let w := m.sz 0
  let rows := qs.zipIdx.map (fun q =>
    let absent := (List.range 16).filter (fun t => (q.1.slotOf t).isNone)
    let cands := absent.filterMap (fun t =>
      let g := scanG a b (ga.sz 0) (gb.sz 0) (ga.sz 1) (4 * (q.2 / w) + t / 4) (4 * (q.2 % w) + t % 4)
      if (f32Val g).isNan then none else some (g &&& 0x7FFFFFFF, t))
    candRow (perQuire x) cands)
  let r := s.writeCodes p c rows.flatten
  let rej := rejectedOf qs
  { Done.only r.1 (maskStatus rej r.2) with rejected := rej }

/-- SCAN. -/
def scanEff (s : State) (l p : Nat) (e : QEntry) : Done :=
  let m := s.desc p (recOp e.x 80)
  let c := s.desc p (recOp e.x 96)
  let ga := s.desc p (recOp e.x 112)
  let gb := s.desc p (recOp e.x 128)
  if perQuire e.x = 0 ∨ (ga.headOk && ga.isEmpty) ∨ (gb.headOk && gb.isEmpty) then Done.only s .zeroWork
  else match firstFault [s.descFault m false [0], s.descFault c true [0], s.descFault ga false [0],
      s.descFault gb false [0], need (scanOk e.x m c ga gb) .malformed, need (decide (perQuire e.x ≤ 16)) .outOfRange] with
    | some st => Done.only s st
    | none => s.scanRun l p e.x m c ga gb

/-! ## TIPIN (R144 to R147) -/

/-- R137: CAND of TIPIN. -/
def candOk (m c : Desc) : Bool :=
  c.elemType == 0x0B && c.layout == 0 && c.rank == 2 && c.sz 0 % 2 == 0 && decide (2 ≤ c.sz 0 ∧ c.sz 0 ≤ 32) &&
    c.sz 1 == m.quires

/-- A candidate of TIPIN. -/
structure Candidate where
  mag : F32
  quire : Nat
  bit : Nat
  index : Nat
  deriving DecidableEq, Repr

/-- Larger MAGNITUDE first, NaN last, then the lower element index. -/
def candidateBefore (a b : Candidate) : Bool :=
  let u := f32Val a.mag
  let v := f32Val b.mag
  if u.isNan || v.isNan then !u.isNan || (v.isNan && decide (a.index ≤ b.index))
  else Val.lt v u || (Val.le v u && decide (a.index ≤ b.index))

/-- The VALID entries of every row of CAND. -/
def State.candidates (s : State) (p : Nat) (w c : Desc) : List Candidate :=
  let codes := (s.codes p c).toArray
  let n := c.sz 0 / 2
  (List.range (n * c.sz 1)).filterMap (fun i =>
    let hi := codes.getD (2 * i + 1) 0
    if bitAt hi 31 then some { mag := BitVec.ofNat 32 (codes.getD (2 * i) 0), quire := i / n, bit := hi % 16,
                               index := w.bitIndex (i / n) (hi % 16) }
    else none)

/-- Whether bit `b` may be set in a quire's metadata (R115). -/
def mayRegrow (limit md b : Nat) : Bool :=
  !(bitAt md b) && decide (((List.range 4).filter (fun c => bitAt md (4 * (b / 4) + c))).length < limit) &&
    decide (((List.range 4).filter (fun r => bitAt md (4 * r + b % 4))).length < limit)

/-- The walk of R144: metadata by quire and the regrown candidates so far, newest first. -/
def regrow (limit : Nat) : Nat → List Candidate → Array Nat → List Candidate → Array Nat × List Candidate
  | _, [], md, acc => (md, acc)
  | 0, _, md, acc => (md, acc)
  | n + 1, c :: t, md, acc =>
    let q := md.getD c.quire 0
    if mayRegrow limit q c.bit then regrow limit n t (md.setIfInBounds c.quire (q + 2 ^ c.bit)) (c :: acc)
    else regrow limit (n + 1) t md acc

/-- The slot that a regrown bit takes: its rank in the new metadata (R116). -/
def slotRank (md b : Nat) : Nat := ((List.range b).filter (fun i => bitAt md i)).length

/-- R146: the exact initial value at an element index with INIT 1. DESIGN CHOICE (log 193): R146 does not give the sign of a
zero product; it is the product's, so a negative 2u − 1 with an amplitude of 0 gives −0. -/
def State.initValue (s : State) (l p x i : Nat) : Val :=
  let u := drawU1 (s.drawAt p (bitsOf x 215 200) (s.lt l).stepCtr i)
  let amp := f32Val (BitVec.ofNat 32 (s.governs (Obj.initAmplitude + 256 * policyClass x)))
  Val.mul (.fin (decide (u < 2 ^ 23)) ((2 * (u : Int) - 2 ^ 24).natAbs) (-24)) amp

/-- TIPIN once its checks have passed and N_grow is not 0. -/
def State.tipinRun (s : State) (l p pos x : Nat) (w m c : Desc) (grow : Nat) : Done :=
  let qs := s.maskQuires p x m
  let limit := if maskQmode x = 1 then 2 else 1
  let start := (qs.map Quire.bits).toArray
  let g := regrow limit grow (ranked candidateBefore (s.candidates p w c)) start []
  let now := qs.zipIdx.map (fun q =>
    ((List.range 16).filter (fun b => bitAt (g.1.getD q.2 0) b)).map (fun b => (b, q.1.slotOf b)))
  let r := s.rewriteMask p w m now
  let pieces := g.2.map (fun a => ({ place := a.quire * w.slots + slotRank (g.1.getD a.quire 0) a.bit, index := a.index,
                                     val := s.initValue l p x a.index } : Piece))
  let stream := bitsOf x 215 200
  let v := if bitsOf x 180 179 = 1 then
      let d := r.1.repairParity l p stream (pieces.map (fun c => c.index))
      let y := d.1.writeSome l p w 1 0 stream (s.versionAhead l p pos x) pieces
      (y.s, worseEcc d.2 y.status)
    else (r.1, .ok)
  let rej := rejectedOf qs
  { s := v.1, status := maskStatus rej (worseEcc r.2 v.2), count0 := g.2.length, count1 := 0, rejected := rej, oor := 0,
    report := some (listSum (now.map List.length), w.sz 0 * w.sz 1) }

/-- TIPIN. -/
def tipinEff (s : State) (l p : Nat) (e : QEntry) : Done :=
  let w := s.desc p (recOp e.x 64)
  let m := s.desc p (recOp e.x 80)
  let c := s.desc p (recOp e.x 96)
  if (bitsOf e.x 175 160 = 0 ∧ !(fromPolicy e.x)) ∨ (c.headOk && c.isEmpty) then Done.only s .zeroWork
  else match firstFault [s.descFault w true [0], s.descFault m true [0], s.descFault c false [0],
      need (maskedOk e.x w m && candOk m c) .malformed] with
    | some st => Done.only s st
    | none =>
      let grow := shareOf (s.fraction e.x Obj.regrowDensity) w
      if grow = 0 then Done.only s .zeroWork else s.tipinRun l p e.pos e.x w m c grow

/-! ## CHECK (R148) -/

/-- The count block. -/
def checkBlock (slots : Nat) (qs : List Quire) : List Nat :=
  let present := listSum (qs.map (fun q => q.accepted.length))
  [qs.length, (qs.filter (fun q => decide (0 < q.rejected))).length, rejectedOf qs, present,
   (qs.filter (fun q => q.accepted.isEmpty)).length, (qs.filter (fun q => q.accepted.length == slots)).length,
   present * 0x10000 / (16 * qs.length), 0]

/-- R137: the forms of CHECK's operands. -/
def checkOk (m r : Desc) : Bool :=
  metaOk m && !(scaleExact r.scaleId) && r.elemType == 0x0B && r.layout == 0 && r.rank == 1 && decide (8 ≤ r.sz 0)

/-- CHECK once its checks have passed. -/
def State.checkRun (s : State) (p x : Nat) (m r : Desc) : Done :=
  let b := checkBlock (if maskQmode x = 1 then 8 else 4) (s.maskQuires p x m)
  let w := s.writeCodes p r (b ++ (s.codes p r).drop 8)
  { Done.only w.1 w.2 with count1 := b.getD 1 0 }

/-- CHECK. -/
def checkEff (s : State) (_l p : Nat) (e : QEntry) : Done :=
  let m := s.desc p (recOp e.x 80)
  let r := s.desc p (recOp e.x 144)
  if m.headOk && m.isEmpty then Done.only s .zeroWork
  else match firstFault [s.descFault m false [0], s.descFault r true [0], need (checkOk m r) .malformed] with
    | some st => Done.only s st
    | none => s.checkRun p e.x m r

/-- TRIM (R141). -/
def execTrim (tile cycles : Nat) (s : State) : Host.Outcome State Fault Refusal :=
  .next (s.runUnit tile cycles (fun x => recOpcode x == opTrim) trimEff)

/-- TIPIN (R144). -/
def execTipin (tile cycles : Nat) (s : State) : Host.Outcome State Fault Refusal :=
  .next (s.runUnit tile cycles (fun x => recOpcode x == opTipin) tipinEff)

/-- SCAN (R142). -/
def execScan (tile cycles : Nat) (s : State) : Host.Outcome State Fault Refusal :=
  .next (s.runUnit tile cycles (fun x => recOpcode x == opScan) scanEff)

/-- CHECK (R148). -/
def execCheck (tile cycles : Nat) (s : State) : Host.Outcome State Fault Refusal :=
  .next (s.runUnit tile cycles (fun x => recOpcode x == opCheck) checkEff)

end Sys2Proof.Machine
end

