-- ==== Sys2Proof/Machine/Rand.lean ====
section
/-!
DEFINITION. RAND: its four uses (R217, R218, R219, R222), and the end of a table fill (R212 to R214).
-/

namespace Sys2Proof.Machine

open Sys2Proof

/-- USE. -/
def randUse (x : Nat) : Nat := bitsOf x 99 96

/-- The step coordinate (R72). -/
def State.randStep (s : State) (l x : Nat) : Nat :=
  if bitsOf x 207 176 = 0xFFFFFFFF then (s.lt l).stepCtr else bitsOf x 207 176

/-- The element coordinate: RAND's ELEM_BASE plus the index that R99 gives the position in DST (R99, R219). -/
def randElem (x : Nat) (d : Desc) (i : Nat) : Nat :=
  (bitsOf x 175 128 + linearOf d.orderDims (coordsOf d.dims i)) % 2 ^ 48

/-- R222: the DST that a USE permits. -/
def randDstOk (x : Nat) (d : Desc) : Bool :=
  d.scaleId == 0xFFF && d.layout == 0 && (
    if randUse x = 0 then d.elemType == 0x0B else if randUse x = 2 then d.elemType == 0x0D else d.elemType == 0x01)

/-- The bits written for USE 0 and USE 2. -/
def randCode (x dr : Nat) : Nat :=
  if randUse x = 0 then drawRaw dr else if drawRsel dr < recOp x 112 then 1 else 0

/-- The FP32 value written for USE 1 and USE 3. -/
def randReal (x dr : Nat) : Val :=
  if randUse x = 1 then .fin false (drawU1 dr) (-24) else f32Val (vendorNormal (drawU1 dr) (drawU2 dr))

/-- RAND once its checks have passed. -/
def State.randRun (s : State) (l p x : Nat) (d : Desc) : Done :=
  let stream := recOp x 80
  let step := s.randStep l x
  let draws := (List.range d.count).map (fun i => s.drawAt p stream step (randElem x d i))
  let used := (List.range d.count).flatMap (fun i =>
    let ab := drawIndices s.seed stream step (randElem x d i)
    [ab.1, ab.2])
  let r := s.repairWords p used
  if randUse x = 0 ∨ randUse x = 2 then
    let w := r.1.writeCodes p d (draws.map (randCode x))
    Done.only w.1 (worseEcc r.2 w.2)
  else
    let w := r.1.writeVals l p d 0 0 stream 0 (draws.map (randReal x))
    Done.only w.s (worseEcc r.2 w.status)

/-- RAND: an empty DST is no work; then its checks. -/
def randEff (s : State) (l p : Nat) (e : QEntry) : Done :=
  let d := s.desc p (recOp e.x 64)
  if d.headOk && d.isEmpty then Done.only s .zeroWork
  else match firstFault [s.descFault d true [0], need (randDstOk e.x d) .malformed] with
    | some st => Done.only s st
    | none => s.randRun l p e.x d

/-- A RAND of a USE. -/
def isRand (u x : Nat) : Bool := recOpcode x == opRand && randUse x == u

/-- RAND USE 0; a USE that R72 does not list completes here with MALFORMED. -/
def execRandRaw (tile cycles : Nat) (s : State) : Host.Outcome State Fault Refusal :=
  .next (s.runUnit tile cycles (fun x => isRand 0 x || (recOpcode x == opRand && decide (3 < randUse x))) randEff)

/-- RAND USE 1. -/
def execRandUniform (tile cycles : Nat) (s : State) : Host.Outcome State Fault Refusal :=
  .next (s.runUnit tile cycles (isRand 1) randEff)

/-- RAND USE 2. -/
def execRandBernoulli (tile cycles : Nat) (s : State) : Host.Outcome State Fault Refusal :=
  .next (s.runUnit tile cycles (isRand 2) randEff)

/-- RAND USE 3. -/
def execRandNormal (tile cycles : Nat) (s : State) : Host.Outcome State Fault Refusal :=
  .next (s.runUnit tile cycles (isRand 3) randEff)

/-- RANDOM_TABLE_FILL_DONE (R214): a running fill ends and the tile's table holds the words of the active reel's SEED. -/
def execRandomTableFillDone (phys : Nat) (s : State) : Host.Outcome State Fault Refusal :=
  .next (if (s.pt phys).filling then s.setPt phys ((s.pt phys).fillTable s.seed) else s)

end Sys2Proof.Machine
end

