-- ==== Sys2Proof/Machine/Dispatch.lean ====
section
/-!
DEFINITION. Which meaning each command has: one arm per constructor of Instr.
-/

namespace Sys2Proof.Machine
open Sys2Proof

def exec (i : Instr) (s : State) : Host.Outcome State Fault Refusal :=
  match i with
  | .sync0 dt dcTime => Sys2Proof.Machine.execSync0 dt dcTime s
  | .processDataUpdate dt data => Sys2Proof.Machine.execProcessDataUpdate dt data s
  | .advPulse dt width => Sys2Proof.Machine.execAdvPulse dt width s
  | .advSilence dt => Sys2Proof.Machine.execAdvSilence dt s
  | .slate dt width => Sys2Proof.Machine.execSlate dt width s
  | .earlyClose dt => Sys2Proof.Machine.execEarlyClose dt s
  | .selfSlate dt => Sys2Proof.Machine.execSelfSlate dt s
  | .randomTableFillDone phys => Sys2Proof.Machine.execRandomTableFillDone phys s
  | .reelPlacement dt => Sys2Proof.Machine.execReelPlacement dt s
  | .dailiesSwitch dt => Sys2Proof.Machine.execDailiesSwitch dt s
  | .cueFire dt => Sys2Proof.Machine.execCueFire dt s
  | .streamFetch tile => Sys2Proof.Machine.execStreamFetch tile s
  | .move tile cycles => Sys2Proof.Machine.execMove tile cycles s
  | .fold tile cycles => Sys2Proof.Machine.execFold tile cycles s
  | .mma tile => Sys2Proof.Machine.execMma tile s
  | .smma tile => Sys2Proof.Machine.execSmma tile s
  | .runFormation tile => Sys2Proof.Machine.execRunFormation tile s
  | .runComplete tile cycles => Sys2Proof.Machine.execRunComplete tile cycles s
  | .drainConvert tile cycles => Sys2Proof.Machine.execDrainConvert tile cycles s
  | .drainBias tile cycles => Sys2Proof.Machine.execDrainBias tile cycles s
  | .drainReluDerivative tile cycles => Sys2Proof.Machine.execDrainReluDerivative tile cycles s
  | .drainGeluDerivative tile cycles => Sys2Proof.Machine.execDrainGeluDerivative tile cycles s
  | .drainSiluDerivative tile cycles => Sys2Proof.Machine.execDrainSiluDerivative tile cycles s
  | .drainAdamw tile cycles => Sys2Proof.Machine.execDrainAdamw tile cycles s
  | .drainSgdMomentum tile cycles => Sys2Proof.Machine.execDrainSgdMomentum tile cycles s
  | .add tile cycles => Sys2Proof.Machine.execAdd tile cycles s
  | .mul tile cycles => Sys2Proof.Machine.execMul tile cycles s
  | .fma tile cycles => Sys2Proof.Machine.execFma tile cycles s
  | .affine tile cycles => Sys2Proof.Machine.execAffine tile cycles s
  | .relu tile cycles => Sys2Proof.Machine.execRelu tile cycles s
  | .gelu tile cycles => Sys2Proof.Machine.execGelu tile cycles s
  | .silu tile cycles => Sys2Proof.Machine.execSilu tile cycles s
  | .softmax tile cycles => Sys2Proof.Machine.execSoftmax tile cycles s
  | .sum tile cycles => Sys2Proof.Machine.execSum tile cycles s
  | .amax tile cycles => Sys2Proof.Machine.execAmax tile cycles s
  | .topk tile cycles => Sys2Proof.Machine.execTopk tile cycles s
  | .layernorm tile cycles => Sys2Proof.Machine.execLayernorm tile cycles s
  | .rmsnorm tile cycles => Sys2Proof.Machine.execRmsnorm tile cycles s
  | .quantise tile cycles => Sys2Proof.Machine.execQuantise tile cycles s
  | .sample tile cycles => Sys2Proof.Machine.execSample tile cycles s
  | .gather tile cycles => Sys2Proof.Machine.execGather tile cycles s
  | .scatterAdd tile cycles => Sys2Proof.Machine.execScatterAdd tile cycles s
  | .predict tile cycles => Sys2Proof.Machine.execPredict tile cycles s
  | .predictAudit tile cycles => Sys2Proof.Machine.execPredictAudit tile cycles s
  | .trim tile cycles => Sys2Proof.Machine.execTrim tile cycles s
  | .tipin tile cycles => Sys2Proof.Machine.execTipin tile cycles s
  | .scan tile cycles => Sys2Proof.Machine.execScan tile cycles s
  | .check tile cycles => Sys2Proof.Machine.execCheck tile cycles s
  | .routeSelect tile cycles => Sys2Proof.Machine.execRouteSelect tile cycles s
  | .routeDispatch tile cycles => Sys2Proof.Machine.execRouteDispatch tile cycles s
  | .routeCombine tile cycles => Sys2Proof.Machine.execRouteCombine tile cycles s
  | .randRaw tile cycles => Sys2Proof.Machine.execRandRaw tile cycles s
  | .randUniform tile cycles => Sys2Proof.Machine.execRandUniform tile cycles s
  | .randBernoulli tile cycles => Sys2Proof.Machine.execRandBernoulli tile cycles s
  | .randNormal tile cycles => Sys2Proof.Machine.execRandNormal tile cycles s
  | .signalAdd tile cycles => Sys2Proof.Machine.execSignalAdd tile cycles s
  | .remoteSignal tile cycles => Sys2Proof.Machine.execRemoteSignal tile cycles s
  | .remoteFence tile cycles => Sys2Proof.Machine.execRemoteFence tile cycles s
  | .armCue tile cycles => Sys2Proof.Machine.execArmCue tile cycles s
  | .wait tile cycles => Sys2Proof.Machine.execWait tile cycles s
  | .waitTimeout tile cycles => Sys2Proof.Machine.execWaitTimeout tile cycles s
  | .snFlagAdd die => Sys2Proof.Machine.execSnFlagAdd die s
  | .put tile cycles => Sys2Proof.Machine.execPut tile cycles s
  | .putWithSignal tile cycles => Sys2Proof.Machine.execPutWithSignal tile cycles s
  | .get tile cycles => Sys2Proof.Machine.execGet tile cycles s
  | .acc tile cycles => Sys2Proof.Machine.execAcc tile cycles s
  | .replayInPlace tile => Sys2Proof.Machine.execReplayInPlace tile s
  | .packetPut port pkt => Sys2Proof.Machine.execPacketPut port pkt s
  | .packetPutSignal port pkt => Sys2Proof.Machine.execPacketPutSignal port pkt s
  | .packetGetReq port pkt => Sys2Proof.Machine.execPacketGetReq port pkt s
  | .packetSignal port pkt => Sys2Proof.Machine.execPacketSignal port pkt s
  | .packetAcc port pkt => Sys2Proof.Machine.execPacketAcc port pkt s
  | .packetResponse port pkt => Sys2Proof.Machine.execPacketResponse port pkt s
  | .packetGetData port pkt => Sys2Proof.Machine.execPacketGetData port pkt s
  | .packetControl port pkt msg => Sys2Proof.Machine.execPacketControl port pkt msg s
  | .packetIdle port pkt => Sys2Proof.Machine.execPacketIdle port pkt s
  | .packetCorrupt port => Sys2Proof.Machine.execPacketCorrupt port s
  | .roundCombine tile => Sys2Proof.Machine.execRoundCombine tile s
  | .reorderHoldExpiry dt src => Sys2Proof.Machine.execReorderHoldExpiry dt src s
  | .remoteTimeout dt tile => Sys2Proof.Machine.execRemoteTimeout dt tile s
  | .reissue dt tile => Sys2Proof.Machine.execReissue dt tile s
  | .wavelengthFail port lane => Sys2Proof.Machine.execWavelengthFail port lane s
  | .peerSilence dt port => Sys2Proof.Machine.execPeerSilence dt port s
  | .laserLow dt input => Sys2Proof.Machine.execLaserLow dt input s
  | .laserRestored dt input => Sys2Proof.Machine.execLaserRestored dt input s
  | .bringupRetry dt port => Sys2Proof.Machine.execBringupRetry dt port s
  | .fabricUpTimeout dt => Sys2Proof.Machine.execFabricUpTimeout dt s
  | .stepFinal => Sys2Proof.Machine.execStepFinal s
  | .stepRecordLapse dt rack package => Sys2Proof.Machine.execStepRecordLapse dt rack package s
  | .skipVerdict => Sys2Proof.Machine.execSkipVerdict s
  | .patrolScrub burst => Sys2Proof.Machine.execPatrolScrub burst s
  | .stackLost stack => Sys2Proof.Machine.execStackLost stack s
  | .segmentFailed die column => Sys2Proof.Machine.execSegmentFailed die column s
  | .bridgeLaneFail group direction => Sys2Proof.Machine.execBridgeLaneFail group direction s
  | .arbCommit path value => Sys2Proof.Machine.execArbCommit path value s
  | .arbCommitInstant dt => Sys2Proof.Machine.execArbCommitInstant dt s
  | .blockFence block => Sys2Proof.Machine.execBlockFence block s
  | .sequencerStall dt phys => Sys2Proof.Machine.execSequencerStall dt phys s
  | .cnRequestTimeout dt block => Sys2Proof.Machine.execCnRequestTimeout dt block s
  | .blockSelfTestDone block passed => Sys2Proof.Machine.execBlockSelfTestDone block passed s
  | .coreWatchdogExpiry core => Sys2Proof.Machine.execCoreWatchdogExpiry core s
  | .deviceWatchdogExpiry dt => Sys2Proof.Machine.execDeviceWatchdogExpiry dt s
  | .raise source => Sys2Proof.Machine.execRaise source s
  | .coalesceTimeRelease dt group => Sys2Proof.Machine.execCoalesceTimeRelease dt group s
  | .pendClear group bits => Sys2Proof.Machine.execPendClear group bits s
  | .eoi core => Sys2Proof.Machine.execEoi core s
  | .hostEventsClear path group bits => Sys2Proof.Machine.execHostEventsClear path group bits s
  | .msixUnmask which => Sys2Proof.Machine.execMsixUnmask which s
  | .configRequest => Sys2Proof.Machine.execConfigRequest s
  | .functionLevelReset dt => Sys2Proof.Machine.execFunctionLevelReset dt s
  | .d3hotEntry => Sys2Proof.Machine.execD3hotEntry s
  | .d0Return => Sys2Proof.Machine.execD0Return s
  | .linkDegrade width => Sys2Proof.Machine.execLinkDegrade width s
  | .malformedTlp => Sys2Proof.Machine.execMalformedTlp s
  | .poisonedWrite => Sys2Proof.Machine.execPoisonedWrite s
  | .unexpectedCompletion => Sys2Proof.Machine.execUnexpectedCompletion s
  | .completionTimeout read => Sys2Proof.Machine.execCompletionTimeout read s
  | .bar2Read offset size => Sys2Proof.Machine.execBar2Read offset size s
  | .bar2Write offset data => Sys2Proof.Machine.execBar2Write offset data s
  | .ingestTailWrite ring value => Sys2Proof.Machine.execIngestTailWrite ring value s
  | .ingestEnableWrite ring enable => Sys2Proof.Machine.execIngestEnableWrite ring enable s
  | .ingestDescriptor ring desc => Sys2Proof.Machine.execIngestDescriptor ring desc s
  | .ingestComplete ring data => Sys2Proof.Machine.execIngestComplete ring data s
  | .answerPublish dt => Sys2Proof.Machine.execAnswerPublish dt s
  | .loadReel => Sys2Proof.Machine.execLoadReel s
  | .saveContext => Sys2Proof.Machine.execSaveContext s
  | .restoreContext => Sys2Proof.Machine.execRestoreContext s
  | .writeFirmware data => Sys2Proof.Machine.execWriteFirmware data s
  | .attest => Sys2Proof.Machine.execAttest s
  | .bootOtherOnce => Sys2Proof.Machine.execBootOtherOnce s
  | .doorbell tag => Sys2Proof.Machine.execDoorbell tag s
  | .registerWrite target => Sys2Proof.Machine.execRegisterWrite target s
  | .takeControlWrite path value => Sys2Proof.Machine.execTakeControlWrite path value s
  | .combinationModeWrite path value => Sys2Proof.Machine.execCombinationModeWrite path value s
  | .positionSourceWrite path value => Sys2Proof.Machine.execPositionSourceWrite path value s
  | .tableLoad path => Sys2Proof.Machine.execTableLoad path s
  | .tableClear path => Sys2Proof.Machine.execTableClear path s
  | .tableEntryWrite path high value => Sys2Proof.Machine.execTableEntryWrite path high value s
  | .fabricIdentityWrite path index sub value => Sys2Proof.Machine.execFabricIdentityWrite path index sub value s
  | .duplexSizeWrite path value => Sys2Proof.Machine.execDuplexSizeWrite path value s
  | .resetCommand path value => Sys2Proof.Machine.execResetCommand path value s
  | .dictionaryResetStart dt => Sys2Proof.Machine.execDictionaryResetStart dt s
  | .causeHistoryClear path value => Sys2Proof.Machine.execCauseHistoryClear path value s
  | .enterStandby path => Sys2Proof.Machine.execEnterStandby path s
  | .standbyEntry dt => Sys2Proof.Machine.execStandbyEntry dt s
  | .leaveStandby path => Sys2Proof.Machine.execLeaveStandby path s
  | .standbyExit dt => Sys2Proof.Machine.execStandbyExit dt s
  | .compactNow path => Sys2Proof.Machine.execCompactNow path s
  | .journalErase path => Sys2Proof.Machine.execJournalErase path s
  | .clearUser path value => Sys2Proof.Machine.execClearUser path value s
  | .journalRecordDurable dt bad => Sys2Proof.Machine.execJournalRecordDurable dt bad s
  | .compaction dt ok => Sys2Proof.Machine.execCompaction dt ok s
  | .regionEraseDone dt => Sys2Proof.Machine.execRegionEraseDone dt s
  | .journalRestore dt => Sys2Proof.Machine.execJournalRestore dt s
  | .sdoDownloadSegment data last => Sys2Proof.Machine.execSdoDownloadSegment data last s
  | .sdoInformation req => Sys2Proof.Machine.execSdoInformation req s
  | .sdoBlockTransfer => Sys2Proof.Machine.execSdoBlockTransfer s
  | .unsupportedMailbox kind => Sys2Proof.Machine.execUnsupportedMailbox kind s
  | .initToPreop mailbox => Sys2Proof.Machine.execInitToPreop mailbox s
  | .preopToSafeop sm2Len sm3Len cycle => Sys2Proof.Machine.execPreopToSafeop sm2Len sm3Len cycle s
  | .safeopToOp => Sys2Proof.Machine.execSafeopToOp s
  | .initToBoot => Sys2Proof.Machine.execInitToBoot s
  | .alStateFall target => Sys2Proof.Machine.execAlStateFall target s
  | .syncError dt => Sys2Proof.Machine.execSyncError dt s
  | .sm2Watchdog dt => Sys2Proof.Machine.execSm2Watchdog dt s
  | .foeWrite name password => Sys2Proof.Machine.execFoeWrite name password s
  | .foeData data last programmed => Sys2Proof.Machine.execFoeData data last programmed s
  | .foeRead => Sys2Proof.Machine.execFoeRead s
  | .siiWrite word value => Sys2Proof.Machine.execSiiWrite word value s
  | .pwrGoodFall dt => Sys2Proof.Machine.execPwrGoodFall dt s
  | .pwrGoodRise dt => Sys2Proof.Machine.execPwrGoodRise dt s
  | .rstNAssert dt => Sys2Proof.Machine.execRstNAssert dt s
  | .rstNRise dt => Sys2Proof.Machine.execRstNRise dt s
  | .perstNAssert dt => Sys2Proof.Machine.execPerstNAssert dt s
  | .perstNRise dt => Sys2Proof.Machine.execPerstNRise dt s
  | .cfgSenseSample dt ohms => Sys2Proof.Machine.execCfgSenseSample dt ohms s
  | .clockGood dt domain => Sys2Proof.Machine.execClockGood dt domain s
  | .clockGoodTimeout dt domain => Sys2Proof.Machine.execClockGoodTimeout dt domain s
  | .bootVerify dt => Sys2Proof.Machine.execBootVerify dt s
  | .bistComplete dt found => Sys2Proof.Machine.execBistComplete dt found s
  | .tempSample dt raw => Sys2Proof.Machine.execTempSample dt raw s
  | .thermalRelease dt raw => Sys2Proof.Machine.execThermalRelease dt raw s
  | .blockIdle block => Sys2Proof.Machine.execBlockIdle block s
  | .extest => Sys2Proof.Machine.execExtest s
  | .idcode => Sys2Proof.Machine.execIdcode s
  | .samplePreload => Sys2Proof.Machine.execSamplePreload s
  | .dbgChallenge => Sys2Proof.Machine.execDbgChallenge s
  | .dbgResponse level keys sigEd sigMl => Sys2Proof.Machine.execDbgResponse level keys sigEd sigMl s
  | .dbgStatus => Sys2Proof.Machine.execDbgStatus s
  | .scanEnable readbackFails => Sys2Proof.Machine.execScanEnable readbackFails s
  | .bypass code => Sys2Proof.Machine.execBypass code s
  | .hostCommandComplete => Sys2Proof.Machine.execHostCommandComplete s
  | .tableLoadComplete => Sys2Proof.Machine.execTableLoadComplete s
  | .sdoUpload complete index sub => Sys2Proof.Machine.execSdoUpload complete index sub s
  | .barRead bar offset size => Sys2Proof.Machine.execBarRead bar offset size s
  | .errorCompletion read => Sys2Proof.Machine.execErrorCompletion read s
  | .alwaysOnSupplyLoss => Sys2Proof.Machine.execAlwaysOnSupplyLoss s
  | .coreUncorrectableError core => Sys2Proof.Machine.execCoreUncorrectableError core s
  | .sync0Absence dt => Sys2Proof.Machine.execSync0Absence dt s

end Sys2Proof.Machine
end

