-- ==== Sys2Proof/Safety.lean ====
section
/-!
DEFINITION. The terms in which the statements speak of a run: what a completed tile command leaves, which bytes and which
objects a command may write, and what a command keeps.
-/

namespace Sys2Proof.Machine

open Sys2Proof

/-! ## Objects that events write -/

/-- The objects that raising a source and logging an event write: RELEASES (0x2800:21 to 30), HOST_EVENTS (0x2801), the
event log's header (0x4000) and its entries (0x4100 to 0x41FF) (R359, R415, R417). -/
def eventObject (k : Nat) : Bool :=
  decide (0x280021 ≤ k ∧ k ≤ 0x280030) || decide (0x280101 ≤ k ∧ k ≤ 0x280110) ||
    decide (0x400001 ≤ k ∧ k ≤ 0x400003) || decide (0x410000 ≤ k ∧ k < 0x420000)

/-- State `t` differs from `s` at most by what raising and logging events leaves: pending bits and cores interrupted, which
are Idle no longer, entries counted before the restore, vectors sent or pending, and the objects that events write (R352
to R359, R381, R415 to R417). -/
structure EventsOnly (s t : State) : Prop where
  objects : ∀ k : Nat, eventObject k = false → t.obj k = s.obj k
  host : { t.host with msixPending := s.host.msixPending } = s.host
  sent : ∃ more : List Out, t.out = s.out ++ more
  idle : ∀ b : Block, (b ∈ t.rst.idleBlocks → b ∈ s.rst.idleBlocks) ∧
    ((∀ c : Nat, b ≠ .core c) → b ∈ s.rst.idleBlocks → b ∈ t.rst.idleBlocks)
  rest : { t with objs := s.objs, host := s.host, out := s.out, intr := s.intr, early := s.early,
                  rst := { t.rst with idleBlocks := s.rst.idleBlocks } } = s

/-- The newest entry of the event log of `t` has CODE `code` and is new, or has coalesced one event more than in `s` (R415 to
R417). Before the journal restore the event is counted by its unit (R417); in reset nothing is logged (R365). -/
def Logged (s t : State) (code : Nat) : Prop :=
  s.inReset = false →
    if s.rst.restored = true then
      let last := (t.obj Obj.nextSeq + 2 ^ 32 - 1) % 2 ^ 32
      t.obj (logKey last 4) = code ∧
        (t.obj Obj.nextSeq = (s.obj Obj.nextSeq + 1) % 2 ^ 32 ∨
          (t.obj Obj.nextSeq = s.obj Obj.nextSeq ∧ t.obj (logKey last 8) = min (s.obj (logKey last 8) + 1) 0xFFFF))
    else ∃ e ∈ t.early, e.code = code

/-! ## Dictionary writes -/

/-- A single access over a path reaches the dictionary server at once: the path carries it, the server is idle and not halted,
and no recovery service runs (R328, R339, R369, R399). -/
structure Reaches (s : State) (path : Path) : Prop where
  carried : match path with
    | .coe => s.coeOpen = true
    | .pcie => s.barOpen = true ∧ s.mailbox.busy = false
  idle : s.server.jobs = [] ∧ s.server.kWrite = none ∧ s.server.halted = false
  normal : s.rst.recovery = false

/-- State `s` with the block that carries a path at work, no longer Idle (R381). -/
def State.woken (s : State) (path : Path) : State :=
  s.wakeBlock (match path with
    | .coe => .ecatController
    | .pcie => .hostPort)

/-- State `t` answers one refused access made in `s`: the refusal is logged under `code`; then an SDO abort is sent, or the
mailbox request completes, with the status of the refusal in its one response entry and its event (R326, R338, R339). -/
def AnsweredRefused (path : Path) (s : State) (r : Refused) (code : Nat) (t : State) : Prop :=
  match path with
  | .coe => t.out.getLast? = some (.sdoAbort r.abort) ∧ Logged s t code
  | .pcie => t.mailbox.busy = false ∧ t.mailbox.status = 0 ∧
      Tab.read t.mailbox.response 0 8 = BitVec.ofNat 8 (statusCode r.status) ∧
      ∃ u : State, Logged s u code ∧ u.mailbox = t.mailbox ∧ t = u.event 0x02C (unitOf 0xA 1) .ok 0

/-- State `t` is `u` after the access that made it was answered with OK: by an SDO reply, or by the completion of a mailbox
request and its event (R328, R339). -/
def AnsweredOk (path : Path) (u t : State) : Prop :=
  match path with
  | .coe => t = u.emit .sdoOk
  | .pcie => EventsOnly { u with mailbox := t.mailbox } t ∧ t.mailbox.busy = false ∧ t.mailbox.status = 0 ∧
      t.mailbox.doneTag = u.mailbox.doneTag ∧ t.mailbox.request = u.mailbox.request

/-! ## Tile commands -/

/-- The commands that run one queue entry of logical tile `l` on a unit of its tile, taking `n` cycles: which entries are
theirs (by record) and what the unit does (R63). -/
inductive RunsUnit : Instr → Nat → Nat → (Nat → Bool) → (State → Nat → Nat → QEntry → Done) → Prop where
  | move (l n : Nat) : RunsUnit (.move l n) l n (fun x => recOpcode x == opMove) moveEff
  | fold (l n : Nat) : RunsUnit (.fold l n) l n (fun x => recOpcode x == opFold) foldEff
  | drainConvert (l n : Nat) : RunsUnit (.drainConvert l n) l n (fun x => isDrain 0 x || (recOpcode x == opDrain &&
      !(listedFuncs.contains (recFunc x)))) drainEff
  | drainBias (l n : Nat) : RunsUnit (.drainBias l n) l n (isDrain 1) drainEff
  | drainReluDerivative (l n : Nat) : RunsUnit (.drainReluDerivative l n) l n (isDrain 2) drainEff
  | drainGeluDerivative (l n : Nat) : RunsUnit (.drainGeluDerivative l n) l n (isDrain 3) drainEff
  | drainSiluDerivative (l n : Nat) : RunsUnit (.drainSiluDerivative l n) l n (isDrain 4) drainEff
  | drainAdamw (l n : Nat) : RunsUnit (.drainAdamw l n) l n (isDrain 0x10) updateEff
  | drainSgdMomentum (l n : Nat) : RunsUnit (.drainSgdMomentum l n) l n (isDrain 0x11) updateEff
  | add (l n : Nat) : RunsUnit (.add l n) l n (fun x => isVec 0x0001 x || (recOpcode x == opVec &&
      !(listedRoutines.contains (recRoutine x)))) (vecEff (elementwise (fun _ a b _ => Val.add a b)))
  | mul (l n : Nat) : RunsUnit (.mul l n) l n (isVec 0x0002) (vecEff (elementwise (fun _ a b _ => Val.mul a b)))
  | fma (l n : Nat) : RunsUnit (.fma l n) l n (isVec 0x0003) (vecEff (elementwise (fun _ a b c => Val.add (Val.mul
      a b) c)))
  | affine (l n : Nat) : RunsUnit (.affine l n) l n (isVec 0x0004) (vecEff (elementwise (fun x a _ _ => Val.add
      (Val.mul a (f32Val (vecReal0 x))) (f32Val (vecReal1 x)))))
  | relu (l n : Nat) : RunsUnit (.relu l n) l n (isVec 0x0101) (vecEff reluRoutine)
  | gelu (l n : Nat) : RunsUnit (.gelu l n) l n (isVec 0x0102) (vecEff (smoothRoutine vendorGelu))
  | silu (l n : Nat) : RunsUnit (.silu l n) l n (isVec 0x0103) (vecEff (smoothRoutine vendorSilu))
  | softmax (l n : Nat) : RunsUnit (.softmax l n) l n (isVec 0x0104) (vecEff softmaxRoutine)
  | sum (l n : Nat) : RunsUnit (.sum l n) l n (isVec 0x0201) (vecEff sumRoutine)
  | amax (l n : Nat) : RunsUnit (.amax l n) l n (isVec 0x0202) (vecEff amaxRoutine)
  | topk (l n : Nat) : RunsUnit (.topk l n) l n (isVec 0x0203) (vecEff topkRoutine)
  | layernorm (l n : Nat) : RunsUnit (.layernorm l n) l n (isVec 0x0301) (vecEff (normRoutine Config.layerNorm))
  | rmsnorm (l n : Nat) : RunsUnit (.rmsnorm l n) l n (isVec 0x0302) (vecEff (normRoutine (fun r e g _ i =>
      Config.rmsNorm r e g i)))
  | quantise (l n : Nat) : RunsUnit (.quantise l n) l n (isVec 0x0401) (vecEff quantiseRoutine)
  | sample (l n : Nat) : RunsUnit (.sample l n) l n (isVec 0x0601) (vecEff sampleRoutine)
  | gather (l n : Nat) : RunsUnit (.gather l n) l n (isVec 0x0701) (vecEff gatherRoutine)
  | scatterAdd (l n : Nat) : RunsUnit (.scatterAdd l n) l n (isVec 0x0702) (vecEff scatterRoutine)
  | predict (l n : Nat) : RunsUnit (.predict l n) l n (fun x => isVec 0x0801 x && !(predictMode x)) (vecEff
      predictRoutine)
  | predictAudit (l n : Nat) : RunsUnit (.predictAudit l n) l n (fun x => isVec 0x0801 x && predictMode x) (vecEff
      auditRoutine)
  | trim (l n : Nat) : RunsUnit (.trim l n) l n (fun x => recOpcode x == opTrim) trimEff
  | tipin (l n : Nat) : RunsUnit (.tipin l n) l n (fun x => recOpcode x == opTipin) tipinEff
  | scan (l n : Nat) : RunsUnit (.scan l n) l n (fun x => recOpcode x == opScan) scanEff
  | check (l n : Nat) : RunsUnit (.check l n) l n (fun x => recOpcode x == opCheck) checkEff
  | routeSelect (l n : Nat) : RunsUnit (.routeSelect l n) l n (fun x => recOpcode x == opRoute && (routeOp x == 0
      || routeOp x == 3)) selectEff
  | routeCombine (l n : Nat) : RunsUnit (.routeCombine l n) l n (fun x => recOpcode x == opRoute && routeOp x == 2)
      combineEff
  | randRaw (l n : Nat) : RunsUnit (.randRaw l n) l n (fun x => isRand 0 x || (recOpcode x == opRand && decide (3 <
      randUse x))) randEff
  | randUniform (l n : Nat) : RunsUnit (.randUniform l n) l n (isRand 1) randEff
  | randBernoulli (l n : Nat) : RunsUnit (.randBernoulli l n) l n (isRand 2) randEff
  | randNormal (l n : Nat) : RunsUnit (.randNormal l n) l n (isRand 3) randEff
  | signalAdd (l n : Nat) : RunsUnit (.signalAdd l n) l n (fun x => !(listedOpcodes.contains (recOpcode x)) ||
      (recOpcode x == opSignal && (sigKind x == 0 || decide (3 < sigKind x)))) signalAddEff
  | armCue (l n : Nat) : RunsUnit (.armCue l n) l n (fun x => recOpcode x == opSignal && sigKind x == 3) armCueEff

/-- The commands that start one queue entry of logical tile `l` at its fabric port, with the plan of its operations
(R63, R291). -/
inductive RunsPort : Instr → Nat → Nat → (Nat → Bool) → (State → Nat → Nat → QEntry → RemotePlan) → Prop where
  | put (l n : Nat) : RunsPort (.put l n) l n (fun x => recOpcode x == opPut && !(putSignal x)) planPut
  | putWithSignal (l n : Nat) : RunsPort (.putWithSignal l n) l n (fun x => recOpcode x == opPut && putSignal x)
      planPut
  | get (l n : Nat) : RunsPort (.get l n) l n (fun x => recOpcode x == opGet) planGet
  | acc (l n : Nat) : RunsPort (.acc l n) l n (fun x => recOpcode x == opAcc) planAcc
  | remoteSignal (l n : Nat) : RunsPort (.remoteSignal l n) l n (fun x => recOpcode x == opSignal && sigKind x ==
      1) planSignal
  | remoteFence (l n : Nat) : RunsPort (.remoteFence l n) l n isFence planFence
  | routeDispatch (l n : Nat) : RunsPort (.routeDispatch l n) l n (fun x => recOpcode x == opRoute && routeOp x ==
      1) planDispatch

/-- Entry `e`, placed on tile `p`, has work to do and passes every check of its command (R63, R100 and the command's own
rules), and what its unit then does is `d`. -/
inductive Works (s : State) (l p : Nat) (e : QEntry) : (State → Nat → Nat → QEntry → Done) → Done → Prop where
  | move (h1 : ((s.desc p (recOp e.x 64)).headOk && (s.desc p (recOp e.x 64)).isEmpty) = false)
      (h2 : firstFault [s.descFault (s.desc p (recOp e.x 64)) false [0, 1, 2], s.descFault (s.desc p (recOp e.x 80)) true
          [0, 1, 2], need (moveShapeOk e.x (s.desc p (recOp e.x 64)) (s.desc p (recOp e.x 80))) .malformed,
        need (!(moveTooLong e.x (s.desc p (recOp e.x 64)) (s.desc p (recOp e.x 80)))) .outOfRange,
        need (!(moveHost (s.desc p (recOp e.x 64)) (s.desc p (recOp e.x 80)) && s.blockDown .hostPort)) .isolated] = none) :
      Works s l p e moveEff (s.moveData l p e.x (s.desc p (recOp e.x 64)) (s.desc p (recOp e.x 80)))
  | fold (h1 : ((s.desc p (recOp e.x 64)).headOk && (s.desc p (recOp e.x 64)).isEmpty) = false)
      (h2 : firstFault [s.descFault (s.desc p (recOp e.x 64)) false [0], s.descFault (s.desc p (recOp e.x 80)) true [0],
        s.descFault (s.desc p (recOp e.x 64 + 1)) false [0], s.descFault (s.desc p (recOp e.x 80 + 1)) true [0],
        need (foldShapeOk (s.desc p (recOp e.x 64)) (s.desc p (recOp e.x 80)) (s.desc p (recOp e.x 64 + 1))
          (s.desc p (recOp e.x 80 + 1))) .malformed] = none) :
      Works s l p e foldEff (s.foldRun p (s.desc p (recOp e.x 64)) (s.desc p (recOp e.x 64 + 1)) (s.desc p (recOp e.x 80))
        (s.desc p (recOp e.x 80 + 1)))
  | drain (h1 : s.slotExists e.x = true)
      (h2 : ((s.desc p (recOp e.x 80)).headOk && (s.desc p (recOp e.x 80)).isEmpty) = false)
      (h3 : s.drainFault p e.x (s.desc p (recOp e.x 80)) = none) :
      Works s l p e drainEff (s.drainData l p e.x (s.desc p (recOp e.x 80)))
  | update (h1 : s.slotExists e.x = true) (h2 : ((s.update p e.x).dst.headOk && (s.update p e.x).dst.isEmpty) = false)
      (h3 : s.updateFault p e.x (s.update p e.x) = none) :
      Works s l p e updateEff (s.updateData l p e (s.update p e.x))
  | vec (r : Routine) (h1 : (optOk (s.vecOps p e.x).out0 (fun d => d.headOk && d.isEmpty) && (s.vecOps p
      e.x).out0.isSome) = false)
      (h2 : firstFault (((s.vecOps p e.x).all.map (fun d => s.descFault d.1 d.2 [0])) ++
        [need (s.vecOps p e.x).dense .malformed, need (r.shape e.x (s.vecOps p e.x)) .malformed,
         need (r.range e.x (s.vecOps p e.x)) .outOfRange]) = none) :
      Works s l p e (vecEff r) (r.run s l p e.x (s.vecOps p e.x))
  | trim (h1 : ((s.desc p (recOp e.x 64)).headOk && (s.desc p (recOp e.x 64)).isEmpty) = false)
      (h2 : firstFault [s.descFault (s.desc p (recOp e.x 64)) true [0], s.descFault (s.desc p (recOp e.x 80)) true [0],
        need (maskedOk e.x (s.desc p (recOp e.x 64)) (s.desc p (recOp e.x 80))) .malformed] = none) :
      Works s l p e trimEff (s.trimRun p e.x (s.desc p (recOp e.x 64)) (s.desc p (recOp e.x 80)))
  | tipin (h1 : bitsOf e.x 175 160 ≠ 0 ∨ fromPolicy e.x = true)
      (h2 : ((s.desc p (recOp e.x 96)).headOk && (s.desc p (recOp e.x 96)).isEmpty) = false)
      (h3 : firstFault [s.descFault (s.desc p (recOp e.x 64)) true [0], s.descFault (s.desc p (recOp e.x 80)) true [0],
        s.descFault (s.desc p (recOp e.x 96)) false [0],
        need (maskedOk e.x (s.desc p (recOp e.x 64)) (s.desc p (recOp e.x 80)) &&
          candOk (s.desc p (recOp e.x 80)) (s.desc p (recOp e.x 96))) .malformed] = none)
      (h4 : shareOf (s.fraction e.x Obj.regrowDensity) (s.desc p (recOp e.x 64)) ≠ 0) :
      Works s l p e tipinEff (s.tipinRun l p e.pos e.x (s.desc p (recOp e.x 64)) (s.desc p (recOp e.x 80))
        (s.desc p (recOp e.x 96)) (shareOf (s.fraction e.x Obj.regrowDensity) (s.desc p (recOp e.x 64))))
  | scan (h1 : perQuire e.x ≠ 0)
      (h2 : ((s.desc p (recOp e.x 112)).headOk && (s.desc p (recOp e.x 112)).isEmpty) = false)
      (h3 : ((s.desc p (recOp e.x 128)).headOk && (s.desc p (recOp e.x 128)).isEmpty) = false)
      (h4 : firstFault [s.descFault (s.desc p (recOp e.x 80)) false [0], s.descFault (s.desc p (recOp e.x 96)) true [0],
        s.descFault (s.desc p (recOp e.x 112)) false [0], s.descFault (s.desc p (recOp e.x 128)) false [0],
        need (scanOk e.x (s.desc p (recOp e.x 80)) (s.desc p (recOp e.x 96)) (s.desc p (recOp e.x 112))
          (s.desc p (recOp e.x 128))) .malformed, need (decide (perQuire e.x ≤ 16)) .outOfRange] = none) :
      Works s l p e scanEff (s.scanRun l p e.x (s.desc p (recOp e.x 80)) (s.desc p (recOp e.x 96)) (s.desc p (recOp e.x 112))
        (s.desc p (recOp e.x 128)))
  | check (h1 : ((s.desc p (recOp e.x 80)).headOk && (s.desc p (recOp e.x 80)).isEmpty) = false)
      (h2 : firstFault [s.descFault (s.desc p (recOp e.x 80)) false [0], s.descFault (s.desc p (recOp e.x 144)) true [0],
        need (checkOk (s.desc p (recOp e.x 80)) (s.desc p (recOp e.x 144))) .malformed] = none) :
      Works s l p e checkEff (s.checkRun p e.x (s.desc p (recOp e.x 80)) (s.desc p (recOp e.x 144)))
  | select (h : firstFault [s.descFault (s.desc p (recOp e.x 80)) false [0], s.descFault (s.desc p (recOp e.x 112)) true [0],
        s.skipFlagsFault p e.x, need (s.selectOk p e.x (s.desc p (recOp e.x 80)) (s.desc p (recOp e.x 112))) .malformed,
        need (routeInRange e.x) .outOfRange] = none) :
      Works s l p e selectEff (s.selectRun l p e.x (s.desc p (recOp e.x 80)) (s.desc p (recOp e.x 112)))
  | combine (h : firstFault [s.descFault (s.desc p (recOp e.x 96)) false [0], s.descFault (s.desc p (recOp e.x 112)) false [0],
        s.descFault (s.desc p (recOp e.x 128)) true [0],
        need (combineOk e.x (s.desc p (recOp e.x 96)) (s.desc p (recOp e.x 112)) (s.desc p (recOp e.x 128))) .malformed,
        need (routeInRange e.x) .outOfRange,
        need ((s.tokenRows p e.x (s.desc p (recOp e.x 112))).all (fun t => !t.bad)) .malformed] = none) :
      Works s l p e combineEff (s.combineRun l p e.x (s.desc p (recOp e.x 96)) (s.desc p (recOp e.x 112))
        (s.desc p (recOp e.x 128)))
  | rand (h1 : ((s.desc p (recOp e.x 64)).headOk && (s.desc p (recOp e.x 64)).isEmpty) = false)
      (h2 : firstFault [s.descFault (s.desc p (recOp e.x 64)) true [0],
        need (randDstOk e.x (s.desc p (recOp e.x 64))) .malformed] = none) :
      Works s l p e randEff (s.randRun l p e.x (s.desc p (recOp e.x 64)))
  | signalAdd (h1 : sigAddend e.x ≠ 0) (h2 : sigFlag e.x < 1024) (h3 : s.hubDown l = false) :
      Works s l p e signalAddEff (Done.only { s with mem := { s.mem with
        snQueue := s.mem.snQueue ++ [(l, sigFlag e.x, sigAddend e.x)] } } .ok)
  | armCue (h1 : s.cueValid (sigCue e.x) = true) (h2 : s.take.cues.length < 1024) :
      Works s l p e armCueEff (Done.only (s.armCue (sigCue e.x) false).1.fireDue .ok)

/-- Entry `e` of logical tile `l`, placed on tile `p`, is the next of its kind and nothing holds it: its ordering
conditions hold (R62), no first test stops it (R64, R66), and the values it needs exist (R200, R208, R214). -/
def ReadyAt (s : State) (l : Nat) (mine : Nat → Bool) (p : Nat) (e : QEntry) : Prop :=
  s.startable l mine = some (p, e) ∧ s.preStatus l e = none ∧ s.canStart l p e = true

/-- What completing entry `e` of logical tile `l` on tile `p` leaves after the unit has done `d` in `n` cycles (R61, R66,
R72, R74): its place is free and no other's, its status stands in the history, the record of a wanted completion stands at
WRITE_INDEX mod 256, STEP_END counts a step; memories, flags and the unit's own results are those of `d`. -/
structure Completed (l p n : Nat) (e : QEntry) (d : Done) (t : State) : Prop where
  queue : ∀ q : QEntry, q ∈ (t.lt l).queue ↔ (q ∈ (d.s.lt l).queue ∧ q.id ≠ e.id)
  history : ∀ h : HistEntry, (d.s.lt l).hist[e.pos]? = some h →
    ∃ h' : HistEntry, (t.lt l).hist[e.pos]? = some h' ∧ h'.status = some d.status ∧ h'.record = h.record
  counted : (t.lt l).completed = (d.s.lt l).completed + 1
  step : (t.lt l).stepCtr =
    if recStepEnd e.x then ((d.s.lt l).stepCtr + 1) % 2 ^ 32 else (d.s.lt l).stepCtr
  index : (t.lt l).writeIndex =
    if recordWanted e.x d.status then ((d.s.lt l).writeIndex + 1) % 2 ^ 32 else (d.s.lt l).writeIndex
  record : ∀ i : Nat, Tab.look (t.lt l).ring i =
    if recordWanted e.x d.status = true ∧ i = (d.s.lt l).writeIndex % 256 then
      some (completionRecord e.x (statusCode d.status) l p n d.count0 d.count1 (d.s.obj Obj.lineTakeNumber) d.s.time.tb)
    else Tab.look (d.s.lt l).ring i
  flags : (t.lt l).flags = (d.s.lt l).flags
  others : ∀ k : Nat, k ≠ l → t.lt k = d.s.lt k
  memory : t.mem = d.s.mem
  stores : ∀ q : Nat, (t.pt q).store = (d.s.pt q).store ∧ (t.pt q).am = (d.s.pt q).am ∧ (t.pt q).occupied = (d.s.pt q).occupied
  host : t.host.activation = d.s.host.activation

/-- The members of a run complete one after the other, in the order given, each with what the array did for it (R122). -/
def RunCompleted (l p n : Nat) : List (QEntry × ArrayDone) → State → State → Prop
  | [], s, t => t = s
  | m :: ms, s, t => ∃ u : State, Completed l p n m.1 (m.2.done s) u ∧ RunCompleted l p n ms u t

/-! ## The fabric -/

/-- No remote operation is under way at any tile's fabric port, and no fence waits there. -/
def PortsQuiet (s : State) : Prop :=
  ∀ e ∈ s.tiles, e.2.ops = [] ∧ ∀ q ∈ e.2.queue, q.st = .issued → isFence q.x = false

/-- Every remote operation has left its port with all its packets and none is answered yet, every tile that has one is
placed, and no fence waits. -/
def PortsAwait (s : State) : Prop :=
  ∀ e ∈ s.tiles, (e.2.ops ≠ [] → (s.lt e.1).phys.isSome = true) ∧
    (∀ o ∈ e.2.ops, o.sent = true ∧ o.answer = none ∧ o.packets.length ≤ o.left) ∧ ∀ q ∈ e.2.queue, q.st = .issued →
        isFence q.x = false

/-- The packet is the next numbered one of an up port, passes its HCRC and carries no replay request (R281). -/
def LinkNext (s : State) (k : Nat) (q : Packet) : Prop :=
  (s.port k).state = portUp ∧ q.hcrc = packetCrc q ∧ q.linkNak = false ∧ q.linkSeq = (s.port k).rxSeq

/-! ## Reset -/

/-- What holds between resets: while a reset source is asserted nothing but the always-on domain runs; the part is ready only
with its journal restored or in the recovery service, and restored only with firmware running and BIST done (R365, R376,
R399). -/
def StartUpOrder (s : State) : Prop :=
  (s.rst.asserted ≠ 0 → s.rst.fwRunning = false ∧ s.rst.recovery = false ∧ s.rst.ready = false ∧ s.rst.restored = false ∧
    s.rst.bistDone = false ∧ s.rst.domains = [] ∧ s.time.running = false ∧ s.ecat.released = false) ∧
  (s.rst.restored = true → s.rst.fwRunning = true ∧ s.rst.bistDone = true ∧ s.rst.ready = true) ∧
  (s.rst.ready = true → s.rst.restored = true ∨ s.rst.recovery = true) ∧
  (s.rst.recovery = true → s.rst.fwRunning = false)

/-! ## Destinations -/

/-- The descriptor indices of the operands that a record writes (R68 to R73, R117, R137). -/
def destinations (x : Nat) : List Nat :=
  let op := recOpcode x
  let given (fields : List Nat) : List Nat := (fields.filter (fun f => hasOp x f)).map (fun f => recOp x f)
  if op = opMove ∨ op = opDrain then given [80]
  else if op = opFold then [recOp x 80, recOp x 80 + 1]
  else if op = opVec then given [128, 144]
  else if op = opTrim ∨ op = opTipin then given [64, 80]
  else if op = opScan then given [96]
  else if op = opCheck then given [144]
  else if op = opRoute then given [if routeOp x = 0 then 112 else 128]
  else if op = opRand then given [64]
  else []

/-- Address `a` of the store of tile `p` lies in a destination of the record: in its extent or its scale array (R100). -/
def inDestination (s : State) (p x a : Nat) : Bool :=
  (destinations x).any (fun i => (s.desc p i).space == 0 &&
    (s.desc p i).pieces.any (fun q => decide (q.1 ≤ a ∧ a < q.1 + q.2)))

end Sys2Proof.Machine
end

