-- ==== Sys2Proof/Certificates/Slice0/Obligations.lean ====
section
/-!
DEFINITION. The statements about the model that the provers are asked for, one definition each.
-/

open Sys2Proof Sys2Proof.Machine

/-- A step runs the command at the front of the queue; on an empty queue it idles (log 2). For every command c and
state s whose queue holds c at its front, step of s is exec of c on s with the rest of the queue. The model
idles on an empty queue: step of s is next s. This is the model's choice (DESIGN CHOICE, log 2); the spec has no
tick of its own. (from 00_scope.md, 95_what_each_step_holds.md) -/
def Obligations.FrontCommandRuns : Prop :=
  (∀ (c : Instr) (rest : List Instr) (s : State), s.pending = c :: rest →
    step s = exec c { s with pending := rest }) ∧
  (∀ s : State, s.pending = [] → step s = .next s)

/-- No command ends a run. Every command of the table in every state answers a next state: the part answers a
request it does not carry out with a status, a log entry or no effect, never by stopping. (from 00_scope.md,
17_faults_violations_and_recovery.md) -/
def Obligations.EveryCommandAnswersNext : Prop :=
  ∀ (c : Instr) (s : State), ∃ t, exec c s = .next t

/-- The state after a plain power-up, with its memory in canonical form. After reset TB_COUNT is 0, no take is open,
TAKE_NUMBER is 0, TAKE_CONTROL is STOP, no reel is staged, being activated or active, the destination tables are
empty, every port is dark and the fabric is not enabled, HBM reads as zero, no logical tile exists, no command
waits, RESET_COUNT is 1 and LAST_CAUSES names power-on. State.reset's HBM meets the canonical form that every step
keeps. (from 01_takes_slates_and_line_position.md, 09_expert_routing_and_skipping.md,
10_memory_networks_and_arbiters.md, 11_optical_fabric.md, 15_reset_power_and_self_test.md) -/
def Obligations.ResetState : Prop :=
  (State.reset.time.tb = 0 ∧ State.reset.obj Obj.takeState = 0 ∧ State.reset.obj Obj.lineTakeNumber = 0 ∧
    State.reset.obj Obj.takeControl = 0 ∧ State.reset.reels.active = none ∧ State.reset.reels.staged = none ∧
    State.reset.reels.activating = none ∧ State.reset.route.staged = [] ∧ State.reset.route.inForce = [] ∧
    (∀ k, (State.reset.port k).state = portDark) ∧ State.reset.fabric.enabled = false ∧ (∀ a, State.reset.hbmRaw a = 0) ∧
    State.reset.tiles = [] ∧ State.reset.pending = [] ∧ State.reset.rst.resetCount = 1 ∧ State.reset.rst.lastCauses = 1) ∧
  (Memory.wf State.reset.mem.hbm = true)

/-- No command touches the queue of waiting commands, which is the model's own (log 2). The queue is no state of the
spec: it is the model's choice of how commands come (DESIGN CHOICE, log 2). For every command c and states s and t,
    if exec c s answers
next t then t holds the same waiting commands as s: only step takes from the queue, and no command puts one into
it. (from 00_scope.md) -/
def Obligations.QueueBelongsToStep : Prop :=
  ∀ (c : Instr) (s t : State), exec c s = .next t → t.pending = s.pending

/-- No step changes what manufacture fixed, and fuses are only blown. In every step from every state the variant,
the silicon revision, the serial number, the factory region, the SII image, the device secret, the key digests,
the debug fuses and the trip thresholds stay as they are; SVN_FLOOR never falls and no revoked key set is ever
restored (R324, R394, R401). Only JOURNAL_RESTORE can blow a fuse. (from
13_object_dictionary_and_retained_state.md, 16_security_and_boot.md) -/
def Obligations.ManufactureIsFixed : Prop :=
  ∀ (s t : State), step s = .next t →
    (t.part.variant = s.part.variant ∧ t.part.siliconRev = s.part.siliconRev ∧ t.part.serial = s.part.serial ∧
      t.part.hardwareVersion = s.part.hardwareVersion ∧ t.part.factoryCrcOk = s.part.factoryCrcOk ∧
      t.part.factoryDate = s.part.factoryDate ∧ t.part.factoryCal = s.part.factoryCal ∧
      t.part.factoryBist = s.part.factoryBist ∧ t.part.sii = s.part.sii ∧
      t.part.factoryDigest = s.part.factoryDigest ∧ t.part.endorsement = s.part.endorsement ∧
      t.part.deviceSecret = s.part.deviceSecret ∧ t.part.keyDigests = s.part.keyDigests ∧
      t.part.debugDigest = s.part.debugDigest ∧ t.part.debugDisable = s.part.debugDisable ∧
      t.part.locked = s.part.locked ∧ t.part.tripThreshold = s.part.tripThreshold ∧
      t.part.tripRelease = s.part.tripRelease) ∧
    s.part.svnFloor ≤ t.part.svnFloor ∧ s.part.keyRevoked &&& t.part.keyRevoked = s.part.keyRevoked ∧
    ((∀ dt, s.pending.head? ≠ some (.journalRestore dt)) → t.part = s.part)

/-- Every step keeps HBM in its canonical form. If the memory of s is listed in strictly rising addresses with no
entry equal to the zero that an unlisted byte reads, then so is the memory of every state that a step of s
answers. (from 10_memory_networks_and_arbiters.md, 15_reset_power_and_self_test.md) -/
def Obligations.HbmStaysCanonical : Prop :=
  ∀ (s t : State), Memory.wf s.mem.hbm = true → step s = .next t → Memory.wf t.mem.hbm = true

/-- ADV pulses: accepted ones update P and the count since the anchor, others count and change nothing. An ADV pulse
that stays high for 64 counts or more, comes after the journal restore and at least ADV_MIN_PERIOD_US after the
last accepted one is accepted, unless R35 has applied it ahead of a slate of the same timestamp: ADV_ACCEPTED
rises by one; at each pulse after the first P becomes P + (p − P) / 2^k with the quotient truncated towards zero;
the pulse becomes the last accepted one; with the pin source and a take open the pulses since the anchor rise by
one, saturating at 0xFFFF_FFFF; nothing else of the timebase changes. The governor then evaluates its forecast (R47),
from the state u in which the pulse is counted and the cues due have fired: with a take open SHED_LEVEL becomes the
smallest level from the larger of the present level and SHED_FLOOR up to SHED_CEILING whose forecast does not pass
the deadline, and the margin is what remains; where none qualifies it becomes SHED_CEILING, and never falls, the
take has a forecast miss, and event 0x067 is logged; with no take open the level stays. A pulse shorter than 64 counts,
    and one that
R35 has applied already, has no further effect. Before the journal restore, out of reset, a pulse counts once in
IGNORED_PULSES. After it, a pulse less than ADV_MIN_PERIOD_US after the last accepted one counts once in
ADV_STORM_COUNT. In these cases P, the last accepted pulse, the pulses since the anchor, the takes, the tiles and
all memories stay as they are. (from 01_takes_slates_and_line_position.md) -/
def Obligations.AdvPulses : Prop :=
  (∀ (s : State) (dt w : Nat), 64 ≤ w → (s.advance dt).rst.restored = true →
    s.time.advApplied ≠ some (s.advance dt).advStamp →
    ((s.advance dt).time.advSeen = true →
      (s.advance dt).time.lastAdv + (s.advance dt).governs Obj.advMinPeriodUs * 3600 ≤ (s.advance dt).advStamp) →
    ∃ t, exec (.advPulse dt w) s = .next t ∧
      t.obj Obj.advAccepted = (s.obj Obj.advAccepted + 1) % 2 ^ 32 ∧
      t.time = { (s.advance dt).time with
        period :=
          if (s.advance dt).time.advSeen then
            (((s.advance dt).time.period : Int) +
              Int.tdiv ((((s.advance dt).advStamp - (s.advance dt).time.lastAdv : Nat) : Int) - (s.advance dt).time.period)
                (2 ^ (s.advance dt).governs Obj.advSmoothShift)).toNat
          else (s.advance dt).time.period
        advSeen := true
        lastAdv := (s.advance dt).advStamp
        silenceRaised := false
        advSinceAnchor :=
          if (s.advance dt).obj Obj.takeState ≠ 0 ∧ (s.advance dt).obj Obj.sourceInForce ≠ 1
          then min ((s.advance dt).time.advSinceAnchor + 1) (2 ^ 32 - 1) else (s.advance dt).time.advSinceAnchor } ∧
      ∀ (u : State) (low high : Nat),
        u = ({ (s.advance dt).incObj Obj.advAccepted with time := t.time } : State).fireDueAt (s.advance dt).advStamp →
        low = max (u.obj Obj.shedLevel) (u.governs Obj.shedFloor) → high = u.governs Obj.shedCeiling →
        (u.obj Obj.takeState = 0 → t.obj Obj.shedLevel = u.obj Obj.shedLevel) ∧
        (u.obj Obj.takeState ≠ 0 → ∀ level : Nat, low ≤ level → level ≤ high → (u.forecastAt level : Int) ≤ u.deadline →
          (∀ k, low ≤ k → k < level → u.deadline < (u.forecastAt k : Int)) →
          t.obj Obj.shedLevel = level ∧ t.take.margin = some (u.deadline - (u.forecastAt level : Int))) ∧
        (u.obj Obj.takeState ≠ 0 →
          (∀ level : Nat, low ≤ level → level ≤ high → u.deadline < (u.forecastAt level : Int)) →
          t.obj Obj.shedLevel = max (u.obj Obj.shedLevel) high ∧ t.take.forecastMiss = true ∧ Logged u t 0x067)) ∧
  (∀ (s : State) (dt w : Nat), ∃ t, exec (.advPulse dt w) s = .next t ∧
    (w < 64 → t = s.advance dt) ∧
    (64 ≤ w → (s.advance dt).rst.restored = true → s.time.advApplied = some (s.advance dt).advStamp →
      t = { s.advance dt with time := { (s.advance dt).time with advApplied := none } }) ∧
    (64 ≤ w → (s.advance dt).rst.restored = false → (s.advance dt).inReset = false →
      t.obj Obj.ignoredPulses = (s.obj Obj.ignoredPulses + 1) % 2 ^ 32 ∧
      t.obj Obj.advStormCount = s.obj Obj.advStormCount ∧ t.time = (s.advance dt).time ∧ t.take = s.take ∧
      t.tiles = s.tiles ∧ t.phys = s.phys ∧ t.mem = s.mem) ∧
    (64 ≤ w → (s.advance dt).rst.restored = true → s.time.advApplied ≠ some (s.advance dt).advStamp →
      (s.advance dt).time.advSeen = true →
      (s.advance dt).advStamp < (s.advance dt).time.lastAdv + (s.advance dt).governs Obj.advMinPeriodUs * 3600 →
      t.obj Obj.advStormCount = (s.obj Obj.advStormCount + 1) % 2 ^ 32 ∧
      t.obj Obj.advAccepted = s.obj Obj.advAccepted ∧ t.time = (s.advance dt).time ∧ t.take = s.take ∧
      t.tiles = s.tiles ∧ t.phys = s.phys ∧ t.mem = s.mem))

/-- Slates that no take can use, and early and late slates. For a qualifying slate on the pin while the line is not
paused and the pin source is in force, let u be the state once an ADV pulse that waits with the same timestamp
has been applied (R35). With no take open and TAKE_CONTROL STOP the slate counts once in IGNORED_PULSES (out of
reset); within SLATE_HOLDOFF_US of the last accepted slate, or while the take is EARLY_PENDING, it counts once in
SLATE_STORM_COUNT (with no take open under RUN too, which is the
model's choice, log 146). TAKE_NUMBER,
TAKE_STATE, the position and the tiles stay as in u. An accepted slate of an open take outside the window
[L − E, L + D]: as the first slate of a self-slated take at POSITION below D it is a late violation that
re-anchors the take (LATE_SLATES rises by one, the take number stays, the anchor becomes the slate timestamp and
the pulses since it 0); in every other case it is an early violation (EARLY_SLATES rises by one, TAKE_STATE
becomes EARLY_PENDING, the take number and the anchor stay), and so is one beyond L + D with the take still open,
which the spec does not name (the model's choice, log 124). The accepted slate starts the hold-off anew, an early
one too (the model's choice, log 146). (from 01_takes_slates_and_line_position.md) -/
def Obligations.Slates : Prop :=
  ∀ (s u : State) (dt w ts : Nat), 64 ≤ w → (s.advance dt).linePaused = false → s.obj Obj.sourceInForce ≠ 1 →
    ts = (s.advance dt).slateStamp → u = (s.advance dt).applyWaitingAdv ts →
    (s.obj Obj.takeState = 0 → s.obj Obj.takeControl = 0 → s.inReset = false →
      ∃ t, exec (.slate dt w) s = .next t ∧
        t.obj Obj.ignoredPulses = (s.obj Obj.ignoredPulses + 1) % 2 ^ 32 ∧ t.obj Obj.takeState = 0 ∧
        t.obj Obj.lineTakeNumber = s.obj Obj.lineTakeNumber ∧ t.time = u.time ∧ t.tiles = u.tiles ∧ t.take = u.take) ∧
    (((s.advance dt).heldOff ts = true ∧ (s.obj Obj.takeState ≠ 0 ∨ s.obj Obj.takeControl ≠ 0)) ∨
        s.obj Obj.takeState = 2 →
      ∃ t, exec (.slate dt w) s = .next t ∧
        t.obj Obj.slateStormCount = (s.obj Obj.slateStormCount + 1) % 2 ^ 32 ∧
        t.obj Obj.takeState = s.obj Obj.takeState ∧ t.obj Obj.lineTakeNumber = s.obj Obj.lineTakeNumber ∧
        t.time = u.time ∧ t.tiles = u.tiles ∧ t.take = u.take) ∧
    (s.obj Obj.takeState = 1 → (s.advance dt).heldOff ts = false →
      ¬(u.lengthL ≤ u.positionAt ts + u.earlyE ∧ u.positionAt ts ≤ u.lengthL + u.lateD) →
      ∃ t, exec (.slate dt w) s = .next t ∧ t.obj Obj.lineTakeNumber = s.obj Obj.lineTakeNumber ∧
        t.time.lastSlate = some ts ∧
        (if s.take.selfSlated = true ∧ s.take.slates = 0 ∧ u.positionAt ts < u.lateD then
          t.obj Obj.lateSlates = (s.obj Obj.lateSlates + 1) % 2 ^ 32 ∧ t.obj Obj.takeState = 1 ∧
            t.time.anchor = ts ∧ t.time.advSinceAnchor = 0 ∧ t.take.lateAnchored = true
        else
          t.obj Obj.earlySlates = (s.obj Obj.earlySlates + 1) % 2 ^ 32 ∧ t.obj Obj.takeState = 2 ∧
            t.time.anchor = s.time.anchor ∧ t.time.advSinceAnchor = u.time.advSinceAnchor ∧
            t.take.lateAnchored = s.take.lateAnchored))

/-- A take boundary opens the next take. At an accepted slate of an open take inside the window (judged once an ADV
pulse that waits with the same timestamp is applied, R35), at POSITION L − E of a take in EARLY_PENDING, and at
POSITION L + D of an OPEN take for which no slate waits at this very count, the open take closes; while
TAKE_CONTROL is RUN the next take opens at once: TAKE_NUMBER takes its successor (1 after 0xFFFF_FFFF),
TAKE_STATE is OPEN and the pin position counts from the closing timestamp; while it is STOP no take is open
afterwards and TAKE_NUMBER stays. A slate under RUN with no take open and outside the hold-off opens the next take
at its timestamp. Every logical tile with a place latches at the opening, as its step level, the level the take opens
with (R50); with no GOVERNOR_CHECK cue armed to change it at the close, that is one level below the last one, but not
below SHED_FLOOR, where the last forecast left RELAX_MARGIN,
    else the last one within SHED_FLOOR and SHED_CEILING (R48). (from 01_takes_slates_and_line_position.md) -/
def Obligations.TakeBoundary : Prop :=
  ∀ (s u v : State) (dt w : Nat) (c : Instr) (ts : Nat), u = (s.advance dt).applyWaitingAdv (s.advance dt).slateStamp →
    ((c = .slate dt w ∧ v = u ∧ 64 ≤ w ∧ (s.advance dt).linePaused = false ∧ s.obj Obj.sourceInForce ≠ 1 ∧
        ts = (s.advance dt).slateStamp ∧ (s.advance dt).heldOff ts = false ∧
        ((s.obj Obj.takeState = 1 ∧ u.lengthL ≤ u.positionAt ts + u.earlyE ∧ u.positionAt ts ≤ u.lengthL + u.lateD) ∨
          (s.obj Obj.takeState = 0 ∧ s.obj Obj.takeControl ≠ 0))) ∨
      (c = .earlyClose dt ∧ v = s.advance dt ∧ s.obj Obj.takeState = 2 ∧ ts = (s.advance dt).time.tb ∧
        (s.advance dt).lengthL ≤ (s.advance dt).position + (s.advance dt).earlyE) ∨
      (c = .selfSlate dt ∧ v = s.advance dt ∧ s.obj Obj.takeState = 1 ∧ ts = (s.advance dt).time.tb ∧
        (s.advance dt).lengthL + (s.advance dt).lateD ≤ (s.advance dt).position ∧ (s.advance dt).slateWaits ts = false)) →
    ∃ t, exec c s = .next t ∧
      (if s.obj Obj.takeControl = 0 then
        t.obj Obj.takeState = 0 ∧ t.obj Obj.lineTakeNumber = s.obj Obj.lineTakeNumber
      else
        t.obj Obj.takeState = 1 ∧ t.time.anchor = ts ∧ t.time.advSinceAnchor = 0 ∧ t.take.openTb = ts ∧
          t.obj Obj.lineTakeNumber =
            (if s.obj Obj.lineTakeNumber = 0xFFFFFFFF then 1 else s.obj Obj.lineTakeNumber + 1) ∧
          (∀ l, (s.lt l).phys ≠ none → (t.lt l).stepLevel = t.take.levelOpen) ∧
          ((∀ a ∈ v.take.cues, cueAction a.entry < 5) →
            t.take.levelOpen =
              (let stays := min (max (v.obj Obj.shedLevel) (v.obj Obj.shedFloor)) (v.obj Obj.shedCeiling);
                match v.take.margin with
                | some m => if (v.obj Obj.relaxMargin : Int) ≤ m then max (v.obj Obj.shedFloor) (v.obj Obj.shedLevel - 1)
                    else stays
                | none => stays)))

/-- A tile command that nothing can start, or that a first test stops, touches no data. For each of the 40 commands
that run a queue entry on a unit of a tile: when the tile has no queued entry of that kind that may start (R62),
or the entry that may start passes its first tests and still waits for a version, a skip verdict or the random
table (R200, R208, R214), the command answers next with the state unchanged. For each of the 47 commands of the
units and the fabric port: an entry that a replay, shedding, ROUTE with no work or a malformed record stops
(R63, R64, R66, R181) completes with that status: it leaves the queue, its status stands in the history, a
wanted completion record stands at WRITE_INDEX mod 256 with COUNT0 and COUNT1 0; HBM, the tile stores, the
accumulators and the host store keep every byte. (from 02_tiles_and_commands.md, 08_random_bits.md) -/
def Obligations.TileCommandWaitsOrStops : Prop :=
  (∀ (c : Instr) (l n : Nat) (mine : Nat → Bool) (eff : State → Nat → Nat → QEntry → Done) (s : State),
    RunsUnit c l n mine eff →
    (s.startable l mine = none ∨
      ∃ p e, s.startable l mine = some (p, e) ∧ s.preStatus l e = none ∧ s.canStart l p e = false) →
    exec c s = .next s) ∧
  (∀ (c : Instr) (l n p : Nat) (mine : Nat → Bool) (e : QEntry) (st : Status) (s : State),
    ((∃ eff, RunsUnit c l n mine eff) ∨ ∃ plan, RunsPort c l n mine plan) →
    s.startable l mine = some (p, e) → s.preStatus l e = some st →
    ∃ t, exec c s = .next t ∧ Completed l p n e (Done.only s st) t)

/-- A tile command that can start runs its unit and completes. For each of the 40 commands that run a queue entry on
a unit: the next entry of its kind, when nothing holds it, completes with what the unit does, a correctable error
that it meets being corrected and counted (R407): it leaves the queue and no other entry does, its status stands
in the history, the count of completed commands rises by one, STEP_END counts a step, and a wanted completion is
written at WRITE_INDEX mod 256 with SEQ, OPCODE, STATUS, LOGICAL, PHYSICAL, CYCLES, COUNT0, COUNT1, TAKE_NUMBER
and TB_COUNT; other tiles, flags and memories are as the unit left them. Where the entry has work to do and passes
every check of its command (MOVE, FOLD, DRAIN, the update drains, the VEC routines, TRIM, TIPIN, SCAN, CHECK,
ROUTE, RAND, SIGNAL), what the unit did is that command's own work on its operands. (from
02_tiles_and_commands.md) -/
def Obligations.TileCommandCompletes : Prop :=
  ∀ (c : Instr) (l n p : Nat) (mine : Nat → Bool) (eff : State → Nat → Nat → QEntry → Done) (e : QEntry) (s : State),
    RunsUnit c l n mine eff → ReadyAt s l mine p e →
    (∃ t, exec c s = .next t ∧ Completed l p n e ((eff s l p e).heal s p e.x) t) ∧
    ∀ d : Done, Works s l p e eff d → ∃ t, exec c s = .next t ∧ Completed l p n e (d.heal s p e.x) t

/-- A unit writes its tile store only inside the destination operands. For each of the 40 commands that run a queue
entry on a unit: every byte of every tile store outside the extents and scale arrays of the destination operands
of the entry that ran, in the store of the tile that ran it, reads after the command as it read before; where no
entry runs, every byte does. (from 02_tiles_and_commands.md, 03_formats_and_tensor_layout.md) -/
def Obligations.TileStoreFrame : Prop :=
  ∀ (c : Instr) (l n : Nat) (mine : Nat → Bool) (eff : State → Nat → Nat → QEntry → Done) (s t : State),
    RunsUnit c l n mine eff → exec c s = .next t →
    ∀ q a : Nat,
      (∀ p e, s.startable l mine = some (p, e) → q = p → inDestination s p e.x a = false) →
      t.storeByte q a = s.storeByte q a

/-- Tile and fabric-port commands keep everything outside the tiles. For each of the 47 commands of the units and
the fabric port: the part, TB_COUNT and the line position, the reels, the destination tables, the dictionary
server, the mailbox, the EtherCAT controller, the journal, the frozen dailies (but the counts of masked faults of a
set, which R408 raises for the newest one at its own closing timestamp, and which a replay raises that succeeds after
the close of the take of its fault, log 180), the reset unit (a block that works ceases to be Idle) and the security unit
    stay as they
are, and so do TAKE_STATE, TAKE_NUMBER, TAKE_CONTROL, the combination mode and the position source in force, the
opening of the take and the values in force in it. (from 02_tiles_and_commands.md,
01_takes_slates_and_line_position.md) -/
def Obligations.TileCommandFrame : Prop :=
  ∀ (c : Instr) (l n : Nat) (mine : Nat → Bool) (s t : State),
    ((∃ eff, RunsUnit c l n mine eff) ∨ ∃ plan, RunsPort c l n mine plan) → exec c s = .next t →
    t.part = s.part ∧ t.time = s.time ∧ t.reels = s.reels ∧ t.route = s.route ∧ t.server = s.server ∧
      t.mailbox = s.mailbox ∧ t.ecat = s.ecat ∧ t.journal = s.journal ∧
      t.dailies.length = s.dailies.length ∧
      (∀ i k, k ≠ Obj.faultsMasked → k ≠ Obj.takeFlags →
        Tab.read (t.dailies.getD i []) 0 k = Tab.read (s.dailies.getD i []) 0 k) ∧
      ((∀ i, ∀ e ∈ (s.lt i).queue, e.isReplay = false) →
        t.dailies.dropLast = s.dailies.dropLast ∧ (s.take.closedTb ≠ some s.time.tb → t.dailies = s.dailies)) ∧
      { t.rst with idleBlocks := s.rst.idleBlocks } = s.rst ∧ (∀ b ∈ t.rst.idleBlocks, b ∈ s.rst.idleBlocks) ∧
      t.sec = s.sec ∧ t.obj Obj.takeState = s.obj Obj.takeState ∧
      t.obj Obj.lineTakeNumber = s.obj Obj.lineTakeNumber ∧ t.obj Obj.takeControl = s.obj Obj.takeControl ∧
      t.obj Obj.modeInForce = s.obj Obj.modeInForce ∧ t.obj Obj.sourceInForce = s.obj Obj.sourceInForce ∧
      t.take.openTb = s.take.openTb ∧ t.take.inForce = s.take.inForce

/-- ADD, MUL, FMA and AFFINE convert the exact result of each element. An ADD, MUL, FMA or AFFINE that nothing
holds, whose operands pass the checks of every operand (R100), of dense layout and of one shape, and whose OUT0
is not empty, completes: element i of OUT0 is converted from the exact a + b, a × b, a × b + c or a × SCALAR0 +
SCALAR1 of the elements i of the inputs, with the TENSOR_CLASS, ROUND and STREAM of the record; COUNT1 is the
number of saturations; a correctable error that it meets is corrected (R407). (from 02_tiles_and_commands.md,
03_formats_and_tensor_layout.md) -/
def Obligations.VectorElementwise : Prop :=
  ∀ (op : (Nat → Nat → Instr) × (Nat → Val → Val → Val → Val)) (l n p : Nat) (mine : Nat → Bool)
    (eff : State → Nat → Nat → QEntry → Done) (e : QEntry) (d : Desc) (s : State),
    op ∈ [(Instr.add, fun _ a b _ => Val.add a b), (Instr.mul, fun _ a b _ => Val.mul a b),
      (Instr.fma, fun _ a b c => Val.add (Val.mul a b) c),
      (Instr.affine, fun x a _ _ => Val.add (Val.mul a (f32Val (vecReal0 x))) (f32Val (vecReal1 x)))] →
    RunsUnit (op.1 l n) l n mine eff → ReadyAt s l mine p e →
    (s.vecOps p e.x).out0 = some d → (d.headOk && d.isEmpty) = false →
    firstFault ((s.vecOps p e.x).all.map (fun o => s.descFault o.1 o.2 [0])) = none →
    (s.vecOps p e.x).dense = true → elementwiseOk (s.vecOps p e.x) = true →
    ∃ t, exec (op.1 l n) s = .next t ∧
      let a := s.vals l p (s.vecOps p e.x).in0
      let b := s.optVals l p (s.vecOps p e.x).in1
      let c := s.optVals l p (s.vecOps p e.x).in2
      let w := s.writeVals l p d (bitsOf e.x 241 240) (bitsOf e.x 243 242) (recOp e.x 224) 0
        ((List.range a.length).map (fun i =>
          op.2 e.x (a.getD i Val.zero) (b.getD i Val.zero) (c.getD i Val.zero)))
      Completed l p n e (({ Done.only w.s (worseEcc w.status .ok) with count1 := w.sats } : Done).heal s p e.x) t

/-- GATHER reads the rows its indices name and counts those out of range. A GATHER of a non-raw tensor that nothing
holds and that passes its checks completes: row j of OUT0 is converted from the row of IN0 that index j names, a
row of zeros where the index is not below the number of rows of IN0, and COUNT0 is the number of such indices,
which INDEX_OOR of the tile counts too (R129); a correctable error that it meets is corrected (R407). (from
02_tiles_and_commands.md) -/
def Obligations.GatherCountsOutOfRange : Prop :=
  ∀ (l n p : Nat) (e : QEntry) (d i0 : Desc) (s : State),
    ReadyAt s l (isVec 0x0701) p e → (s.vecOps p e.x).out0 = some d → (s.vecOps p e.x).in1 = some i0 →
    (d.headOk && d.isEmpty) = false →
    firstFault ((s.vecOps p e.x).all.map (fun o => s.descFault o.1 o.2 [0])) = none →
    (s.vecOps p e.x).dense = true → gatherRoutine.shape e.x (s.vecOps p e.x) = true →
    isRawType (s.vecOps p e.x).in0.elemType = false →
    ∃ t, exec (.gather l n) s = .next t ∧
      let a := (s.vecOps p e.x).in0
      let list := s.codes p i0
      let bad := (list.filter (fun i => decide (a.rows ≤ i))).length
      let w := s.writeVals l p d (bitsOf e.x 241 240) (bitsOf e.x 243 242) (recOp e.x 224) 0
        (list.flatMap (fun i => (rowsOf a (s.vals l p a)).getD i (List.replicate (a.sz 0) Val.zero)))
      Completed l p n e (({ Done.only w.s (worseEcc w.status .ok) with
        count0 := bad, count1 := w.sats, oor := bad } : Done).heal s p e.x) t ∧
      (t.pt p).indexOor = (if bad = 0 then (w.s.pt p).indexOor else ((w.s.pt p).indexOor + bad) % 2 ^ 32)

/-- MOVE of a raw type moves the bits through PERM. A MOVE between operands of one raw type that nothing holds, with
a source that is not empty and not behind a fenced host port, passes its checks and is read, over the tile's
bounce region where it is staged (R252; that the whole source is read into it first is the model's choice, log 167),
    without a lost burst: it completes without COUNT1, and the stored element
at place i of DST receives the bits of the element of SRC that PERM maps there, all bits read before any is written
(R106, R107); a correctable error that it meets is corrected (R407). (from 02_tiles_and_commands.md,
    03_formats_and_tensor_layout.md,
10_memory_networks_and_arbiters.md) -/
def Obligations.MoveMovesBits : Prop :=
  ∀ (l n p : Nat) (e : QEntry) (a b : Desc) (s : State),
    ReadyAt s l (fun x => recOpcode x == opMove) p e → a = s.desc p (recOp e.x 64) → b = s.desc p (recOp e.x 80) →
    (a.headOk && a.isEmpty) = false →
    firstFault [s.descFault a false [0, 1, 2], s.descFault b true [0, 1, 2], need (moveShapeOk e.x a b) .malformed,
      need (!(moveTooLong e.x a b)) .outOfRange, need (!(moveHost a b && s.blockDown .hostPort)) .isolated] = none →
    isRawType a.elemType = true → noData (s.moveRead p e.x a b).2 = false →
    ∃ t, exec (.move l n) s = .next t ∧
      let r := s.moveRead p e.x a b
      let w := r.1.writeCodes p b (movePermute e.x a b 0 (r.1.codes p a))
      Completed l p n e ((Done.only w.1 (worseEcc r.2 w.2)).heal s p e.x) t

/-- An accepted quire keeps its limits, and FOLD transposes it. For a quire whose metadata is accepted whole under
R127, the metadata of the folded quire holds bit 4c + r exactly when the source holds bit 4r + c, and folding it
again gives back the source's metadata; nothing is rejected. Whatever its metadata bits, a quire read under R127
holds at most LIMIT accepted bits in each row and in each column (2 for Q2, 1 for Q1), takes each value from a
slot of its own below the number of slots, accepts only bits that are set, and accepts or rejects every set bit
exactly once. (from 04_sparse_collation.md) -/
def Obligations.Quires : Prop :=
  (∀ (layout md : Nat) (slot : Nat → Nat), (layout = 1 ∨ layout = 2) → md < 2 ^ 16 → (readQuire layout md).rejected = 0 →
    (∀ b, b < 16 → bitAt (foldQuire layout md slot).md b = bitAt md (transposeBit b)) ∧
      (foldQuire layout md slot).rejected = 0 ∧
      ∀ slot', (foldQuire layout (foldQuire layout md slot).md slot').md = md) ∧
  (∀ (layout md : Nat),
    (∀ i, ((readQuire layout md).accepted.filter (fun a => a.1 / 4 == i)).length ≤ (if layout = 1 then 2 else 1)) ∧
    (∀ j, ((readQuire layout md).accepted.filter (fun a => a.1 % 4 == j)).length ≤ (if layout = 1 then 2 else 1)) ∧
    (∀ a ∈ (readQuire layout md).accepted, bitAt md a.1 = true ∧ a.1 < 16 ∧ a.2 < (if layout = 1 then 8 else 4)) ∧
    ((readQuire layout md).accepted.map (fun a => a.2)).Nodup ∧
    (readQuire layout md).accepted.length + (readQuire layout md).rejected =
      ((List.range 16).filter (fun b => bitAt md b)).length)

/-- The array forms the product of a run, and the run completes in issue order. RUN_FORMATION makes the next MMA or
SMMA, if nothing ends it without a product, and those that join it one run, or with one in progress the run staged
behind it (one run in progress and one staged is the model's choice, log 89),
    and changes nothing else; each member keeps the exponents of its operands' scales as they then stand
(R87, R121). MMA and SMMA form the product of the next member of the run when it is theirs: the accumulators
and, of a
reproducible slot, the levels of its stacks receive the slice sums of every output,
    the member keeps its status and counts, and the run waits. RUN_COMPLETE,
once every member has its product, completes the members one after the other in the order of the queue, which is issue
order: each leaves the queue with the status the array gave it, its record, where wanted, at the next place of the ring
(R122); and the staged run takes the place of the ended one. With no run in progress MMA and SMMA complete a command that
    ends without a product. (from
04_sparse_collation.md, 07_accumulation_and_numerics.md) -/
def Obligations.ArrayRun : Prop :=
  ∀ (l n p : Nat) (s : State), (s.lt l).phys = some p →
    (∀ (h : QEntry) (behind : Bool), s.runHead l = some (p, h, behind) → s.productEnd l p h = none →
      s.canStart l p h = true →
      ∃ t, exec (.runFormation l) s = .next t ∧
        (let ids := (s.runMembers l p h).map (fun e => e.id)
        (t.lt l).run = (if behind = true then (s.lt l).run else some ids) ∧
        (t.lt l).staged = (if behind = true then some ids else (s.lt l).staged) ∧
        (t.lt l).queue = (s.lt l).queue.map (fun e => if e.id ∈ ids then
          { e with st := .inRun none, step := (s.lt l).stepCtr, sigmas := s.productSigmas l p e.x } else e)) ∧
        (∀ k, k ≠ l → t.lt k = s.lt k) ∧ t.phys = s.phys ∧ t.mem = s.mem ∧ t.objs = s.objs) ∧
    (∀ (e : QEntry) (c : Instr) (op : Nat), (c, op) ∈ [(Instr.mma l, opMma), (Instr.smma l, opSmma)] →
      (s.lt l).run.isSome = true → (s.lt l).queue.find? (fun q => q.st == .inRun none) = some e → recOpcode e.x = op →
      s.productFault p e.x (s.product p e.x e.sigmas) = none →
      ∃ t, exec c s = .next t ∧
        (let o := s.product p e.x e.sigmas
        let d := (s.productRun p e.x o).heal s p e.x
        (∀ q, (t.pt q).am = ((s.accumulate p e.x o (s.outputs p o)).pt q).am ∧
          (t.pt q).occupied = ((s.accumulate p e.x o (s.outputs p o)).pt q).occupied ∧ (t.pt q).store = (s.pt q).store) ∧
        ∀ q ∈ (t.lt l).queue, q.id = e.id → q.st = .inRun (some ⟨d.status, d.count0, d.count1, d.rejected, d.oor⟩)) ∧
        (t.lt l).run = (s.lt l).run ∧ (t.lt l).queue.length = (s.lt l).queue.length ∧ t.mem = s.mem ∧ t.objs = s.objs) ∧
    (∀ (e : QEntry) (c : Instr) (op : Nat) (st : Status), (c, op) ∈ [(Instr.mma l, opMma), (Instr.smma l, opSmma)] →
      (s.lt l).run = none → s.startable l (fun x => recOpcode x == op) = some (p, e) → s.productEnd l p e = some st →
      ∃ t, exec c s = .next t ∧ Completed l p s.freeCycles e (Done.only s.useFree st) t) ∧
    (∀ ms : List (QEntry × ArrayDone), (s.lt l).runDone = some ms →
      ∃ t, exec (.runComplete l n) s = .next t ∧
        (∃ u, RunCompleted l p n ms s u ∧ t = u.setLt l { u.lt l with run := (u.lt l).staged, staged := none }) ∧
        (∀ ids, (s.lt l).run = some ids → ms.map (fun m => m.1) = (s.lt l).queue.filter (fun e => ids.contains e.id)) ∧
        (t.lt l).staged = none ∧
        ((s.lt l).staged = none → (t.lt l).run = none) ∧
        (∀ ids, (s.lt l).staged = some ids → (∀ m ∈ ms, m.1.id ∉ ids) → (t.lt l).run = some ids) ∧
        (∀ q ∈ (t.lt l).queue, ∀ m ∈ ms, q.id ≠ m.1.id) ∧
        (t.lt l).completed = (s.lt l).completed + ms.length ∧ t.mem = s.mem)

/-- A reproducible slot is a binary counter of its leaves. Inserting one leaf into the stack of a reproducible slot
with fewer than 128 leaves, empty or with its first level occupied, adds one to its leaf count, which the
occupied levels above the first spell in binary, and leaves the first level occupied (R191, R192); the leaf
counts of other slots stay as they are. CLEAR's empty stack has no leaf. (from 07_accumulation_and_numerics.md) -/
def Obligations.StackCountsLeaves : Prop :=
  ∀ (t : PhysTile) (p r : Nat) (leaf : List (Option F32)),
    (t.levelOccupied r 0 = true ∨ Tab.read t.occupied 0 r = 0) → t.leaves r < 128 →
    (t.insertLeaf p r leaf).leaves r = t.leaves r + 1 ∧ (t.insertLeaf p r leaf).levelOccupied r 0 = true ∧
      (∀ q, q ≠ r → (t.insertLeaf p r leaf).leaves q = t.leaves q) ∧
      (t.emptyStack r).leaves r = 0 ∧ Tab.read (t.emptyStack r).occupied 0 r = 0

/-- A DRAIN without AUX converts value plus error, and CLEAR empties its slot. A DRAIN of FUNC 0 that nothing holds,
on a slot that exists, into a DST that is not empty and passes its checks: in pair layout DST receives value and
error of each pair side by side, unconverted; otherwise element (n, m) is converted from the exact value plus
error of the pair at row m, column n; with CLEAR the slot then reads as zero pairs, and a
reproducible slot holds no leaf any more; a correctable error that it
meets is corrected (R407). (from 02_tiles_and_commands.md, 07_accumulation_and_numerics.md,
11_optical_fabric.md) -/
def Obligations.DrainPairLayout : Prop :=
  ∀ (l n p : Nat) (mine : Nat → Bool) (eff : State → Nat → Nat → QEntry → Done) (e : QEntry) (s : State),
    RunsUnit (.drainConvert l n) l n mine eff → ReadyAt s l mine p e → recFunc e.x = 0 → s.slotExists e.x = true →
    ((s.desc p (recOp e.x 80)).headOk && (s.desc p (recOp e.x 80)).isEmpty) = false →
    s.drainFault p e.x (s.desc p (recOp e.x 80)) = none →
    ∃ t, exec (.drainConvert l n) s = .next t ∧
      let d := s.desc p (recOp e.x 80)
      let slot := s.slotValue p (drainSlot e.x)
      (d.isPairForm = true →
        let w := s.writeCodes p d ((slot.take (64 * d.sz 1)).flatMap (fun q => [q.v.toNat, q.e.toNat]))
        Completed l p n e ((Done.only (if drainClear e.x then w.1.clearSlot p (drainSlot e.x) else w.1) w.2).heal s p e.x) t) ∧
      (d.isPairForm = false →
        let w := s.writeVals l p d (bitsOf e.x 105 104) (bitsOf e.x 107 106) (recOp e.x 160) 0
          ((List.range (d.sz 1)).flatMap (fun m => (List.range (d.sz 0)).map (fun i =>
            (slot.getD (64 * m + i) Pair.zero).sum)))
        let u := w.s.countClass2 l p d.elemType 0
        Completed l p n e (({ Done.only (if drainClear e.x then u.clearSlot p (drainSlot e.x) else u) w.status with
          count1 := w.sats } : Done).heal s p e.x) t)

/-- Regrowth never breaks a quire and never exceeds its share. The walk of TIPIN over any candidates of its quires
(R144) answers the positions it regrew: each is a candidate whose bit was clear and is set; no other bit of the metadata
changes, so that as many bits differ as positions are regrown,
    and these are at most its share. It leaves every quire that kept LIMIT per row
and column before the walk within LIMIT after it. (from 05_masks_trim_and_tipin.md) -/
def Obligations.RegrowKeepsLimits : Prop :=
  ∀ (limit share : Nat) (cs : List Candidate) (md : Array Nat), (∀ c ∈ cs, c.bit < 16 ∧ c.quire < md.size) →
    (regrow limit share cs md []).2.length ≤ share ∧ (regrow limit share cs md []).1.size = md.size ∧
    (∀ c ∈ (regrow limit share cs md []).2, c ∈ cs ∧ bitAt (md.getD c.quire 0) c.bit = false ∧
      bitAt ((regrow limit share cs md []).1.getD c.quire 0) c.bit = true) ∧
    ((List.range md.size).flatMap (fun q => (List.range 16).filter (fun b =>
      bitAt (md.getD q 0) b != bitAt ((regrow limit share cs md []).1.getD q 0) b))).length =
        (regrow limit share cs md []).2.length ∧
    ∀ q, q < md.size →
      (∀ b, bitAt (md.getD q 0) b = true → bitAt ((regrow limit share cs md []).1.getD q 0) b = true) ∧
      ((∀ r, r < 4 → ((List.range 4).filter (fun c => bitAt (md.getD q 0) (4 * r + c))).length ≤ limit) →
        ∀ r, r < 4 →
          ((List.range 4).filter (fun c => bitAt ((regrow limit share cs md []).1.getD q 0) (4 * r + c))).length ≤ limit) ∧
      ((∀ c, c < 4 → ((List.range 4).filter (fun r => bitAt (md.getD q 0) (4 * r + c))).length ≤ limit) →
        ∀ c, c < 4 →
          ((List.range 4).filter (fun r => bitAt ((regrow limit share cs md []).1.getD q 0) (4 * r + c))).length ≤ limit)

/-- SELECT never grants more than CAPACITY choices to an expert. Over both passes of SELECT (R235) every assigned
choice takes a slot below CAPACITY, no two assigned choices of one expert take the same slot, and a token whose
choice finds its expert full gets state 1. (from 09_expert_routing_and_skipping.md) -/
def Obligations.CapacityHolds : Prop :=
  ∀ (capacity count : Nat) (ts : List Token), (∀ t ∈ ts, ∀ e, (t.first = some e ∨ t.second = some e) → e < count) →
    let cs := (assignTokens capacity count ts).map (fun a => a.c1) ++ (assignTokens capacity count ts).map (fun a => a.c2)
    (∀ c ∈ cs, c.state ≤ 2 ∧ (c.state = 0 → c.slot < capacity)) ∧
      ((cs.filter (fun c => c.state == 0)).map (fun c => (c.expert, c.slot))).Nodup ∧
      (∀ e, (cs.filter (fun c => c.state == 0 && c.expert == e)).length ≤ capacity) ∧
      (∀ a ∈ assignTokens capacity count ts, (a.token.first = none ↔ a.c1.state = 2) ∧ (a.token.second = none ↔ a.c2.state = 2))

/-- A draw is the mix of its coordinates, of two different words of the table. For every SEED, stream, step and
element the draw is T[a] xor T[b] rotated left by rho, where T[i] mixes SEED + (i + 1) × 0x9E3779B97F4A7C15, h
mixes the coordinates, and a, b and rho are the fields of h as R217 gives them: a and b are different words of
the 8,192. RLOW, RSEL, RAW, U2 and U1 are bits 15:0, 31:16, 31:0, 39:16 and 63:40 of the draw (R213, R217,
R218). (from 08_random_bits.md) -/
def Obligations.DrawUsesTwoWords : Prop :=
  ∀ (seed : BitVec 64) (stream step elem : Nat),
    let half := fun (x : BitVec 64) => (x ^^^ (x >>> 32)) * (0xD6E8FEB86659FD93 : BitVec 64)
    let mixed := fun (x : BitVec 64) => half (half x) ^^^ (half (half x) >>> 32)
    let T := fun (i : Nat) => mixed (seed + BitVec.ofNat 64 (i + 1) * (0x9E3779B97F4A7C15 : BitVec 64))
    let h := mixed (mixed (seed ^^^ (BitVec.ofNat 64 stream <<< 32) ^^^ BitVec.ofNat 64 step) ^^^ BitVec.ofNat 64 elem)
    let a := (h.extractLsb' 0 13).toNat
    let b := (a + 1 + (h.extractLsb' 13 13).toNat % 8191) % 8192
    let d := draw seed stream step elem
    drawIndices seed stream step elem = (a, b) ∧ a < 8192 ∧ b < 8192 ∧ a ≠ b ∧
      d = (T a ^^^ (T b).rotateLeft (h.extractLsb' 26 6).toNat).toNat ∧
      drawRlow d = d % 2 ^ 16 ∧ drawRsel d = d / 2 ^ 16 % 2 ^ 16 ∧ drawRaw d = d % 2 ^ 32 ∧
      drawU2 d = d / 2 ^ 16 % 2 ^ 24 ∧ drawU1 d = d / 2 ^ 40

/-- Signals, waits and the additions of a hub. RANDOM_TABLE_FILL_DONE on a tile that fills leaves the table of the
active reel's SEED. SN_FLAG_ADD takes the oldest addition for its die from the queue; where no WAIT of the tile is
pending the addition is in the flag. WAIT, when nothing holds it, completes with ZERO_WORK for THRESHOLD 0, with
OUT_OF_RANGE for a FLAG above 1,023, with OK where a replay finds its threshold consumed, with ISOLATED
where the wrapper of its hub is closed (R375, log 175), with OK where the counter
has reached THRESHOLD, which CONSUME takes from it, and with WAIT_TIMEOUT where it may not wait; else it stays in
the queue as issued and changes nothing else. WAIT_TIMEOUT completes a pending WAIT whose TIMEOUT has passed with
WAIT_TIMEOUT. (from 08_random_bits.md, 10_memory_networks_and_arbiters.md, 02_tiles_and_commands.md) -/
def Obligations.SyncCommands : Prop :=
  ∀ (l n p : Nat) (e : QEntry) (s : State),
    ((s.pt p).filling = true → ∃ t, exec (.randomTableFillDone p) s = .next t ∧
      (t.pt p).filling = false ∧ (t.pt p).tableFill = .filled s.seed ∧ (t.pt p).parityErrors = [] ∧
      (∀ i, t.table p i = tableWord s.seed i) ∧ (∀ q, q ≠ p → t.pt q = s.pt q) ∧ t.tiles = s.tiles ∧ t.mem = s.mem) ∧
    (∀ i a, s.mem.snQueue.findIdx? (fun q => s.hubOf q.1 == some n) = some i → s.mem.snQueue[i]? = some a →
      (∀ q ∈ (s.lt a.1).queue, recOpcode q.x = opWait → q.st ≠ .issued) →
      ∃ t, exec (.snFlagAdd n) s = .next t ∧ t.mem = { s.mem with snQueue := s.mem.snQueue.eraseIdx i } ∧
        (t.lt a.1).flag a.2.1 = ((s.lt a.1).flag a.2.1 + a.2.2) % 2 ^ 32 ∧
        (∀ f, f ≠ a.2.1 → (t.lt a.1).flag f = (s.lt a.1).flag f) ∧ (∀ k, k ≠ a.1 → t.lt k = s.lt k) ∧
        t.phys = s.phys ∧ t.objs = s.objs) ∧
    (s.startable l isWait = some (p, e) → s.preStatus l e = none →
      ∃ t, exec (.wait l n) s = .next t ∧
        (if waitThreshold e.x = 0 then Completed l p n e (Done.only s .zeroWork) t
        else if 1024 ≤ sigFlag e.x then Completed l p n e (Done.only s .outOfRange) t
        else if waitConsumed e = true then Completed l p n e (Done.only s .ok) t
        else if s.hubDown l = true then Completed l p n e (Done.only s .isolated) t
        else if waitThreshold e.x ≤ (s.lt l).flag (sigFlag e.x) then
          ∃ u, Completed l p n e (Done.only u .ok) t ∧ u.mem = s.mem ∧ (u.lt l).queue = (s.lt l).queue ∧
            (t.lt l).flag (sigFlag e.x) = (if waitConsume e.x = true
              then ((s.lt l).flag (sigFlag e.x) - waitThreshold e.x) % 2 ^ 32 else (s.lt l).flag (sigFlag e.x))
        else if waitTimeoutOf e.x = 0 then Completed l p n e (Done.only s .waitTimeout) t
        else (t.lt l).flags = (s.lt l).flags ∧ t.mem = s.mem ∧ t.objs = s.objs ∧
          (t.lt l).queue.map (fun q => q.id) = (s.lt l).queue.map (fun q => q.id) ∧
          ∀ q ∈ (t.lt l).queue, q.id = e.id → q.st = .issued)) ∧
    ((s.lt l).phys = some p → (s.lt l).timedOut n = some e →
      ∃ t, exec (.waitTimeout l n) s = .next t ∧ Completed l p n e (Done.only s .waitTimeout) t)

/-- The queue fills in stream order, and a replay starts at its restart mark. STREAM_FETCH keeps the entries that
stand in the queue ahead of those it adds, and never fills it beyond 64; with no place, a replay pending, no tile
behind it or a tile that does not work, it changes nothing. On a tile that works with room and no replay pending it
queues the next command to repeat, or else the next record of the first started stream, as the reel image holds
it. REPLAY_IN_PLACE of a tile with every running command completed, a WAIT too, and no remote operation open,
empties its queue and makes the commands from the restart mark on the next to be fetched, none of them done again yet
(R57, R61, R409).
(from 02_tiles_and_commands.md, 17_faults_violations_and_recovery.md) -/
def Obligations.QueueFillsInOrder : Prop :=
  ∀ (l m p : Nat) (s : State),
    (∃ t, exec (.streamFetch l) s = .next t ∧
      (∃ more, (t.lt l).queue = (s.lt l).queue ++ more) ∧
      ((s.lt l).queue.length ≤ 64 → (t.lt l).queue.length ≤ 64) ∧
      ((64 ≤ (s.lt l).queue.length ∨ (s.lt l).phys = none ∨ (s.lt l).replayPending.isSome = true ∨
        (∀ q, (s.lt l).phys = some q → s.tileWorks q = false)) → t = s)) ∧
    ((s.lt l).queue.length < 64 → (s.lt l).phys = some p → s.tileWorks p = true → (s.lt l).replayPending = none →
      (∀ h hs, (s.lt l).replays = h :: hs → ∃ t e more, exec (.streamFetch l) s = .next t ∧
        (t.lt l).queue = (s.lt l).queue ++ e :: more ∧ e.record = h.record ∧ e.st = .queued) ∧
      (∀ x xs r, (s.lt l).replays = [] → (s.lt l).streams = x :: xs → s.reels.active = some r → x.next < x.count →
        ∃ t e more, exec (.streamFetch l) s = .next t ∧ (t.lt l).queue = (s.lt l).queue ++ e :: more ∧
          e.record = s.streamRecord r l x.phase x.next ∧ e.isReplay = false ∧ e.st = .queued)) ∧
    ((s.lt l).replayPending = some m → (s.lt l).ops = [] →
      (s.lt l).queue.all (fun e => e.st == .queued) = true →
      ∃ t, exec (.replayInPlace l) s = .next t ∧ (t.lt l).queue = [] ∧ (t.lt l).replayPending = none ∧
        (t.lt l).replays = ((s.lt l).full.drop m).map (fun h => { h with done := false }) ∧ (t.lt l).hist = (s.lt l).full.take m ∧
        (t.lt l).flags = (s.lt l).flags ∧ (t.lt l).ring = (s.lt l).ring ∧ t.phys = s.phys ∧ t.mem = s.mem)

/-- A remote operation that its source refuses sends nothing. PUT, PUT_WITH_SIGNAL, GET, ACC, REMOTE_SIGNAL,
REMOTE_FENCE and ROUTE DISPATCH, when nothing holds the next of their kind and the fabric port can take it,
complete at once with the status of their plan where it has one (no work, a failed check of an operand, of R231
and R246, or of R291 at the source); no packet leaves and no operation is issued. A correctable error that the
command meets is corrected, and its status is then no better than ECC_RECOVERED (R13, R407). Without such a status they
issue the operations of their plan behind those already issued, the entry stays in the queue as issued, and the
fabric port goes to work. (from 11_optical_fabric.md, 02_tiles_and_commands.md) -/
def Obligations.RemoteRefusedAtSource : Prop :=
  ∀ (c : Instr) (l n p : Nat) (mine : Nat → Bool) (plan : State → Nat → Nat → QEntry → RemotePlan) (e : QEntry) (s : State),
    RunsPort c l n mine plan → ReadyAt s l mine p e → (s.lt l).portOpen = true →
    let r := (plan s l p e).heal s p e.x
    (∀ st, r.done = some st →
      ∃ t, exec c s = .next t ∧ Completed l p n e (Done.only r.s st) t ∧ t.fabric = s.fabric ∧
        (t.lt l).ops = (s.lt l).ops) ∧
    (r.done = none →
      ∃ u : State, exec c s = .next (u.portWork l (some (e.id, n))) ∧
        (u.lt l).ops = (r.s.lt l).ops ++ r.ops.map (fun o => r.s.newOp l e o) ∧
        (u.lt l).queue.map (fun q => q.id) = (r.s.lt l).queue.map (fun q => q.id) ∧
        (∀ q ∈ (u.lt l).queue, q.id = e.id → q.st = .issued) ∧
        (∀ k, k ≠ l → u.lt k = r.s.lt k) ∧ u.mem = r.s.mem ∧
        u.phys = r.s.phys ∧ u.fabric = s.fabric)

/-- Silence, cues, the dailies switch and the placement of a reel. ADV_SILENCE, when the silence has lasted
ADV_SILENCE_PERIODS × P, is noted once, raises source 0x062 and changes nothing else of the line. CUE_FIRE while a
take is open leaves armed only cues whose POSITION lies above the line position, and none that was not armed; a
PREFETCH or SET_FLAG cue that alone is due sends 1 to its flag on each tile of its range whose hub is in service, and
a START_PHASE cue that alone is due starts its stream there at offset ARGUMENT / 64 (that ARGUMENT counts bytes is the
model's choice, log 87). DAILIES_SWITCH shows the oldest frozen set as a whole: every object of
the set reads the frozen value, or its default where the set has none; within a mailbox request that has read
something it waits. REEL_PLACEMENT with no work of the earlier
reel left and enough tiles makes the reel active at TB_COUNT, which is not 0 (R168), with each logical tile on its
tile of the placement, its queue, ring and flags empty; with too few tiles the active reel stays and the new one is
staged again unless a newer one is. (from 01_takes_slates_and_line_position.md, 02_tiles_and_commands.md,
06_backward_pass_and_update.md) -/
def Obligations.LineCommands : Prop :=
  ∀ (s : State) (dt : Nat),
    ((s.advance dt).silent = true → ∃ t, exec (.advSilence dt) s = .next t ∧
      t.time = { (s.advance dt).time with silenceRaised := true } ∧ (s.inReset = false → t.srcPending 0x062 = true) ∧
      t.take = s.take ∧ t.tiles = s.tiles ∧ t.mem = s.mem) ∧
    ((s.advance dt).takeOpen = true → ∃ t, exec (.cueFire dt) s = .next t ∧
      ∀ a ∈ t.take.cues, a ∈ s.take.cues ∧ (s.advance dt).position < cuePosition a.entry) ∧
    (∀ (a : ArmedCue) (r : Reel) (j : Nat), (s.advance dt).takeOpen = true →
      (s.advance dt).dueCues (s.advance dt).time.tb = [a] → a.ofNewReel = false → s.cueStatus a.entry = .ok →
      ∃ t, exec (.cueFire dt) s = .next t ∧ t.take.cues = s.take.cues.filter (fun b => b.order != a.order) ∧
        (cueAction a.entry = 2 ∨ cueAction a.entry = 3 → t.tiles = s.tiles ∧ t.mem.snQueue = s.mem.snQueue ++
          ((List.range (cueCount a.entry)).map (fun i => (cueFirst a.entry + i, cueArgument a.entry, 1))).filter
            (fun x => !(s.hubDown x.1))) ∧
        (cueAction a.entry = 1 → s.reels.active = some r → r.phaseIndex (cuePhase a.entry) = some j →
          t.mem = s.mem ∧ ∀ i, i < cueCount a.entry →
            (t.lt (cueFirst a.entry + i)).streams = (s.lt (cueFirst a.entry + i)).streams ++
              [{ phase := j, next := cueArgument a.entry / 64, count := (r.stream (cueFirst a.entry + i) j).2 }])) ∧
    (s.withinRequest = true → exec (.dailiesSwitch dt) s = .next (s.advance dt)) ∧
    (∀ (set : Tab Nat) (rest : List (Tab Nat)), s.withinRequest = false → s.dailies = set :: rest → Tab.wf set = true →
      (∀ x ∈ set, dailiesKey x.1 = true) →
      ∃ t, exec (.dailiesSwitch dt) s = .next t ∧ t.dailies = rest ∧
        (∀ k, dailiesKey k = true → t.obj k = Tab.read set (objDefault k) k) ∧
        t.obj Obj.dailiesGeneration = (s.obj Obj.dailiesGeneration + 1) % 2 ^ 32 ∧
        t.take = s.take ∧ t.tiles = s.tiles ∧ t.mem = s.mem) ∧
    (∀ r : Reel, (s.advance dt).fireDue.reels.activating = some r → (s.advance dt).fireDue.reelDone = true →
      (s.advance dt).time.tb ≠ 0 →
      ∃ t, exec (.reelPlacement dt) s = .next t ∧ t.reels.activating = none ∧
        (if (s.advance dt).fireDue.enabledTiles < r.tileBudget then
          t.reels.active = s.reels.active ∧ t.reels.staged = (if s.reels.staged.isSome then s.reels.staged else some r)
        else
          t.reels.active = some r ∧ t.reels.activatedTb = (s.advance dt).time.tb ∧
            ∀ l, l < r.tileBudget → (t.lt l).phys = ((s.advance dt).fireDue.placement r)[l]? ∧ (t.lt l).queue = [] ∧
              (t.lt l).ring = [] ∧ (t.lt l).writeIndex = 0 ∧ (t.lt l).flags = [] ∧ (t.lt l).stepCtr = 0))

/-- TB_COUNT follows distributed clocks, and process data reach objects only in OP. SYNC0 of a released controller
with the timebase running disciplines TB_COUNT: a difference of at most 36,000 counts from the DC value, 3.6
counts per nanosecond (cut to whole counts, which is the model's choice, log 143), is left to be slewed; a larger
one sets TB_COUNT to it and counts in TB_STEPS. SYNC0_ABSENCE ends the discipline. PROCESS_DATA_UPDATE of the
assigned length replaces the SM2 buffer and makes it valid in SAFEOP and OP; in SAFEOP no object changes (log 70),
    in OP the mapped
objects take the values and the update is waiting for the next latch; with SM-synchronous inputs the input image is
latched from the objects as they then stand (log 131); takes, tiles and memories stay. A read of SM3 in SAFEOP and OP
always gets the newest complete input image, once there is one (R331). (from
01_takes_slates_and_line_position.md, 13_object_dictionary_and_retained_state.md) -/
def Obligations.SyncAndProcessData : Prop :=
  ∀ (s : State) (dt dcTime : Nat) (data : List Byte),
    (s.ecat.released = true → (s.advance dt).time.running = true → ∃ t, exec (.sync0 dt dcTime) s = .next t ∧
      t.time.dcActive = true ∧
      (if (((dcTime * 18 / 5 : Nat) : Int) - ((s.advance dt).time.tb : Int)).natAbs ≤ 36000 then
        t.time.tb = (s.advance dt).time.tb ∧
          t.time.slewLeft = ((dcTime * 18 / 5 : Nat) : Int) - ((s.advance dt).time.tb : Int) ∧
          t.obj Obj.tbSteps = s.obj Obj.tbSteps
      else t.time.tb = dcTime * 18 / 5 % 2 ^ 64 ∧ t.time.slewLeft = 0 ∧
        t.obj Obj.tbSteps = (s.obj Obj.tbSteps + 1) % 2 ^ 32)) ∧
    (∃ t, exec (.sync0Absence dt) s = .next t ∧
      t.time = { (s.advance dt).time with dcActive := false, slewLeft := 0 } ∧ t.objs = s.objs ∧ t.take = s.take) ∧
    (s.ecat.released = true → data.length = s.assignedBytes 0x1C12 → (s.ecat.al = alSafeop ∨ s.ecat.al = alOp) →
      ∃ t, exec (.processDataUpdate dt data) s = .next t ∧ t.ecat = { (s.advance dt).ecat with
          sm2Valid := true, rxBuffer := data,
          txImage := if t.obj inputSyncMode = 1 then t.inputImage else (s.advance dt).ecat.txImage } ∧
        (s.ecat.al = alSafeop → t.objs = s.objs ∧ t.time = (s.advance dt).time) ∧
        (s.ecat.al = alOp → t.time.plantWritten = true ∧ t.objs = (s.writeMapped s.rxEntries data).objs) ∧
        t.take = s.take ∧ t.tiles = s.tiles ∧ t.phys = s.phys ∧ t.mem = s.mem) ∧
    (s.ecat.released = true → s.ecat.txImage ≠ [] → (s.ecat.al = alSafeop ∨ s.ecat.al = alOp) →
      ∃ t, exec (.registerWrite .inputsRead) s = .next t ∧ t.out = s.out ++ [.processInputs s.ecat.txImage] ∧
        t.ecat = s.ecat ∧ t.objs = s.objs)

/-- The EtherCAT state machine. A released controller in the state a request starts from enters the requested state
with AL status 0 and SM2 invalid when its check passes, and otherwise stays with the AL status code of the
failed check: INIT to PREOP (0x0011 before the restore, 0x0016 for a mailbox other than 1,024 bytes at 0x1000 and
at 0x1400), PREOP to SAFEOP (0x001D and 0x001E for a length other than the assigned
one, and for an SM2 not at 0x1800, an SM3 not at 0x1C00 or a mode other than three-buffer where they carry anything,
which is the model's choice of code, log 185; 0x0030, 0x0035), SAFEOP to OP (0x0019 without valid outputs), INIT to
BOOT (0x0011 while a take is open or TAKE_CONTROL is RUN). A fall goes to any lower state; any other request is
refused with 0x0011. SYNC_ERROR and SM2_WATCHDOG take OP to SAFEOP with 0x002C and 0x001B. (from
13_object_dictionary_and_retained_state.md) -/
def Obligations.AlTransitions : Prop :=
  ∀ (s : State) (m : MailboxCfg) (c : CycleCfg) (sm2 sm3 target dt : Nat), s.ecat.released = true →
    (∀ q ∈ [(Instr.initToPreop m, alInit, alPreop,
          if s.obj Obj.journalState = 0 then 0x0011
          else if m.sm0 = 0x1000 ∧ m.sm0Len = 1024 ∧ m.sm1 = 0x1400 ∧ m.sm1Len = 1024 then 0 else 0x0016),
        (Instr.preopToSafeop sm2 sm3 c, alPreop, alSafeop,
          if sm2 ≠ s.assignedBytes 0x1C12 ∨ (sm2 ≠ 0 ∧ (c.sm2 ≠ 0x1800 ∨ c.threeBuffer = false)) then 0x001D
          else if sm3 ≠ s.assignedBytes 0x1C13 ∨ (sm3 ≠ 0 ∧ (c.sm3 ≠ 0x1C00 ∨ c.threeBuffer = false)) then 0x001E
          else if 3 < s.obj Obj.syncMode ∨ (s.obj Obj.positionSource = 1 ∧ s.obj Obj.syncMode < 2) then 0x0030
          else if c.sync0Ns < 125000 ∨ 100000000 < c.sync0Ns then 0x0035 else 0),
        (Instr.safeopToOp, alSafeop, alOp, if s.ecat.sm2Valid = true then 0 else 0x0019),
        (Instr.initToBoot, alInit, alBoot,
          if s.obj Obj.takeState = 0 ∧ s.obj Obj.takeControl = 0 then 0 else 0x0011)],
      (s.ecat.al = q.2.1 → q.2.2.2 = 0 → ∃ t, exec q.1 s = .next t ∧
        t.ecat.al = q.2.2.1 ∧ t.ecat.alCode = 0 ∧ t.ecat.alError = false ∧ t.ecat.sm2Valid = false ∧
          t.out.getLast? = some (.alStatus q.2.2.1 0)) ∧
      (s.ecat.al = q.2.1 → q.2.2.2 ≠ 0 → ∃ t, exec q.1 s = .next t ∧
        t.ecat = { s.ecat with alCode := q.2.2.2, alError := true } ∧
          t.out.getLast? = some (.alStatus s.ecat.al q.2.2.2)) ∧
      (s.ecat.al = alInit ∨ s.ecat.al = alPreop → ∃ t, exec q.1 s = .next t ∧
        t.time = s.time ∧ t.take = s.take ∧ t.tiles = s.tiles ∧ t.mem = s.mem)) ∧
    (∃ t, exec (.alStateFall target) s = .next t ∧
      if alLower s.ecat.al target = true then t.ecat.al = target ∧ t.ecat.alCode = 0 ∧ t.ecat.alError = false
      else t.ecat = { s.ecat with alCode := 0x0011, alError := true }) ∧
    (s.ecat.al = alOp → ∃ t, exec (.syncError dt) s = .next t ∧ t.ecat.al = alSafeop ∧ t.ecat.alCode = 0x002C ∧
      t.ecat.alError = true ∧ t.obj 0x1C3220 = 1 ∧ t.obj 0x1C3320 = 1) ∧
    (s.ecat.al = alOp → ∃ t, exec (.sm2Watchdog dt) s = .next t ∧ t.ecat.al = alSafeop ∧ t.ecat.alCode = 0x001B ∧
      t.ecat.alError = true)

/-- File access and SII writes. FOE_WRITE outside INIT and BOOT is answered with error 0x8009; in BOOT a name other
than FIRMWARE with 0x8001, a password other than 0 with 0x8004, and while a write is open with an error (its code
is a free value, log 4); otherwise it is accepted and the other slot reads as erased after the restore. FOE_DATA of
an open write in BOOT that fits in 16 MiB: after the restore data that is programmed is acknowledged, the slot
holds it from the write's offset on, and LAST ends the write; data whose programming fails is answered with 0x800B,
ends the write and leaves the slot erased (the model's choice of how it is invalid, log 71);
data beyond 16 MiB is answered with 0x8003 and ends the write with the slot erased. FOE_READ is answered with 0x8002.
    SII_WRITE of any word but the alias
changes nothing but the event log; of the alias, SII word 4, after the restore,
    it keeps the value among the firmware records under the
key 2:0 (the model's choice of place, log 73).
(from 13_object_dictionary_and_retained_state.md, 16_security_and_boot.md) -/
def Obligations.FoeAndSii : Prop :=
  ∀ (s : State) (name data : List Byte) (password word value : Nat) (last : Bool), s.ecat.released = true →
    (∃ t, exec (.foeWrite name password) s = .next t ∧
      (s.ecat.al = alInit → t = s.wakeBlock .ecatController) ∧
      (s.ecat.al ≠ alInit → s.ecat.al ≠ alBoot → t.out.getLast? = some (.foeError 0x8009) ∧ t.ecat = s.ecat ∧ t.sec = s.sec) ∧
      (s.ecat.al = alBoot → name ≠ foeName → t.out.getLast? = some (.foeError 0x8001) ∧ t.ecat = s.ecat ∧ t.sec = s.sec) ∧
      (s.ecat.al = alBoot → name = foeName → password ≠ 0 →
        t.out.getLast? = some (.foeError 0x8004) ∧ t.ecat = s.ecat ∧ t.sec = s.sec) ∧
      (s.ecat.al = alBoot → name = foeName → password = 0 → s.ecat.foe.isSome = true →
        (∃ code, t.out.getLast? = some (.foeError code)) ∧ t.ecat = s.ecat ∧ t.sec = s.sec)) ∧
    (s.ecat.al = alBoot → name = foeName → password = 0 → s.ecat.foe = none →
      ∃ t, exec (.foeWrite name password) s = .next t ∧ t.out.getLast? = some .foeAck ∧ t.ecat.foe = some 0 ∧
        t.ecat.al = alBoot ∧ (s.foeLive = true → t.sec.slot s.otherSlot = [])) ∧
    (∀ n, s.ecat.foe = some n → s.ecat.al = alBoot → n + data.length ≤ slotBytes → s.foeLive = true →
      (∃ t, exec (.foeData data last true) s = .next t ∧ t.out.getLast? = some .foeAck ∧
        t.ecat.foe = (if last = true then none else some (n + data.length)) ∧
        t.sec.slot s.otherSlot = programSlotBytes (s.sec.slot s.otherSlot) n data) ∧
      (∃ t, exec (.foeData data last false) s = .next t ∧ t.out.getLast? = some (.foeError 0x800B) ∧ t.ecat.foe = none ∧
        t.sec.slot s.otherSlot = [])) ∧
    (∀ n, s.ecat.foe = some n → s.ecat.al = alBoot → slotBytes < n + data.length → ∀ programmed : Bool,
      ∃ t, exec (.foeData data last programmed) s = .next t ∧ t.out.getLast? = some (.foeError 0x8003) ∧ t.ecat.foe = none ∧
        t.ecat.al = alBoot ∧ (s.foeLive = true → t.sec.slot s.otherSlot = [])) ∧
    (s.ecat.al ≠ alInit → ∃ t, exec .foeRead s = .next t ∧ t.out.getLast? = some (.foeError 0x8002) ∧ t.ecat = s.ecat ∧
      t.sec = s.sec) ∧
    (∃ t, exec (.siiWrite word value) s = .next t ∧ t.ecat = s.ecat ∧ t.sec = s.sec ∧
      (word ≠ 4 → t.journal = s.journal ∧ t.obj Obj.takeState = s.obj Obj.takeState)) ∧
    (s.rst.restored = true → ∃ t, exec (.siiWrite 4 value) s = .next t ∧
      Tab.look t.journal.fwRecords (objKey 2 0) = some (value % 2 ^ 16))

/-- Steps, their records and their skip verdicts. STEP_FINAL stamps the record of every step whose own part is
final, and makes the next step final once its own part is and every other group member's record has settled:
FINAL_STEP names it, and a saturated one lowers the running loss scale by 1, at least to its minimum, and
restarts the clean steps. Before, the next final step stays. A group of one changes no object by a step that is
not final. STEP_RECORD_LAPSE settles an overdue record and counts it. SKIP_VERDICT of the next step forms the
verdict once every participating tile is at its first update drain, and counts a skipped step (R199, R202,
R207, R208). (from 06_backward_pass_and_update.md, 07_accumulation_and_numerics.md) -/
def Obligations.StepsBecomeFinal : Prop :=
  ∀ (s : State) (dt rack package : Nat),
    (∃ t, exec .stepFinal s = .next t ∧
      (s.ownFinal s.steps.nextFinal = true → (∀ m ∈ s.groupMembers, s.recordSettled s.steps.nextFinal m = true) →
        t.steps.nextFinal = s.steps.nextFinal + 1 ∧ t.obj Obj.finalStep = s.steps.nextFinal ∧
        (s.verdictSaturated s.steps.nextFinal = true → t.obj Obj.cleanSteps = 0 ∧
          t.obj Obj.lossScale = unsignedOf 8 (max (s.runningScale - 1) (signedOf 8 (s.governs Obj.lossScaleMin))))) ∧
      (s.stepIsFinal s.steps.nextFinal = false → t.steps.nextFinal = s.steps.nextFinal ∧
        (∀ i, s.steps.nextFinal ≤ i → s.ownFinal i = true → (Tab.look t.steps.ownSentTb i).isSome = true) ∧
        (s.groupMembers = [] → t.objs = s.objs)) ∧
      (∀ l, (t.lt l).queue = (s.lt l).queue ∧ (t.lt l).stepCtr = (s.lt l).stepCtr) ∧ t.phys = s.phys ∧ t.mem = s.mem) ∧
    (∀ c, (s.advance dt).groupMembers.contains (64 * rack + package) = true →
      (s.advance dt).overdueStep (64 * rack + package) = some c →
      ∃ t, exec (.stepRecordLapse dt rack package) s = .next t ∧
        t.steps = { s.steps with lapsed := s.steps.lapsed ++ [(64 * rack + package, c)] } ∧
        t.obj Obj.lapsedRecords = (s.obj Obj.lapsedRecords + 1) % 2 ^ 32 ∧ t.tiles = s.tiles ∧ t.mem = s.mem) ∧
    (∀ c, s.verdictStep = some c → s.verdictDue c = true → s.governs Obj.saturationAction = 1 →
      ∃ t, exec .skipVerdict s = .next t ∧ (Tab.look t.steps.skips c).isSome = true ∧
        (s.steps.saturated.contains c = true → Tab.look t.steps.skips c = some 1) ∧
        (s.groupMembers = [] → s.steps.saturated.contains c = false → Tab.look t.steps.skips c = some 0) ∧
        t.obj Obj.skippedSteps =
          (if Tab.look t.steps.skips c = some 1 then (s.obj Obj.skippedSteps + 1) % 2 ^ 32 else s.obj Obj.skippedSteps) ∧
        t.tiles = s.tiles ∧ t.mem = s.mem)

/-- Scrub, lost stacks, failed segments, failed lanes and the arbiters' commit. PATROL_SCRUB of a correctable burst
leaves it clean, every stored byte as it was and one more corrected error counted; an uncorrectable one it records (by
its number, the model's choice of form, log 166);
of any other burst, and in a lost stack, it changes nothing. STACK_LOST marks the stack and no other, once, and
keeps every stored byte. SEGMENT_FAILED marks a segment as failed; when FM fails in a segment that is failed
already, its eight tiles are fenced (that a second report of a segment is the failure of its FM is the model's choice,
log 45). The first BRIDGE_LANE_FAIL of a group and direction uses its spare; the second
closes that direction. In reset none of the three changes anything (the model's choice,
    log 174). ARB_COMMIT_INSTANT at the instant of a commit
puts its values in force and counts it; before it only time passes. (from 10_memory_networks_and_arbiters.md,
15_reset_power_and_self_test.md) -/
def Obligations.MemoryFaults : Prop :=
  ∀ (s : State) (b i d c g dir dt : Nat),
    (b < s.part.variant.hbmEnd / 32 →
      (s.burstState b = 1 → ∃ t, exec (.patrolScrub b) s = .next t ∧ t.burstState b = 0 ∧
        (∀ a, t.hbmRaw a = s.hbmRaw a) ∧ (∀ q, q ≠ b → t.burstState q = s.burstState q) ∧
        t.take.eccCorrected = s.take.eccCorrected + 1 ∧ t.tiles = s.tiles ∧ t.phys = s.phys) ∧
      (s.burstState b = 2 → s.stackIsLost (hbmStack s.part.variant (32 * b)) = false →
        exec (.patrolScrub b) s =
          .next { s with mem := { s.mem with patrolFound := insertOnce s.mem.patrolFound b } })) ∧
    (s.burstState b = 0 ∨ 2 < s.burstState b ∨ s.part.variant.hbmEnd / 32 ≤ b ∨
      s.stackIsLost (hbmStack s.part.variant (32 * b)) = true → exec (.patrolScrub b) s = .next s) ∧
    (if s.inReset = true ∨ s.part.variant.stacks ≤ i ∨ s.stackIsLost i = true then exec (.stackLost i) s = .next s
      else ∃ t, exec (.stackLost i) s = .next t ∧ t.stackIsLost i = true ∧
        (∀ j, j ≠ i → t.stackIsLost j = s.stackIsLost j) ∧ t.mem = s.mem ∧ t.tiles = s.tiles ∧
        t.obj Obj.duplexDegraded = if s.obj Obj.duplexSize = 0 then 0 else 1) ∧
    (s.inReset = false → d < s.part.variant.dies → c < 12 → ∃ t, exec (.segmentFailed d c) s = .next t ∧
        t.mem.failedSegments = insertOnce s.mem.failedSegments (12 * d + c) ∧
        (12 * d + c ∈ s.mem.failedSegments → ∀ r, r < 8 → (t.pt (96 * d + 12 * r + c)).fenced = true)) ∧
    (if s.inReset = true ∨ s.part.variant.hasBridge = false ∨ 8 ≤ g ∨ 2 ≤ dir ∨
        s.mem.closedGroups.contains (2 * g + dir) = true then exec (.bridgeLaneFail g dir) s = .next s
      else ∃ t, exec (.bridgeLaneFail g dir) s = .next t ∧
        (s.mem.sparedLanes.contains (2 * g + dir) = false →
          t.mem = { s.mem with sparedLanes := s.mem.sparedLanes ++ [2 * g + dir] } ∧ t.objs = s.objs) ∧
        (s.mem.sparedLanes.contains (2 * g + dir) = true →
          t.mem = { s.mem with closedGroups := s.mem.closedGroups ++ [2 * g + dir] })) ∧
    (∀ n, s.mem.commitAt = some n → ∃ t, exec (.arbCommitInstant dt) s = .next t ∧
      (n ≤ (s.advance dt).time.tb →
        t.mem = { s.mem with commitAt := none, commitValues := [] } ∧ t.obj Obj.commitPending = 0 ∧
          ∀ f : Nat → Nat, s.mem.commitValues = shadowKeys.map (fun k => (k, f k)) →
            t.obj Obj.commitCount = (s.obj Obj.commitCount + 1) % 2 ^ 32 ∧ ∀ k ∈ shadowKeys, t.obj (forceKey k) = f k) ∧
      ((s.advance dt).time.tb < n → t = s.advance dt))

/-- A fenced tile hands its logical number to a reserve tile. BLOCK_FENCE and CN_REQUEST_TIMEOUT of a tile that is
not fenced, and SEQUENCER_STALL of one with queued work, fence it; a second fence makes it unusable. With no
remote operation of its logical tile under way, the logical tile moves to the lowest-numbered reserve tile of
the same die, or of the other die where the first has none; with no reserve tile left it has no place (R57,
R374, R375, R412). (from 02_tiles_and_commands.md, 17_faults_violations_and_recovery.md) -/
def Obligations.TileFence : Prop :=
  ∀ (s : State) (dt p l : Nat) (c : Instr) (a : State),
    ((c = .blockFence (.tile p) ∧ a = s) ∨ (c = .cnRequestTimeout dt (.tile p) ∧ a = s.advance dt) ∨
      (c = .sequencerStall dt p ∧ a = s.advance dt ∧ (s.lt l).queue ≠ [])) →
    s.inReset = false → s.logicalOf p = some l → (s.lt l).phys = some p → p < s.part.variant.tiles →
    (s.pt p).fenced = false →
    ∃ t, exec c s = .next t ∧ (t.pt p).fenced = true ∧ (t.pt p).fences = (s.pt p).fences + 1 ∧
      (1 ≤ (s.pt p).fences → (t.pt p).unusable = true) ∧
      (l < a.budget → (s.lt l).ops = [] →
        (t.lt l).phys = match a.reserve.find? (fun q => tileDie q == tileDie p) with
          | some q => some q
          | none => a.reserve.head?)

/-- Fences of other blocks, and the local self-test. BLOCK_FENCE of a fitted block that is no tile and no core puts it
among the fenced ones; a second fence since the last reset makes it unusable. A fenced stack answers ISOLATED, or
is declared lost once unusable; a segment is failed, a lane group closed in both directions and a port down (what the
fence of each of these does is the model's reading, log 46); the host link and the EtherCAT controller are gone, which
is the model's choice (log 175). Fencing a fenced block does nothing but let remote operations go on.
BLOCK_SELF_TEST_DONE returns a fenced tile, or another fenced block, that passes and is not unusable; a tile that
returns takes the first logical tile without a place if no other reserve tile is left; one that fails becomes
unusable. A fenced core that passes is ready as a spare, one that fails is unusable. (from
17_faults_violations_and_recovery.md, 15_reset_power_and_self_test.md) -/
def Obligations.BlockFences : Prop :=
  ∀ (s : State) (b : Block) (p k : Nat) (passed : Bool),
    (s.inReset = false → s.blockFitted b = true → s.rst.fencedBlocks.contains b = false → (∀ q, b ≠ .tile q) →
      (∀ q, b ≠ .core q) →
      ∃ t, exec (.blockFence b) s = .next t ∧ b ∈ t.rst.fencedBlocks ∧
        (Tab.read s.rst.laneFences 0 (blockKey b) ≠ 0 → b ∈ t.rst.unusableBlocks) ∧
        (∀ i, b = .stack i → t.stackIsLost i = (s.stackIsLost i || t.rst.unusableBlocks.contains b) ∧
          (t.stackIsLost i = false → ∀ q, hbmStack t.part.variant (32 * q) = i → t.burstState q = 3)) ∧
        (∀ d c, b = .segment d c → t.mem.failedSegments.contains (12 * d + c) = true) ∧
        (∀ g, b = .laneGroup g → t.mem.closedGroups.contains (2 * g) = true ∧
          t.mem.closedGroups.contains (2 * g + 1) = true) ∧
        (∀ n, b = .port n → (t.port n).state = portDownState) ∧
        (b = .hostPort → t.linkAlive = false) ∧ (b = .ecatController → t.ecat = EcatSt.reset)) ∧
    (s.rst.fencedBlocks.contains b = true → (∀ q, b ≠ .tile q) → (∀ q, b ≠ .core q) →
      exec (.blockFence b) s = .next s.settle ∧
      (s.rst.unusableBlocks.contains b = false → ∃ t, exec (.blockSelfTestDone b passed) s = .next t ∧
        (passed = true → t.rst.fencedBlocks = s.rst.fencedBlocks.erase b ∧ t.rst.unusableBlocks = s.rst.unusableBlocks) ∧
        (passed = false → t.rst.fencedBlocks = s.rst.fencedBlocks ∧ b ∈ t.rst.unusableBlocks))) ∧
    ((s.pt p).fenced = true → (s.pt p).unusable = false →
      ∃ t, exec (.blockSelfTestDone (.tile p) passed) s = .next t ∧
        (passed = true → (t.pt p).fenced = false ∧ (s.pt p).epoch < (t.pt p).epoch ∧
          (∀ l, (List.range s.budget).find? s.needsPlace = some l → s.reserve = [] → p < s.part.variant.tiles →
            s.rst.bistInForce.failedTiles.contains p = false → s.logicalOf p = none → (t.lt l).phys = some p)) ∧
        (passed = false → (t.pt p).fenced = true ∧ (t.pt p).unusable = true)) ∧
    ((s.core k).condition = 1 → ∃ t, exec (.blockSelfTestDone (.core k) passed) s = .next t ∧
      (t.core k).condition = (if passed = true then 0 else 2) ∧ (t.core k).roles = (s.core k).roles ∧
      (t.core k).fences = (s.core k).fences ∧
      ∀ q, q ≠ k → (t.core q).condition = (s.core q).condition ∧ (t.core q).roles = (s.core q).roles)

/-- The roles of a failed core move to a healthy one. CORE_WATCHDOG_EXPIRY of a healthy core that is not halted, and
CORE_UNCORRECTABLE_ERROR of a healthy core, while firmware runs, fence it (a second time for good): its stack is
discarded, it runs no role, and its roles, the fault manager first, move to the lowest-numbered healthy core
without a role, or to the lowest-numbered healthy core, behind those that core holds; its sources name that core;
no other core's roles change. The watchdog of a halted core is suspended. DEVICE_WATCHDOG_EXPIRY with no healthy
and no halted core resets the part with the watchdog cause; otherwise only time passes (R348, R349, R351, R357,
R405). (from 14_control_complex_and_interrupts.md, 15_reset_power_and_self_test.md, 16_security_and_boot.md) -/
def Obligations.CoreMigration : Prop :=
  ∀ (s : State) (k dt : Nat),
    (s.rst.fwRunning = true → s.coreHealthy k = true →
      ∀ c, c = Instr.coreUncorrectableError k ∨ (c = Instr.coreWatchdogExpiry k ∧ (s.core k).halted = false) →
      ∃ t, exec c s = .next t ∧ (t.core k).stack = [] ∧ (t.core k).roles = [] ∧ (t.core k).running = 0 ∧
        (t.core k).condition = (if (s.core k).fences = 0 then 1 else 2) ∧ (t.core k).fences = (s.core k).fences + 1 ∧
        (let others := (List.range 8).filter (fun q => q != k && s.coreHealthy q)
        let target := match others.find? (fun q => (s.core q).roles.isEmpty) with
          | some q => some q
          | none => others.head?
        (∀ r, target = some r → (t.core r).roles = (s.core r).roles ++
              ((s.core k).roles.filter (fun x => x == 6) ++ (s.core k).roles.filter (fun x => x != 6)) ∧
            ∀ src, src < 512 → t.srcTargets src k = false ∧ (s.srcTargets src k = true → t.srcTargets src r = true)) ∧
          ∀ q, q ≠ k → target ≠ some q → (t.core q).roles = (s.core q).roles)) ∧
    ((s.core k).halted = true → exec (.coreWatchdogExpiry k) s = .next s) ∧
    (s.rst.asserted = 0 → ∃ t, exec (.deviceWatchdogExpiry dt) s = .next t ∧
      (if s.rst.fwRunning = true ∧ s.healthyCores = [] ∧ s.anyHalted = false then
        t.rst.causeHistory = s.rst.causeHistory ||| causeWatchdog ∧ t.rst.lastCauses &&& causeWatchdog = causeWatchdog ∧
          t.rst.fwRunning = false ∧ t.tiles = []
      else t = s.advance dt))

/-- A raise, its release, its clear and its end. RAISE of a source that R418 lists, out of reset, sets its bit in PEND and
in HOST_EVENTS and adds one to its group's count, which a due release takes back to 0 while RELEASES rises by one, and
logs the source under its number, but for one of G14, which is the log's own; no source but those of the log is raised
with it. A source that R418 does not list, and any source in reset, is not raised. COALESCE_TIME_RELEASE releases a due group
and otherwise lets time pass. PEND_CLEAR clears the bits written 1 and no others, HOST_EVENTS staying. MSIX_UNMASK
of a pending vector, while messages may go out, sends it and clears its pending bit; of the function mask it sends
every pending unmasked vector (R306, R321, R352, R353, R359, R418). EOI of a core with a nonempty stack pops it and
RUNNING takes the popped value, then the core is interrupted again at once if a pending source that targets it has
a higher PRIORITY. With DEPTH 0 nothing is popped, EOI_UNDERFLOWS rises by one, and a source of G9 is raised (R356,
R357). (from 14_control_complex_and_interrupts.md, 12_host_interface.md) -/
def Obligations.Interrupts : Prop :=
  (∀ (s : State) (src g bits v dt : Nat),
    (sourceListed src = true → s.inReset = false → ∃ t, exec (.raise src) s = .next t ∧ t.srcPending src = true ∧
      bitAt (t.obj (Obj.hostEvents + src / 32)) (src % 32) = true ∧
      (src / 32 ≠ 14 → Logged s t src) ∧
      (∀ q, q ≠ src → q < 512 → (q ≠ 0x1C0 ∧ q ≠ 0x1C1 ∨ src / 32 = 14) → t.srcPending q = s.srcPending q) ∧
      (let n := Tab.read s.intr.counts 0 (src / 32)
      (Tab.read t.intr.counts 0 (src / 32) = n + 1 ∧
          t.obj (Obj.releases + src / 32) = s.obj (Obj.releases + src / 32)) ∨
        (Tab.read t.intr.counts 0 (src / 32) = 0 ∧
          t.obj (Obj.releases + src / 32) = (s.obj (Obj.releases + src / 32) + 1) % 2 ^ 32)) ∧
      t.tiles = s.tiles ∧ t.mem = s.mem ∧ t.time = s.time ∧ t.take = s.take) ∧
    (sourceListed src = false ∨ s.inReset = true → exec (.raise src) s = .next s) ∧
    (g < 16 → ∃ t, exec (.coalesceTimeRelease dt g) s = .next t ∧
      ((s.advance dt).releaseDue g = false → t = s.advance dt) ∧
      ((s.advance dt).releaseDue g = true → Tab.read t.intr.counts 0 g = 0 ∧
        t.obj (Obj.releases + g) = (s.obj (Obj.releases + g) + 1) % 2 ^ 32 ∧
        ((s.advance dt).vectorOpen g = true → t.out = s.out ++ [.msix g]) ∧
        ((s.advance dt).vectorOpen g = false → g ∈ t.host.msixPending ∧ t.out = s.out))) ∧
    (g < 16 → ∃ t, exec (.pendClear g bits) s = .next t ∧
      (∀ i, bitAt (t.pend g) i = (bitAt (s.pend g) i && !(bitAt bits i))) ∧ (∀ q, q ≠ g → t.pend q = s.pend q) ∧
      t.objs = s.objs ∧ t.out = s.out ∧ t.host = s.host) ∧
    (v < 64 → ∃ t, exec (.msixUnmask (.vector v)) s = .next t ∧ v ∈ t.host.unmaskedVectors ∧
      (v ∈ s.host.msixPending → s.host.functionMask = false → s.dmaOpen = true →
        t.out = s.out ++ [.msix v] ∧ v ∉ t.host.msixPending) ∧
      (v ∉ s.host.msixPending → t.out = s.out ∧ t.host.msixPending = s.host.msixPending)) ∧
    (∃ t, exec (.msixUnmask .function) s = .next t ∧ t.host.functionMask = false ∧
      (s.dmaOpen = true → ∀ q, q < 16 → q ∈ s.host.unmaskedVectors → q ∉ t.host.msixPending ∧
        (q ∈ s.host.msixPending → .msix q ∈ t.out)))) ∧
  (∀ (s : State) (c : Nat), c < 8 → (s.core c).condition = 0 → (s.core c).stack.length ≤ 8 →
    ∃ t, exec (.eoi c) s = .next t ∧
      (∀ (st : List Nat) (p : Nat), (s.core c).stack = st ++ [p] →
        (t.core c).underflows = (s.core c).underflows ∧ t.out = s.out ∧ t.objs = s.objs ∧
          if p < s.topPriority c then (t.core c).running = s.topPriority c ∧ (t.core c).stack = st ++ [p]
          else (t.core c).running = p ∧ (t.core c).stack = st) ∧
      ((s.core c).stack = [] → (t.core c).underflows = ((s.core c).underflows + 1) % 2 ^ 32 ∧
        (s.rst.restored = true → s.inReset = false → t.srcPending 0x122 = true)))

/-- Requests and violations at the host port, D3hot and the return to D0. With the link alive a configuration
request is answered with request retry before the part is ready. Then it is accepted: a read, which
CONFIG_REQUEST makes of the IDs and REGISTER_WRITE of any field,
    gives the field's value and changes nothing; a write of the payload or read request size, of memory space,
        of the BAR2 size or of
the function mask takes a value that the field has, a new BAR2 size keeping WINDOW_BASE a multiple of it. A
malformed TLP, a poisoned write and an unexpected completion are reported by AER with the severity that the host
set and make an event; nothing else changes. A request retry is logged too. An access takes the host port out of Idle.
    LINK_DEGRADE takes a narrower width, which
bounds every later one until reset, and logs it; width 0, at which the link is gone until reset, is the model's form of
R412's row (log 184); any other width changes nothing. FUNCTION_LEVEL_RESET of a ready part resets it with that cause
    alone in LAST_CAUSES
and counts it. D3HOT_ENTRY of a ready part in D0 enters D3hot and, with no take open, TAKE_CONTROL STOP and
DEVICE_STATE 0, starts the entry into Standby; otherwise it changes nothing. D0_RETURN leaves D3hot, sends every
pending vector that is unmasked, and turns an entry into Standby (the model's choice, log 56) or Standby into an exit.
That REGISTER_WRITE carries configuration accesses is log 158, the encodings of the fields are log 159, and a
reset that is asserted and released within its row is log 80: the model's choices (R302 to R308, R321, R322,
R384). (from 12_host_interface.md, 15_reset_power_and_self_test.md, 17_faults_violations_and_recovery.md) -/
def Obligations.HostPort : Prop :=
  (∀ (s u : State) (x : ConfigAccess) (w dt : Nat), u = s.wakeBlock .hostPort →
    (∀ q ∈ [(Instr.configRequest, (⟨.identity, none⟩ : ConfigAccess)), (Instr.registerWrite (.config x), x)],
      ∃ t, exec q.1 s = .next t ∧
      (s.linkAlive = false → t = s) ∧
      (s.linkAlive = true → s.rst.ready = false → EventsOnly (u.emit .requestRetry) t ∧ Logged s t 0x212) ∧
      (s.linkAlive = true → s.rst.ready = true →
        (q.2.write = none → t = u.emit (.configData (u.configValue q.2.field)) ∧ (q.2.field = .classCode →
          s.configValue q.2.field = 0x120000)) ∧
        (∀ v, q.2.write = some v → .configAccepted ∈ t.out ∧ t.mem = s.mem ∧ t.objs = s.objs ∧ t.tiles = s.tiles ∧
          (q.2.field = .maxPayload → t.host = if v ≤ 2 then { s.host with maxPayload := v } else s.host) ∧
          (q.2.field = .maxRead → t.host = if v ≤ 5 then { s.host with maxRead := v } else s.host) ∧
          (q.2.field = .command → t.host = { s.host with memSpace := bitAt v 1 }) ∧
          (q.2.field = .aerSeverity → t.host = { s.host with aerSeverity := v % 2 ^ 32 }) ∧
          (q.2.field = .bar2Size → (if 10 ≤ v ∧ v ≤ 16 then
            t.host = { s.host with bar2Log2 := v + 20, windowBase := t.host.windowBase } ∧
              t.host.windowBase % 2 ^ (v + 20) = 0 ∧ t.host.windowBase ≤ s.host.windowBase ∧
              s.host.windowBase < t.host.windowBase + 2 ^ (v + 20)
            else t.host = s.host)) ∧
          (q.2.field = .msix → t.host.functionMask = bitAt v 14 ∧
            (bitAt v 14 = true → t.host = { s.host with functionMask := true }))))) ∧
    (∀ q ∈ [(Instr.malformedTlp, 1, 18), (Instr.poisonedWrite, 3, 12), (Instr.unexpectedCompletion, 4, 16)],
      ∃ t, exec q.1 s = .next t ∧ (s.linkAlive = false → t = s) ∧
        (s.linkAlive = true → EventsOnly (s.emit (.aer q.2.1 (bitAt s.host.aerSeverity q.2.2))) t ∧ Logged s t 0x210)) ∧
    (∃ t, exec (.linkDegrade w) s = .next t ∧
      if w ∈ [0, 1, 2, 4, 8] ∧ w < s.host.linkWidth then
        EventsOnly { s with host := { s.host with linkWidth := w, widest := w, linkLost := decide (w = 0) } } t ∧
          Logged s t 0x040 ∧ (w = 0 → t.linkAlive = false)
      else t = s) ∧
    (∃ t, exec (.functionLevelReset dt) s = .next t ∧
      (s.linkAlive = true → s.rst.ready = true → s.rst.asserted = 0 →
        t.rst.lastCauses = causeFlr ∧ t.rst.causeHistory = s.rst.causeHistory ||| causeFlr ∧
        t.rst.resetCount = (s.rst.resetCount + 1) % 2 ^ 32 ∧ t.rst.asserted = 0 ∧ t.rst.ready = false ∧
        t.reels = State.reset.reels ∧ t.objs = State.reset.objs ∧ t.tiles = [] ∧ t.part = s.part) ∧
      (s.linkAlive = false ∨ s.rst.ready = false → t = s.advance dt))) ∧
  (∀ s : State,
    (∃ t, exec .d3hotEntry s = .next t ∧
      if s.rst.ready = true ∧ s.host.d3hot = false then
        t.host = { s.host with d3hot := true } ∧ t.out = s.out ∧ t.mem = s.mem ∧ t.tiles = s.tiles ∧
          t.obj Obj.deviceState = (if s.obj Obj.takeState = 0 ∧ s.obj Obj.takeControl = 0 ∧ s.obj Obj.deviceState = 0 then 1
            else s.obj Obj.deviceState)
      else t = s.wakeBlock .hostPort) ∧
    (∃ t, exec .d0Return s = .next t ∧
      if s.host.d3hot = true then
        t.host.d3hot = false ∧ t.mem = s.mem ∧ t.tiles = s.tiles ∧
          t.obj Obj.deviceState = (if s.obj Obj.deviceState = 1 ∨ s.obj Obj.deviceState = 2 then 3 else s.obj Obj.deviceState) ∧
          (s.linkAlive = true → s.host.functionMask = false → ∀ v, v < 16 → v ∈ s.host.msixPending →
            v ∈ s.host.unmaskedVectors → v ∉ t.host.msixPending ∧ .msix v ∈ t.out)
      else t = s.wakeBlock .hostPort))

/-- Host reads of the BARs and writes of the HBM window. An access takes the host port out of Idle. A read inside a BAR
that answers: BAR0 and BAR4 complete aligned reads of 4 or 8 bytes with the value of the block at that offset and
answer any other with Completer Abort, and so a read of a completion ring whose tile the CN does not reach (R266);
BAR2 completes a read of readable HBM without findings with the bytes at
WINDOW_BASE plus offset, and answers UNMAPPED, FORBIDDEN, ISOLATED and ECC_LOST with Completer Abort. A read that no
BAR takes is answered Unsupported Request. (R310, R311, R322, R375). A BAR2 write inside the window whose addresses
lie in HBM, in no reserved area and on no duplex copy, while HBM has no findings, leaves each of its bytes at
WINDOW_BASE plus offset; every other byte of HBM that is not the partner of one of them keeps its value, and a first
copy's partner receives the same byte (R254, R311). Any other write of the window leaves HBM as it is. (from
12_host_interface.md, 10_memory_networks_and_arbiters.md) -/
def Obligations.HostAccesses : Prop :=
  (∀ (s : State) (bar off size : Nat),
    let a := s.wakeBlock .hostPort
    (bar ≠ 2 → s.barTakes bar off size = true → ∃ t, exec (.barRead bar off size) s = .next t ∧
      (barAligned off size = true → s.ringUnreached bar off = false →
        t = a.useFree.emit (.completion (leBytes size (if bar = 0 then s.bar0Value off size else s.bar4Value off size)))) ∧
      (barAligned off size = false ∨ s.ringUnreached bar off = true →
        EventsOnly ((a.emit .completerAbort).emit (.aer 6 (bitAt s.host.aerSeverity 15))) t)) ∧
    (s.barTakes 2 off size = true →
      ∃ t, exec (.bar2Read off size) s = .next t ∧ exec (.barRead 2 off size) s = .next t ∧
        (s.loadRange (s.host.windowBase + off) size = none → s.hbmClean = true →
          t = (a.wakeStacks (s.host.windowBase + off) size).emit
            (.completion ((List.range size).map (fun i => s.hbmRaw (s.host.windowBase + off + i))))) ∧
        (∀ st, s.loadRange (s.host.windowBase + off) size = some st →
          .completerAbort ∈ t.out ∧ (st ≠ .eccLost →
            EventsOnly ((a.emit .completerAbort).emit (.aer 6 (bitAt s.host.aerSeverity 15))) t))) ∧
    (s.barTakes bar off size = false → ∃ t, exec (.barRead bar off size) s = .next t ∧
      (s.linkAlive = true → EventsOnly ((a.emit .unsupportedRequest).emit (.aer 2 (bitAt s.host.aerSeverity 20))) t) ∧
      (s.linkAlive = false → t = a))) ∧
  (∀ (s : State) (off : Nat) (data : List Byte),
    (s.barTakes 2 off data.length = true → s.writeFault 1 (s.host.windowBase + off) data.length = none →
      s.hbmClean = true → ∃ t, exec (.bar2Write off data) s = .next t ∧
        (∀ i, i < data.length → t.hbmRaw (s.host.windowBase + off + i) = data.getD i 0 ∧
          (s.firstCopy (s.host.windowBase + off + i) = true →
            t.hbmRaw (hbmPartner s.part.variant (s.host.windowBase + off + i)) = data.getD i 0)) ∧
        (∀ a, (∀ i, i < data.length → a ≠ s.host.windowBase + off + i ∧
            a ≠ hbmPartner s.part.variant (s.host.windowBase + off + i)) → t.hbmRaw a = s.hbmRaw a) ∧
        { t with mem := s.mem, rst := { t.rst with idleBlocks := s.rst.idleBlocks } } = s) ∧
    (s.barTakes 2 off data.length = false ∨ (s.writeFault 1 (s.host.windowBase + off) data.length).isSome = true →
      ∃ t, exec (.bar2Write off data) s = .next t ∧ t.mem = s.mem ∧ t.tiles = s.tiles ∧ t.phys = s.phys))

/-- The ingest rings. A TAIL write that publishes at most the ring's size sets TAIL and nothing else; one beyond it
stops the ring with MALFORMED and keeps TAIL (the model's choice, log 65). ENABLE is written, a restart clearing the
status (log 65 too).
INGEST_DESCRIPTOR on a ring that may start one puts it in flight behind the others with the verdict of its
checks; on any other ring it changes nothing. INGEST_COMPLETE, while DMA is open, takes the oldest descriptor out
and moves HEAD by one; in D3hot HEAD holds. The data of a good one land at its HBM address while HBM has no findings,
    and no other byte but their
partners changes; a wafer's
kind adds it to the open take; one that failed a check, and one whose data meet a duplex copy by now (R254), writes
nothing (R306, R312 to R315). (from 12_host_interface.md) -/
def Obligations.IngestRings : Prop :=
  ∀ (s : State) (r v : Nat) (en : Bool) (d : BitVec 256) (data : List Byte), r < 8 →
    (s.barOpen = true →
      (∃ t, exec (.ingestTailWrite r v) s = .next t ∧ (∀ q, q ≠ r → t.ring q = s.ring q) ∧ t.mem = s.mem ∧
        if 2 ^ (s.ring r).sizeLog2 < indexDistance (s.ring r).head (v % 2 ^ 32) then
          t.ring r = { s.ring r with enable := false, status := statusCode .malformed }
        else t.ring r = { s.ring r with tail := v % 2 ^ 32 }) ∧
      (∃ t, exec (.ingestEnableWrite r en) s = .next t ∧ (∀ q, q ≠ r → t.ring q = s.ring q) ∧ t.mem = s.mem ∧
        t.ring r = { s.ring r with enable := en, status := if en = true ∧
            (s.ring r).enable = false then 0 else (s.ring r).status })) ∧
    (∃ t, exec (.ingestDescriptor r d) s = .next t ∧
      if s.ringReady (s.ring r) = true then
        t.ring r = { s.ring r with inFlight := (s.ring r).inFlight ++
          [{ desc := d, index := ((s.ring r).head + (s.ring r).inFlight.length) % 2 ^ 32,
             verdict := (s.ingestFault d).getD .ok }] } ∧ t.mem = s.mem ∧ t.tiles = s.tiles ∧ t.objs = s.objs
      else t = s) ∧
    (s.dmaOpen = false → exec (.ingestComplete r data) s = .next s) ∧
    (∀ f rest, (s.ring r).inFlight = f :: rest → s.dmaOpen = true →
      (f.verdict = .ok → data.length = ingLength f.desc) →
      ∃ t, exec (.ingestComplete r data) s = .next t ∧
        t.ring r = { s.ring r with inFlight := rest, head := ((s.ring r).head + 1) % 2 ^ 32 } ∧
        (f.verdict ≠ .ok ∨ s.meetsDuplexCopy (ingHbmAddr f.desc) data.length = true → t.mem = s.mem) ∧
        (f.verdict = .ok → s.hbmClean = true → hbmInRange s.part.variant (ingHbmAddr f.desc) data.length = true →
          s.meetsDuplexCopy (ingHbmAddr f.desc) data.length = false →
          (∀ i, i < data.length → t.hbmRaw (ingHbmAddr f.desc + i) = data.getD i 0) ∧
          (∀ a, (∀ i, i < data.length → a ≠ ingHbmAddr f.desc + i ∧ a ≠ hbmPartner s.part.variant (ingHbmAddr f.desc + i)) →
            t.hbmRaw a = s.hbmRaw a) ∧
          (s.takeOpen = true → ingKind f.desc = 0 →
            ∀ a ∈ t.take.answers, a.take = s.obj Obj.lineTakeNumber → a.closed = false → ingWafer f.desc ∈ a.wafers)))

/-- Answers are published in order, to the objects and to the ring. ANSWER_PUBLISH with a wafer left publishes the
least wafer of the oldest take that has one: its ten values stand in the answer object of WAFER_INDEX mod 256 and in
the latest-answer object, the wafer is off the take's list, and the 32-byte record is written at WRITE_INDEX of the
answer ring, which rises by one, where the ring is enabled and not full and DMA is open, and otherwise
counted in OVERFLOWS. With none left only time passes (R53, R54, R316). (from
01_takes_slates_and_line_position.md, 12_host_interface.md) -/
def Obligations.AnswersArePublished : Prop :=
  ∀ (s : State) (dt : Nat),
    ((s.advance dt).nextAnswer = none → exec (.answerPublish dt) s = .next (s.advance dt)) ∧
    (∀ (a : TakeAnswers) (w : Nat), (s.advance dt).nextAnswer = some (a, w) →
      ∃ t, exec (.answerPublish dt) s = .next t ∧
        (∀ i, i < 10 → t.obj (objKey 0x6100 (i + 1)) = ((s.advance dt).answerValues a w).getD i 0 ∧
          t.obj (objKey (0x6000 + w % 256) (i + 1)) = ((s.advance dt).answerValues a w).getD i 0) ∧
        t.take.answers = s.take.answers.map (fun b =>
          if b.take = a.take then { b with toPublish := b.toPublish.erase w } else b) ∧
        ((s.advance dt).answerRecord a w).length = 32 ∧ t.tiles = s.tiles ∧ t.mem = s.mem ∧
        if s.answerRoom = true then
          t.host.answers = { s.host.answers with writeIndex := (s.host.answers.writeIndex + 1) % 2 ^ 32 } ∧
            .hostWrite (s.host.answers.base + 32 * (s.host.answers.writeIndex % 2 ^ s.host.answers.sizeLog2))
              ((s.advance dt).answerRecord a w) ∈ t.out
        else t.host.answers = { s.host.answers with overflows := (s.host.answers.overflows + 1) % 2 ^ 32 })

/-- A host read that fails ends its request with HOST_ABORT. COMPLETION_TIMEOUT and ERROR_COMPLETION of the read of
the oldest ingest descriptor complete it with HOST_ABORT, HEAD moving by one, or in D3hot, where HEAD holds, leave it
to end so; of a MOVE from SPACE 2, complete
its command with HOST_ABORT; of a waiting host command, end it with HOST_ABORT. The timeout alone is reported by
AER. Where no such read is outstanding they change nothing (R313, R318, R322). (from 12_host_interface.md) -/
def Obligations.FailedHostReads : Prop :=
  ∀ (s : State) (read : HostRead), ∀ q ∈ [(Instr.completionTimeout read, s.linkAlive), (Instr.errorCompletion read, false)],
    (s.abortRead read = none → exec q.1 s = .next s) ∧
    (∀ r f rest, read = .ring r → r < 8 → (s.ring r).inFlight = f :: rest → f.verdict = .ok → s.dmaOpen = true →
      ∃ t, exec q.1 s = .next t ∧ (t.ring r).inFlight = rest ∧ (t.ring r).head = ((s.ring r).head + 1) % 2 ^ 32 ∧
        (∃ n, .hostWrite ((s.ring r).slotAddr f.index + 27) (leBytes 1 0x46 ++ leBytes 4 n) ∈ t.out) ∧
        (q.2 = true → .aer 5 (bitAt s.host.aerSeverity 14) ∈ t.out)) ∧
    (∀ r f rest, read = .ring r → r < 8 → (s.ring r).inFlight = f :: rest → f.verdict = .ok → s.dmaOpen = false →
      ∃ t, exec q.1 s = .next t ∧
        t.ring r = { s.ring r with inFlight := { f with verdict := .hostAbort } :: rest } ∧ t.tiles = s.tiles) ∧
    (∀ l p e b, read = .moveOf l → s.hostMove l = some (p, e, b) →
      ∃ t, exec q.1 s = .next t ∧ (∀ x ∈ (t.lt l).queue, x.id ≠ e.id) ∧
        (∀ h, (s.lt l).hist[e.pos]? = some h → ∃ h', (t.lt l).hist[e.pos]? = some h' ∧ h'.status = some .hostAbort) ∧
        (q.2 = true → .aer 5 (bitAt s.host.aerSeverity 14) ∈ t.out)) ∧
    (read = .command → s.host.cmd.waiting.isSome = true →
      ∃ t, exec q.1 s = .next t ∧
        t.host.cmd = { s.host.cmd with result := some (.hostAbort, s.host.cmd.resultLength), waiting := none, data := [] } ∧
        (q.2 = true → .aer 5 (bitAt s.host.aerSeverity 14) ∈ t.out) ∧ t.mem = s.mem ∧ t.reels = s.reels ∧ t.sec = s.sec)

/-- The host command block. While BUSY is 1 a command is ignored with an event. Otherwise BUSY is set; a command
that a first test refuses will report that status and has no effect; one that reads host memory waits for its
data (when they are read is the model's choice, log 64); any other is carried out at once (the model's choice, logs 64
and 108) and its status and RESULT_LENGTH wait for the completion. HOST_COMMAND_COMPLETE
of a command with a result clears BUSY, sets CMD_STATUS and RESULT_LENGTH and raises an event of G1; a waiting
command is carried out on its data first, once DMA is open (R306). With BUSY 0 it changes nothing. With the BARs closed
a command has no effect but the event of a write that no BAR takes (R319, R322). (from 12_host_interface.md,
    15_reset_power_and_self_test.md) -/
def Obligations.HostCommandProtocol : Prop :=
  ∀ (s u : State) (data : List Byte), u = s.wakeBlock .hostPort →
    (∀ q ∈ [(Instr.loadReel, 1), (Instr.saveContext, 2), (Instr.restoreContext, 3), (Instr.writeFirmware data, 4),
      (Instr.attest, 5), (Instr.bootOtherOnce, 6)],
      (s.barOpen = true → s.host.cmd.busy = true → ∃ t, exec q.1 s = .next t ∧ EventsOnly u t ∧ Logged s t 0x214) ∧
      (s.barOpen = false → ∃ t, exec q.1 s = .next t ∧
        EventsOnly (if s.linkAlive then s.emit (.aer 2 (bitAt s.host.aerSeverity 20)) else s) t ∧
        (s.linkAlive = true → Logged s t 0x210)) ∧
      (∀ st, s.barOpen = true → s.host.cmd.busy = false → s.cmdRefusal q.2 = some st →
        ∃ t, exec q.1 s = .next t ∧ EventsOnly { u with host := { s.host with cmd := { s.host.cmd with
          busy := true, result := some (st, s.host.cmd.resultLength), waiting := none, data := [] } } } t) ∧
      (s.barOpen = true → s.host.cmd.busy = false → s.cmdRefusal q.2 = none → cmdReadsHost q.2 s.host.cmd.space = true →
        ∃ t, exec q.1 s = .next t ∧ { t with host := s.host } = u ∧ t.host.cmd.busy = true ∧
          t.host.cmd.waiting = some (q.2, s.host.cmd.addr, s.host.cmd.length) ∧ t.host.cmd.result = none) ∧
      (s.barOpen = true → s.host.cmd.busy = false → s.cmdRefusal q.2 = none → cmdReadsHost q.2 s.host.cmd.space = false →
        ∃ t, exec q.1 s = .next t ∧ t.host.cmd.busy = true ∧ t.host.cmd.waiting = none ∧ t.host.cmd.result.isSome = true)) ∧
    (∀ st n, s.host.cmd.busy = true → s.host.cmd.waiting = none → s.host.cmd.result = some (st, n) →
      ∃ t, exec .hostCommandComplete s = .next t ∧ EventsOnly { s with host := { s.host with cmd := { s.host.cmd with
        busy := false, status := statusCode st, resultLength := n, result := none, data := [] } } } t ∧
        (s.rst.restored = true → s.inReset = false → t.srcPending 0x02B = true)) ∧
    (s.host.cmd.waiting.isSome = true → s.dmaOpen = false → exec .hostCommandComplete s = .next s) ∧
    (∀ c a n, s.host.cmd.busy = true → s.host.cmd.waiting = some (c, a, n) → s.dmaOpen = true →
      ∃ t, exec .hostCommandComplete s = .next t ∧ t.host.cmd.busy = false ∧ t.host.cmd.waiting = none ∧
        t.host.cmd.status = statusCode (s.runCommand c 2 a n s.host.cmd.data).2.1 ∧
        t.host.cmd.resultLength = (s.runCommand c 2 a n s.host.cmd.data).2.2) ∧
    (s.host.cmd.busy = false → s.host.cmd.waiting = none → exec .hostCommandComplete s = .next s)

/-- What the host commands do. A command that is accepted with BUSY 0 and needs no host data: LOAD_REEL, at once (the
model's choice, log 108), stages the image that passes R59 and otherwise keeps the staged reel and reports the failed
    check. BOOT_OTHER_ONCE sets its
latch, which names the slot that BOOT_SLOT does not name (the model's reading, log 179). SAVE_CONTEXT writes the context,
in the model's layout (log 62), and reports its length, or OUT_OF_RANGE and the length it needs.
RESTORE_CONTEXT places the logical tiles by R56, writes a context of the active reel with the right digest back
and keeps the digest; with no reel active it reports MALFORMED. WRITE_FIRMWARE from HBM of 1 to 16 MiB of readable bytes
leaves exactly these bytes in the other slot and reports the slot's verdict, the results of the boot staying (the
model's choice, log 63). ATTEST writes the 9,248-byte report
over its nonce; with less room it reports OUT_OF_RANGE, and FORBIDDEN once the secret is zeroised.
The statuses are those of memory without findings. (from
12_host_interface.md, 02_tiles_and_commands.md, 16_security_and_boot.md) -/
def Obligations.HostCommandEffects : Prop :=
  ∀ (s : State), s.barOpen = true → s.host.cmd.busy = false → s.host.cmd.space = 1 →
    (s.cmdRefusal 1 = none → ∃ t, exec .loadReel s = .next t ∧ t.reels.active = s.reels.active ∧ t.tiles = s.tiles ∧
      match s.loadFault s.host.cmd.addr with
      | none => (∃ st, t.host.cmd.result = some (st, s.host.cmd.resultLength) ∧ (s.hbmClean = true → st = .ok)) ∧
        t.reels.staged = some (reelOf (s.imageAt s.host.cmd.addr (s.imageLength s.host.cmd.addr)) s.host.cmd.addr)
      | some st => t.host.cmd.result = some (st, s.host.cmd.resultLength) ∧ t.reels = s.reels) ∧
    (s.cmdRefusal 6 = none → ∃ t, exec .bootOtherOnce s = .next t ∧ t.sec = { s.sec with otherOnce := some s.otherSlot } ∧
      t.host.cmd.result = some (.ok, s.host.cmd.resultLength) ∧ t.reels = s.reels ∧ t.tiles = s.tiles ∧ t.mem = s.mem) ∧
    (s.cmdRefusal 2 = none → ∃ t, exec .saveContext s = .next t ∧ t.tiles = s.tiles ∧
      (∀ p, (t.pt p).store = (s.pt p).store ∧ (t.pt p).am = (s.pt p).am ∧ (t.pt p).occupied = (s.pt p).occupied) ∧
      (s.host.cmd.length < s.contextBytes.length →
        t.host.cmd.result = some (.outOfRange, s.contextBytes.length) ∧ t.mem = s.mem) ∧
      (s.contextBytes.length ≤ s.host.cmd.length → s.writeFault 1 s.host.cmd.addr s.contextBytes.length = none →
        s.hbmClean = true → (∀ p, (s.pt p).storeErrors = [] ∧ (s.pt p).amErrors = []) →
          t.host.cmd.result = some (.ok, s.contextBytes.length) ∧
          ∀ i, i < s.contextBytes.length → t.hbmRaw (s.host.cmd.addr + i) = s.contextBytes.getD i 0)) ∧
    (s.cmdRefusal 3 = none → (hbmInRange s.part.variant s.host.cmd.addr s.host.cmd.length && !(meetsReserved
        s.part.variant s.host.cmd.addr s.host.cmd.length)) = true → s.hbmClean = true →
      s.reels.active = none → 0 < s.host.cmd.length → ∃ t, exec .restoreContext s = .next t ∧
        t.host.cmd.result = some (.malformed, s.host.cmd.resultLength) ∧ t.tiles = s.tiles ∧ t.phys = s.phys ∧ t.sec = s.sec) ∧
    (s.cmdRefusal 3 = none → (hbmInRange s.part.variant s.host.cmd.addr s.host.cmd.length && !(meetsReserved
        s.part.variant s.host.cmd.addr s.host.cmd.length)) = true → s.hbmClean = true →
      let c := (List.range s.host.cmd.length).map (fun i => s.hbmRaw (s.host.cmd.addr + i))
      let n := s.host.cmd.length - digestBytes
      ∀ u : State, contextHeaderBytes + digestBytes ≤ s.host.cmd.length → sha3384 (c.take n) = c.drop n →
        s.contextMatches c = true → s.budget + 1 ≤ s.enabledTiles →
        s.placeForContext.putTiles (List.range s.budget) ((c.take n).drop contextHeaderBytes) = some u →
        ∃ t, exec .restoreContext s = .next t ∧ t.tiles = u.tiles ∧
          (∀ p, (t.pt p).store = (u.pt p).store ∧ (t.pt p).am = (u.pt p).am ∧ (t.pt p).occupied = (u.pt p).occupied ∧
            (t.pt p).vregs = (u.pt p).vregs) ∧
          ((∀ p, (u.pt p).storeErrors = []) → t.host.cmd.result = some (.ok, s.host.cmd.resultLength)) ∧
          t.sec.contextMeasurement = BitVec.ofNat 384 (leNat (c.drop n))) ∧
    (∀ data, s.cmdRefusal 4 = none → 0 < s.host.cmd.length → s.host.cmd.length ≤ slotBytes →
      (hbmInRange s.part.variant s.host.cmd.addr s.host.cmd.length && !(meetsReserved s.part.variant s.host.cmd.addr
          s.host.cmd.length)) = true → s.hbmClean = true →
      ∃ t, exec (.writeFirmware data) s = .next t ∧
        t.sec.slot s.otherSlot = programSlotBytes [] 0 ((List.range s.host.cmd.length).map (fun i => s.hbmRaw
            (s.host.cmd.addr + i))) ∧
        t.sec.slot (1 - s.otherSlot) = s.sec.slot (1 - s.otherSlot) ∧
        t.host.cmd.result = some (firmwareStatus (s.slotResult (t.sec.slot s.otherSlot)), s.host.cmd.resultLength) ∧
        t.sec.resultA = s.sec.resultA ∧ t.sec.resultB = s.sec.resultB) ∧
    (s.cmdRefusal 5 = none → ∃ t, exec .attest s = .next t ∧ t.sec = s.sec ∧ t.reels = s.reels ∧ t.tiles = s.tiles ∧
      (s.host.cmd.length < 9248 → t.host.cmd.result = some (.outOfRange, s.host.cmd.resultLength) ∧ t.mem = s.mem) ∧
      (9248 ≤ s.host.cmd.length → s.sec.zeroised = true →
        t.host.cmd.result = some (.forbidden, s.host.cmd.resultLength) ∧ t.mem = s.mem) ∧
      (9248 ≤ s.host.cmd.length → s.sec.zeroised = false → (hbmInRange s.part.variant s.host.cmd.addr 32 &&
          !(meetsReserved s.part.variant s.host.cmd.addr 32)) = true →
        s.writeFault 1 s.host.cmd.addr 9248 = none → s.hbmClean = true → t.host.cmd.result = some (.ok, 9248) ∧
          ∀ i, i < 9248 → t.hbmRaw (s.host.cmd.addr + i) =
            ((s.useFrees 4).report ((List.range 32).map (fun j => s.hbmRaw (s.host.cmd.addr + j)))).getD i 0))

/-- The dictionary mailbox answers a request. A DOORBELL write while BUSY is 1 is ignored with an event. Otherwise a
request of no entries completes with ZERO_WORK, one with reserved bits or entries that overrun the buffer with
MALFORMED, and one of reads, when the server is idle, with OK; the completion takes the tag into DONE_TAG,
clears BUSY, and the response of served reads begins with the number of entries. With the BARs closed it has no
effect (R338, R339). (from 13_object_dictionary_and_retained_state.md) -/
def Obligations.MailboxRequests : Prop :=
  ∀ (s : State) (tag : Nat),
    (s.barOpen = false → ∃ t, exec (.doorbell tag) s = .next t ∧ t.mailbox = s.mailbox ∧ t.server = s.server) ∧
    (s.barOpen = true → s.mailbox.busy = true → ∃ t, exec (.doorbell tag) s = .next t ∧
      EventsOnly (s.wakeBlock .hostPort) t ∧ Logged s t 0x214) ∧
    (s.barOpen = true → s.mailbox.busy = false → ∃ t, exec (.doorbell tag) s = .next t ∧
      let h := leNat (bufferBytes s.mailbox.request 0 8)
      (h = 0 → t.mailbox.doneTag = tag % 2 ^ 32 ∧ t.mailbox.busy = false ∧ t.mailbox.status = statusCode .zeroWork) ∧
      (zeroAt h 63 16 = false ∨ (0 < h ∧ requestEntries s.mailbox.request (bitsOf h 15 0) 8 = none) →
        t.mailbox = { s.mailbox with doneTag := tag % 2 ^ 32, status := statusCode .malformed }) ∧
      (∀ as, zeroAt h 63 16 = true → 0 < h → requestEntries s.mailbox.request (bitsOf h 15 0) 8 = some as →
        (∀ a ∈ as, a.write = false) → s.server.jobs = [] → s.server.kWrite = none → s.server.halted = false →
        t.mailbox.doneTag = tag % 2 ^ 32 ∧ t.mailbox.busy = false ∧ t.mailbox.status = statusCode .ok ∧
          bufferBytes t.mailbox.response 0 8 = leBytes 8 as.length ∧ t.server.jobs = [] ∧ t.take = s.take ∧
          t.tiles = s.tiles ∧ t.mem = s.mem))

/-- A write of HOST_EVENTS clears the bits that are 1 and no others. HOST_EVENTS_CLEAR of a group with a 32-bit
value, accepted by the dictionary server, clears in the group's pending set exactly the bits that are 1 in the
value, and the object reads as that set. On the mailbox path this holds of every source but those that its own
completion raises (0x02C and the event log's 0x1C0 and 0x1C1). (states R358) -/
def Obligations.HostEventsClear : Prop :=
  ∀ (s : State) (path : Path) (g bits : Nat), g < 16 → bits < 2 ^ 32 → Reaches s path →
    s.checkWrite (writeAccess 0x2801 (g + 1) bits) = .ok [(g + 1, bits)] →
    ∃ t, exec (.hostEventsClear path g bits) s = .next t ∧
      (∀ i, (path = .pcie → 32 * g + i ≠ 0x02C ∧ 32 * g + i ≠ 0x1C0 ∧ 32 * g + i ≠ 0x1C1) → i < 32 →
        bitAt (t.obj (Obj.hostEvents + g)) i = (bitAt (s.obj (Obj.hostEvents + g)) i && !(bitAt bits i))) ∧
      (path = .coe → ∀ q, q < 16 → q ≠ g → t.obj (Obj.hostEvents + q) = s.obj (Obj.hostEvents + q)) ∧
      t.view 0x2801 (g + 1) = t.obj (Obj.hostEvents + g)

/-- The commands that write one object take their effect and are answered. When the write reaches the server and
passes its checks: TAKE_CONTROL and COMBINATION_MODE take the value (RUN in Standby starts the exit, the mode
comes into force with no take open); TABLE_LOAD starts a load, TABLE_CLEAR empties the staged table,
TABLE_ENTRY_WRITE writes its half of the selected entry; RESET_COMMAND halts the server; CAUSE_HISTORY_CLEAR
clears the bits that are 1; ENTER_STANDBY and LEAVE_STANDBY start the entry and the exit; COMPACT_NOW starts a
compaction; ARB_COMMIT stamps the shadow values 7,200 counts ahead. Each is
answered with OK. That RUN or LEAVE_STANDBY during the entry turns it into the exit is the model's choice (log 56).
Here w is s with the block of the path at work. (from
01_takes_slates_and_line_position.md, 13_object_dictionary_and_retained_state.md,
10_memory_networks_and_arbiters.md, 09_expert_routing_and_skipping.md, 15_reset_power_and_self_test.md) -/
def Obligations.DictionaryCommands : Prop :=
  ∀ (s : State) (path : Path) (v : Nat) (high : Bool), let w := s.woken path
    Reaches s path →
    ∀ q ∈ [((Instr.takeControlWrite path v, 0x2200, 1, v),
        (if v = 1 ∧ (w.obj Obj.deviceState = 1 ∨ w.obj Obj.deviceState = 2) then
          (w.setObj Obj.takeControl v).setObj Obj.deviceState 3 else w.setObj Obj.takeControl v)),
      ((.combinationModeWrite path v, 0x2002, 1, v),
        (if w.obj Obj.takeState ≠ 0 then w.setObj Obj.combinationMode v
        else (w.setObj Obj.combinationMode v).setObj Obj.modeInForce v)),
      ((.tableLoad path, 0x2500, 2, 1), w.loadTable),
      ((.tableClear path, 0x2500, 2, 2),
        { w.setObj Obj.tableStatus 0 with route := { w.route with staged := [] } }),
      ((.tableEntryWrite path high v, 0x2500, (if high then 7 else 6), v),
        (let row := w.obj Obj.tableEntrySelect
        let entry := BitVec.ofNat 128 (w.entryAfter high v)
        { (if w.route.loading.isSome then w else w.setObj Obj.tableStatus 0) with
          route := { w.route with staged := Tab.store w.route.staged 0 row entry } })),
      ((.resetCommand path v, 0x2F00, 1, v), { w with server := { w.server with halted := true, haltedTb := w.time.tb } }),
      ((.causeHistoryClear path v, 0x2F00, 3, v),
        { w with rst := { w.rst with causeHistory := w.rst.causeHistory - (w.rst.causeHistory &&& v) } }),
      ((.enterStandby path, 0x2700, 2, 1), (if w.obj Obj.deviceState = 0 then w.setObj Obj.deviceState 1 else w)),
      ((.leaveStandby path, 0x2700, 2, 2),
        (if w.obj Obj.deviceState = 1 ∨ w.obj Obj.deviceState = 2 then w.setObj Obj.deviceState 3 else w)),
      ((.compactNow path, 0x2003, 8, 1), (w.setObj Obj.commandStatus (statusCode .notReady)).startCompaction),
      ((.arbCommit path v, 0x2A00, 1, v),
        { w.setObj Obj.commitPending 1 with
          mem := { w.mem with commitAt := some (w.time.tb + 7200), commitValues := w.shadowValues } })],
      w.checkWrite (writeAccess q.1.2.1 q.1.2.2.1 q.1.2.2.2) = .ok [(q.1.2.2.1, q.1.2.2.2)] →
      ∃ t, exec q.1.1 s = .next t ∧ AnsweredOk path q.2 t

/-- A write that fails a check changes nothing but the event log and its answer. When a command that writes one
object reaches the server and the write fails a check of R326, the answer carries the check's abort code on CoE and
its status in the response on the mailbox path, and one event is logged (R242's code for a staged entry, otherwise
0x220); of the objects only those of the event log and TABLE_STATUS can change; the line, the takes, the tiles, the
memories, the tables, the journal and the reset unit stay. With CoE closed the command changes nothing; with the
BARs closed, or the mailbox busy, the write is ignored and nothing but events is made. (from
13_object_dictionary_and_retained_state.md, 12_host_interface.md) -/
def Obligations.DictionaryRefusals : Prop :=
  ∀ (s : State) (path : Path) (v index sub : Nat) (high : Bool),
    ∀ q ∈ [(Instr.takeControlWrite path v, 0x2200, 1, v), (.combinationModeWrite path v, 0x2002, 1, v),
      (.tableLoad path, 0x2500, 2, 1), (.tableClear path, 0x2500, 2, 2),
      (.tableEntryWrite path high v, 0x2500, (if high then 7 else 6), v), (.resetCommand path v, 0x2F00, 1, v),
      (.causeHistoryClear path v, 0x2F00, 3, v), (.enterStandby path, 0x2700, 2, 1), (.leaveStandby path, 0x2700, 2, 2),
      (.compactNow path, 0x2003, 8, 1), (.arbCommit path v, 0x2A00, 1, v),
      (.positionSourceWrite path v, 0x2100, 1, v), (.fabricIdentityWrite path index sub v, index, sub, v),
      (.duplexSizeWrite path v, 0x2A20, 2, v), (.clearUser path v, 0x2C00, 1, v), (.journalErase path, 0x2003, 8, 0xE5)],
      (let w := s.woken path
       let a := writeAccess q.2.1 q.2.2.1 q.2.2.2
       ∀ r, Reaches s path → w.checkWrite a = .error r →
        ∃ t, exec q.1 s = .next t ∧
          AnsweredRefused path w r
            (if w.entryBad a.index a.sub (leNat a.data) = true ∧ r.status = .malformed then 0x241 else 0x220) t ∧
          (∀ k, eventObject k = false → k ≠ Obj.tableStatus → t.obj k = s.obj k) ∧ t.time = s.time ∧ t.take = s.take ∧
          t.tiles = s.tiles ∧ t.phys = s.phys ∧ t.mem = s.mem ∧ t.route = s.route ∧ t.journal = s.journal ∧
          t.rst = { s.rst with idleBlocks := t.rst.idleBlocks } ∧ t.reels = s.reels ∧ t.server = s.server) ∧
      (path = .coe → s.coeOpen = false → exec q.1 s = .next s) ∧
      (path = .pcie → s.barOpen = false → ∃ t, exec q.1 s = .next t ∧ t.mailbox = s.mailbox ∧ EventsOnly s t) ∧
      (path = .pcie → s.barOpen = true → s.mailbox.busy = true →
        ∃ t, exec q.1 s = .next t ∧ EventsOnly s t ∧ Logged s t 0x214)

/-- A write of a kept object waits for its journal record. POSITION_SOURCE_WRITE, FABRIC_IDENTITY_WRITE of OWN_RACK,
OWN_PACKAGE and PORT_ROLE, DUPLEX_SIZE_WRITE and CLEAR_USER that reach the server and pass their checks: other
values change nothing yet and wait for their record; where the journal has no room the write is refused with
NOT_READY; values in force already are applied and answered at once (that they still have their other effects is the
model's choice, log 114). JOURNAL_RECORD_DURABLE, on either path, with a read-back that matches within three
attempts for each record, programs the records, applies the values and answers the write; where three attempts
fail, the region is worn, a compaction starts and the write is refused with JOURNAL_FAULT, the kept objects
unchanged; three differing read-backs of a write of one record are such a failure and use up three slots (R328,
R341). (from 13_object_dictionary_and_retained_state.md) -/
def Obligations.KeptWrites : Prop :=
  ∀ (s : State) (path : Path) (v index sub dt : Nat),
    (∀ q ∈ [(Instr.positionSourceWrite path v, 0x2100, 1), (.fabricIdentityWrite path index sub v, index, sub),
        (.duplexSizeWrite path v, 0x2A20, 2), (.clearUser path v, 0x2C00, 1)],
      q.2 = (0x2100, 1) ∨ q.2 = (0x2A20, 2) ∨ q.2 = (0x2C00, 1) ∨ q.2 = (0x2600, 1) ∨ q.2 = (0x2600, 2) ∨ q.2.1 = 0x2601 →
      let w := s.woken path
      Reaches s path → w.checkWrite (writeAccess q.2.1 q.2.2 v) = .ok [(q.2.2, v)] →
      let ws := writtenValues q.2.1 [(q.2.2, v)]
      (w.unchanged ws = true → ∃ t, exec q.1 s = .next t ∧ AnsweredOk path (w.applyValues ws) t) ∧
      (w.unchanged ws = false → w.journalFull (kValues ws).length = false → ∃ t, exec q.1 s = .next t ∧
        t.server.kWrite = some ws ∧ t.server.jobs.length = 1 ∧ { t with server := s.server, mailbox := s.mailbox } = w) ∧
      (w.unchanged ws = false → w.journalFull (kValues ws).length = true → ∃ t, exec q.1 s = .next t ∧
        t.server = s.server ∧ AnsweredRefused path w badState 0x220 t ∧
        ∀ k, eventObject k = false → t.obj k = s.obj k)) ∧
    (∀ (ws : List (Nat × Nat)) (j : Job) (a : Access) (bad : List (BitVec 256)), s.server.kWrite = some ws →
      s.server.jobs = [j] → j.todo = [a] → a.write = true → s.server.halted = false → s.journalBusy = false →
      s.journalFull (kValues ws).length = false →
      let x := State.programAll (groupOf (kValues ws)) bad (s.advance dt)
      ∃ t, exec (.journalRecordDurable dt bad) s = .next t ∧ t.server.kWrite = none ∧ t.server.jobs = [] ∧
        (x.2 = true →
          let u := (x.1.applyValues ws).compactIfFull
          AnsweredOk j.path { u with server := { u.server with kWrite := none, jobs := [] },
                                     mailbox := { u.mailbox with
                                       doneTag := if j.path = .pcie then j.tag else u.mailbox.doneTag } } t) ∧
        (x.2 = false →
          let e := x.1.event 0x1A1 (unitOf 0xB x.1.activeRegion) .journalFault 0
          let u := { e with journal := { e.journal with worn := true } }.startCompaction
          t.journal = u.journal ∧ t.journal.worn = true ∧ t.journal.compacting = true ∧
            (∀ k, eventObject k = false → t.obj k = x.1.obj k) ∧
            (j.answers = [] → AnsweredRefused j.path u journalFault 0x220 t)) ∧
        (∀ k val b1 b2 b3, kValues ws = [(k, val)] → bad = [b1, b2, b3] → s.journal.nextSlot + 3 ≤ regionSlots →
          let r := journalRecord k (groupKind 0 1) (valueBytes k) val ((s.journal.lastSeq + 1) % 2 ^ 32)
          b1 ≠ r → b2 ≠ r → b3 ≠ r → x.2 = false ∧ t.journal.nextSlot = s.journal.nextSlot + 3))

/-- SDO uploads, downloads, segments and descriptions. SDO_UPLOAD that reaches the server is answered with the data
of a readable object and otherwise with the abort code of R326, changing nothing else. REGISTER_WRITE of a whole
SDO download of V objects that passes its checks applies them as one unit; of a first part, and
SDO_DOWNLOAD_SEGMENT of a middle part, buffer it; the last segment applies the write of all the parts. A segment
without a download is refused with NOT_READY, which is the model's choice (log 60). SDO_INFORMATION describes the
objects and entries that exist, in a layout that is the model's choice (log 52, PRESUMED), and refuses others.
SDO_BLOCK_TRANSFER and UNSUPPORTED_MAILBOX are answered with an abort and logged, as every refusal is.
REGISTER_WRITE of the HBM window is BAR2_WRITE, and of the request buffer leaves its bytes there. Here w is s with
the block of the path at work. (from 13_object_dictionary_and_retained_state.md, 12_host_interface.md) -/
def Obligations.DictionaryServices : Prop :=
  ∀ (s : State) (a : Access) (complete last : Bool) (index sub off size v : Nat) (data : List Byte) (kind : MailboxKind),
    let w := s.woken .coe
    (Reaches s .coe →
      (∃ t, exec (.sdoUpload complete index sub) s = .next t ∧
        match w.readAccess
            { write := false, describe := false, complete := complete, index := index, sub := sub, data := [] } with
        | .ok bs => t = w.useFree.emit (.sdoData bs)
        | .error r => EventsOnly w t ∧ AnsweredRefused .coe w r 0x220 t) ∧
      (∀ vs, w.checkWrite { a with write := true, describe := false } = .ok vs →
          isErase { a with write := true, describe := false } = false →
        w.unchanged (writtenValues a.index vs) = true →
        let u := { w with ecat := { s.ecat with segment := none } }.applyValues (writtenValues a.index vs)
        (∃ t, exec (.registerWrite (.sdo a false)) s = .next t ∧ AnsweredOk .coe u t) ∧
        (∀ b, s.ecat.segment = some b → b.write = true → b.describe = false → b.complete = a.complete → b.index = a.index →
          b.sub = a.sub → b.data ++ data = a.data →
          ∃ t, exec (.sdoDownloadSegment data true) s = .next t ∧ AnsweredOk .coe u t)) ∧
      (∀ b r, s.ecat.segment = some b → b.write = true → b.describe = false →
        w.checkWrite { b with data := b.data ++ data } = .error r →
        ∃ t, exec (.sdoDownloadSegment data true) s = .next t ∧ t.ecat = { s.ecat with segment := none } ∧
          AnsweredRefused .coe w r (if b.complete = false ∧ w.entryBad b.index b.sub (leNat (b.data ++ data)) = true ∧
            r.status = .malformed then 0x241 else 0x220) t ∧
          (∀ k, eventObject k = false → k ≠ Obj.tableStatus → t.obj k = s.obj k))) ∧
    (s.coeOpen = true → s.server.halted = false →
      exec (.registerWrite (.sdo a true)) s =
        .next ({ w with ecat := { s.ecat with segment := some { a with write := true, describe := false } } }.emit .sdoContinue) ∧
      (∀ b, s.ecat.segment = some b → exec (.sdoDownloadSegment data false) s =
        .next ({ w with ecat := { s.ecat with segment := some { b with data := b.data ++ data } } }.emit .sdoContinue)) ∧
      (s.ecat.segment = none → ∃ t, exec (.sdoDownloadSegment data last) s = .next t ∧ EventsOnly w t ∧
        AnsweredRefused .coe w badState 0x220 t) ∧
      (∃ t, exec (.sdoInformation (.entry index sub)) s = .next t ∧
        match objRow index sub with
        | some r => t = w.emit (.sdoDescription (w.entryFields r index sub))
        | none => EventsOnly w t ∧ AnsweredRefused .coe w (if objIndexMapped index then noSub else noIndex) 0x220 t) ∧
      (∃ t, exec (.sdoInformation (.object index)) s = .next t ∧
        if objIndexMapped index = true then
          t = w.emit (.sdoDescription ([index, objectType index, highestSub index, objectCode index] ++
            (nameBytes (objectName index)).map BitVec.toNat))
        else EventsOnly w t ∧ AnsweredRefused .coe w noIndex 0x220 t) ∧
      exec (.sdoInformation .objectList) s = .next (w.emit (.sdoObjectList objectList)) ∧
      (∃ t, exec .sdoBlockTransfer s = .next t ∧ EventsOnly w t ∧ t.out.getLast? = some (.sdoAbort 0x05040001) ∧
        Logged w t 0x222)) ∧
    (s.ecat.released = true → s.ecat.al ≠ alInit → ∃ t, exec (.unsupportedMailbox kind) s = .next t ∧ EventsOnly w t ∧
      t.out.getLast? = some .mailboxUnsupported ∧ Logged w t 0x222) ∧
    (s.coeOpen = false → exec (.sdoUpload complete index sub) s = .next s ∧ exec (.sdoDownloadSegment data last) s = .next w ∧
      exec .sdoBlockTransfer s = .next w) ∧
    (exec (.registerWrite (.bar 2 off size v)) s = exec (.bar2Write off (leBytes size (v % 2 ^ (8 * size)))) s) ∧
    (s.barTakes 4 off size = true → barAligned off size = true → requestStart ≤ off → off + size ≤ responseStart →
      ∃ t, exec (.registerWrite (.bar 4 off size v)) s = .next t ∧
        bufferBytes t.mailbox.request (off - requestStart) size = leBytes size (v % 2 ^ (8 * size)) ∧
        (∀ i, i + requestStart < off ∨ off + size ≤ i + requestStart →
          Tab.read t.mailbox.request 0 i = Tab.read s.mailbox.request 0 i) ∧
        { t with mailbox := s.mailbox } = s.wakeBlock .hostPort)

/-- Table loads, resets on command and Standby complete. TABLE_LOAD_COMPLETE of a good image replaces the staged
table and sets TABLE_STATUS to OK, or to ECC_RECOVERED where its read was corrected; of a bad one it keeps the table,
sets the status and logs it (which status an image outside memory or with lost bytes gives is the model's choice, log
54); a load that a migration restarted reads its image again from where it began (R350).
DICTIONARY_RESET_START 1 ms after the reset command resets the part with that cause; before, only time passes.
STANDBY_ENTRY of a part on its way with no command running makes DEVICE_STATE 2, counts the entry and puts every
tile to sleep. STANDBY_EXIT, once the clocks of the dies are good or have timed out,
makes DEVICE_STATE 0 and gives each logical tile of the active reel its tile of the
placement with an empty queue and flags 0. (from 09_expert_routing_and_skipping.md,
14_control_complex_and_interrupts.md, 15_reset_power_and_self_test.md) -/
def Obligations.TimedDictionaryEffects : Prop :=
  ∀ (s : State) (dt : Nat),
    (∃ t, exec .tableLoadComplete s = .next t ∧
      let again := s.route.restart = true ∧ s.route.loading.isSome = true
      let a := if again then s.loadTableAt s.route.loadAddr else s
      match (if again then some (s.checkTable s.route.loadAddr) else s.route.loading) with
      | none => t = s
      | some (st, table) => t.route.loading = none ∧ t.obj Obj.tableStatus = statusCode st ∧ t.route.inForce = s.route.inForce ∧
        t.route.staged = (if st = .ok ∨ st = .eccRecovered then table else s.route.staged) ∧
        (st ≠ .ok → st ≠ .eccRecovered → Logged a t 0x241)) ∧
    (∃ t, exec (.dictionaryResetStart dt) s = .next t ∧
      if s.server.halted = true ∧ s.server.haltedTb + 3600000 ≤ (s.advance dt).time.tb then
        (s.rst.asserted = 0 → t.rst.causeHistory = s.rst.causeHistory ||| causeDictionary ∧
          t.rst.resetCount = (s.rst.resetCount + 1) % 2 ^ 32 ∧ t.rst.ready = false ∧ t.objs = State.reset.objs ∧
          t.tiles = [] ∧ t.server = State.reset.server)
      else t = s.advance dt) ∧
    (∃ t, exec (.standbyEntry dt) s = .next t ∧
      if s.obj Obj.deviceState = 1 ∧ s.quiet = true then
        t.obj Obj.deviceState = 2 ∧ t.obj Obj.standbyEntries = (s.obj Obj.standbyEntries + 1) % 2 ^ 32 ∧
          (∀ p, p < s.part.variant.tiles → (t.pt p).sleeping = true) ∧ t.tiles = s.tiles ∧ t.mem = s.mem
      else t = s.advance dt) ∧
    (∃ t, exec (.standbyExit dt) s = .next t ∧
      if s.obj Obj.deviceState = 3 ∧ s.clocksSettled = true then
        t.obj Obj.deviceState = 0 ∧
          (∀ r, s.reels.active = some r → ∀ l, l < r.tileBudget → (t.lt l).phys = (s.placement r)[l]? ∧
            (t.lt l).queue = [] ∧ (t.lt l).flags = [] ∧ (t.lt l).stepCtr = (s.lt l).stepCtr) ∧
          (s.hbmClean = true → t.mem.hbm = s.mem.hbm)
      else t = s.advance dt)

/-- Erasing, compacting and restoring the journal. JOURNAL_ERASE that reaches the server and passes its checks
erases both regions, gives every kept object its default and drops the firmware records (the last is the model's
choice, log 115). COMPACTION while one is
wanted and the other region is erased writes there a header and a snapshot of every kept value and makes it
active, or on a failure keeps the active region; otherwise only time passes. REGION_ERASE_DONE after the restore
leaves the inactive region erased. JOURNAL_RESTORE out of reset, with firmware running and BIST done, makes the
part ready; before, only time passes. (from 13_object_dictionary_and_retained_state.md,
15_reset_power_and_self_test.md) -/
def Obligations.JournalCommands : Prop :=
  ∀ (s : State) (path : Path) (dt : Nat) (ok : Bool),
    (Reaches s path → (s.woken path).checkWrite (writeAccess 0x2003 8 0xE5) = .ok [(8, 0xE5)] →
      ∃ t, exec (.journalErase path) s = .next t ∧ AnsweredOk path (s.woken path).eraseCommand t ∧
        t.journal.fwRecords = [] ∧ slotErased t.journal.j1 0 = true ∧ t.obj Obj.commandStatus = 0 ∧
        t.obj Obj.activeRegion = 0 ∧ ∀ k ∈ objKKeys, t.obj k = objDefault k) ∧
    (∃ t, exec (.compaction dt ok) s = .next t ∧
      (s.journal.compacting = false ∨ s.journal.erased s.targetRegion = false → t = s.advance dt) ∧
      (s.journal.compacting = true → s.journal.erased s.targetRegion = true → ok = true →
        t.obj Obj.activeRegion = s.targetRegion ∧ t.obj Obj.journalState = 1 ∧ t.journal.compacting = false ∧
          t.journal.nextSlot = s.snapshotValues.length + 2 ∧ t.journal.fwRecords = s.journal.fwRecords ∧
          (∀ i, i < s.snapshotValues.length + 2 → slotOf (t.journal.region s.targetRegion) i =
            (headerRecord (if s.regionValid then s.obj Obj.generation + 1 else 1)
                (s.journal.eraseCount s.targetRegion) s.snapshotValues.length
                ((s.journal.lastSeq + 1 + s.snapshotValues.length) % 2 ^ 32) ::
              snapshotSlots s.snapshotValues s.journal.lastSeq).getD i blankSlot) ∧
          ∀ k ∈ objKKeys, t.obj k = s.obj k) ∧
      (s.journal.compacting = true → s.journal.erased s.targetRegion = true → ok = false →
        t.obj Obj.activeRegion = s.obj Obj.activeRegion ∧ t.journal.nextSlot = s.journal.nextSlot ∧
          ∀ k ∈ objKKeys, t.obj k = s.obj k)) ∧
    (∃ t, exec (.regionEraseDone dt) s = .next t ∧ t.objs = s.objs ∧
      if s.rst.restored = true then
        s.regionValid = true → s.activeRegion ≤ 1 →
          t.journal.region s.activeRegion = s.journal.region s.activeRegion ∧
          t.journal.erased (1 - s.activeRegion) = true ∧
          (s.journal.erased (1 - s.activeRegion) = false → t.journal.region (1 - s.activeRegion) = [] ∧
            t.journal.eraseCount (1 - s.activeRegion) = s.journal.eraseCount (1 - s.activeRegion) + 1)
      else t = s.advance dt) ∧
    (∃ t, exec (.journalRestore dt) s = .next t ∧
      if s.inReset = false ∧ s.rst.fwRunning = true ∧ s.rst.bistDone = true ∧ s.rst.restored = false then
        t.rst.restored = true ∧ t.rst.ready = true ∧ t.early = [] ∧
        t.rst.bistInForce = (s.advance dt).comeUp.firstSnapshot.bistResult ∧
          t.time.period = t.obj Obj.advNominalPeriodUs * tbPerUs ∧ t.obj Obj.takeState = s.obj Obj.takeState ∧
          (∀ k ∈ shadowKeys, t.obj (forceKey k) = t.obj k) ∧ s.part.svnFloor ≤ t.part.svnFloor
      else t = s.advance dt)

/-- Packets at an optical port. Of a data packet at a port that is not up, or out of LINK_SEQ order, or with a wrong
HCRC, nothing is taken; the last two request replay. A single-packet PUT, PUT with signal, GET, SIGNAL or ACC for
this package that is next on its link and in its stream and passes its checks has its effect on memory, tiles and
flags, and its stream moves on by one: a PUT to HBM stores its bytes, a SIGNAL adds to its flag. IDLE takes
acknowledgment and credits; a corrupt packet requests replay each time; CONTROL brings a matching peer up, is
refused with MALFORMED where its header is, and, next on its link, notes a spare switch and keeps a step record;
that an identity of bring-up is taken without its LINK_SEQ number is the model's choice (log 169) (R281, R282, R285,
    R290, R292, R297). (from
11_optical_fabric.md) -/
def Obligations.FabricPackets : Prop :=
  ∀ (s : State) (k : Nat) (pkt : Packet),
    (∀ q ∈ [(Instr.packetPut k pkt, pktPut), (.packetPutSignal k pkt, pktPutSignal), (.packetGetReq k pkt, pktGetReq),
        (.packetSignal k pkt, pktSignal), (.packetAcc k pkt, pktAcc)],
      let p := withOp q.2 pkt
      let r := s.rxOf (pktSrc p)
      let u := s.applyPacket (portVia k) p r.cur.record
      ((s.port k).state ≠ portUp → exec q.1 s = .next s.settle) ∧
      ((s.port k).state = portUp → PortsQuiet s →
        p.hcrc ≠ packetCrc p ∨ (p.linkNak = false ∧ p.linkSeq ≠ (s.port k).rxSeq) →
        ∃ t, exec q.1 s = .next t ∧ t.mem = s.mem ∧ t.phys = s.phys ∧ t.tiles = s.tiles ∧ t.fabric.rx = s.fabric.rx ∧
          (t.port k).rxSeq = (s.port k).rxSeq ∧ (t.port k).nakWanted = true) ∧
      (LinkNext s k p → PortsQuiet s → pktDst p = s.ownId → pktSrcId p ≠ s.ownId →
        p.channel = chRequest ∨ p.channel = chDispatch → p.first = true → p.last = true → r.next = p.e2eSeq → r.held = [] →
        r.cur.inOp = false → s.packetFault false r.cur p = none →
        ∃ t, exec q.1 s = .next t ∧ (t.rxOf (pktSrc p)).next = (p.e2eSeq + 1) % 2 ^ 16 ∧
          t.mem = u.1.mem ∧ t.phys = u.1.phys ∧ t.tiles = u.1.tiles ∧
          (p.op = pktPut → regionOf p.addr = 0 → s.hbmClean = true → p.payload.length = p.length →
            ∀ i, i < p.length → t.hbmRaw (hbmPart p.addr + i) = p.payload.getD i 0) ∧
          (p.op = pktSignal → (∀ e ∈ (s.lt (tilePart p.addr)).queue, recOpcode e.x ≠ opWait) →
            (t.lt (tilePart p.addr)).flag p.flag = ((s.lt (tilePart p.addr)).flag p.flag + p.addend) % 2 ^ 32))) ∧
    (let q : Packet := { pkt with op := pktIdle }
     (s.port k).state = portUp → q.hcrc = packetCrc q → q.linkNak = false → (s.port k).txQueue = [] → PortsQuiet s →
      ∃ t, exec (.packetIdle k pkt) s = .next t ∧ t.port k = (s.port k).takeReturns pkt ∧ t.tiles = s.tiles ∧
        t.mem = s.mem ∧ t.phys = s.phys) ∧
    ((s.port k).state = portUp → ∃ t, exec (.packetCorrupt k) s = .next t ∧ (t.port k).nakWanted = true ∧
      t.tiles = s.tiles ∧ t.mem = s.mem ∧ t.phys = s.phys ∧ ∃ q, t.out = s.out ++ [.packet k q] ∧ q.linkNak = true) ∧
    ((s.port k).state ≠ portUp → exec (.packetIdle k pkt) s = .next s ∧ exec (.packetCorrupt k) s = .next s) ∧
    (let q : Packet := { pkt with op := pktControl }
     (∀ lane, (s.port k).state ≠ portUp → exec (.packetControl k pkt (.spareSwitch lane)) s = .next s.settle) ∧
      (∀ lane, LinkNext s k q → PortsQuiet s → pktWellFormed q = true → q.first = true → q.last = true →
        ∃ t, exec (.packetControl k pkt (.spareSwitch lane)) s = .next t ∧
          (t.port k).txSpare = (if lane < 8 then some lane else (s.port k).txSpare) ∧
          (t.port k).rxSeq = ((s.port k).rxSeq + 1) % 4096 ∧ t.tiles = s.tiles ∧ t.mem = s.mem) ∧
      (∀ rack pkg role v, q.hcrc ≠ packetCrc q → exec (.packetControl k pkt (.identity rack pkg role v)) s = .next s.settle) ∧
      (∀ rack pkg role v, q.hcrc = packetCrc q → (s.port k).state = portTraining → PortsQuiet s →
        pktWellFormed q = false ∨ q.first = false ∨ q.last = false →
        ∃ t, exec (.packetControl k pkt (.identity rack pkg role v)) s = .next t ∧ (t.port k).state = portTraining ∧
          (q.last = false → Logged (s.bumpFabric 0x0E 1) t 0x230)) ∧
      (∀ rack pkg role v, q.hcrc = packetCrc q → (s.port k).state = portTraining → PortsQuiet s →
        pktWellFormed q = true → q.first = true → q.last = true →
        s.rst.domains.contains (.opticalRx k) = true → role = s.portRole k → 64 * rack + pkg ≠ s.ownId →
        ∃ t, exec (.packetControl k pkt (.identity rack pkg role v)) s = .next t ∧ (t.port k).state = portUp ∧
          (t.port k).peerRack = rack ∧ (t.port k).peerPackage = pkg ∧ (t.port k).peerRole = role % 4) ∧
      (∀ rack pkg step sat maxima, LinkNext s k q → PortsQuiet s → pktDst q = s.ownId → pktWellFormed q = true →
        q.first = true → q.last = true → s.steps.nextFinal ≤ step →
        s.steps.lapsed.contains (64 * rack + pkg, step) = false →
        s.steps.records.any (fun x => x.member == 64 * rack + pkg && x.step == step) = false →
        ∃ t, exec (.packetControl k pkt (.stepRecord rack pkg step sat maxima)) s = .next t ∧
          t.steps = { s.steps with records := s.steps.records ++
            [{ member := 64 * rack + pkg, step := step, saturated := sat, maxima := maxima }] } ∧
          t.tiles = s.tiles ∧ t.mem = s.mem))

/-- Answers, time-outs and re-issues. A RESPONSE, next on its link, that answers the only operation of a command
completes the command with its status; REMOTE_TIMEOUT, and REISSUE of an operation whose time has passed, complete
it with REMOTE_TIMEOUT. One of ISOLATED completes nothing and marks the operation for re-issue. GET data are written
to LOCAL, and what that gave is kept with the operation. REISSUE of an operation in time sends its packet again, with
its number. That SRC_TILE of a RESPONSE or of GET_DATA names the issuing tile is the model's choice (log 38) (R257,
R290, R298, R413). (from 11_optical_fabric.md, 07_accumulation_and_numerics.md) -/
def Obligations.FabricAnswers : Prop :=
  ∀ (s : State) (k l p dt : Nat) (pkt : Packet) (o : RemoteOp) (e : QEntry) (h : HistEntry),
    (s.lt l).phys = some p → (s.lt l).ops = [o] → (s.lt l).queue.find? (fun x => x.id == o.entry) = some e →
    (s.lt l).hist[e.pos]? = some h → o.sent = true → o.own = false → o.answer = none →
    ((∀ x ∈ s.tiles, (x.1 ≠ l → x.2.ops = []) ∧ ∀ q ∈ x.2.queue, q.st = .issued → isFence q.x = false) →
      ∀ (c : Instr) (st : Status),
      ((c = .packetResponse k pkt ∧ LinkNext s k { pkt with op := pktResponse } ∧
          pktDst { pkt with op := pktResponse } = s.ownId ∧ pkt.srcTile = l ∧ o.dst = pktSrcId pkt ∧
          o.lastSeq = pkt.e2eSeq ∧ statusOfCode pkt.status = some st ∧ st ≠ .isolated) ∨
        (c = .remoteTimeout dt l ∧ st = .remoteTimeout ∧ (s.advance dt).opTimedOut o = true) ∨
        (c = .reissue dt l ∧ st = .remoteTimeout ∧ o.reissuing = true ∧ (s.advance dt).opTimedOut o = true)) →
      ∃ t, exec c s = .next t ∧ (t.lt l).ops = [] ∧ (∀ x ∈ (t.lt l).queue, x.id ≠ e.id) ∧
        ∃ h', (t.lt l).hist[e.pos]? = some h' ∧ h'.status = some (opsStatus [{ o with answer := some st }])) ∧
    (LinkNext s k { pkt with op := pktResponse } → PortsAwait s → pktDst { pkt with op := pktResponse } = s.ownId →
      pkt.srcTile = l → o.dst = pktSrcId pkt → o.lastSeq = pkt.e2eSeq → statusOfCode pkt.status = some .isolated →
      ∃ t, exec (.packetResponse k pkt) s = .next t ∧ (t.lt l).ops = [{ o with reissuing := true }] ∧
        (t.lt l).queue = (s.lt l).queue ∧ (t.lt l).hist = (s.lt l).hist ∧ t.phys = s.phys ∧ t.mem = s.mem) ∧
    (∀ i, LinkNext s k { pkt with op := pktGetData } → PortsAwait s → pktDst { pkt with op := pktGetData } = s.ownId →
      pkt.srcTile = l → o.dst = pktSrcId pkt → o.lastSeq = pkt.e2eSeq → o.getLocal = some i →
      let r := s.deliverGet l o pkt.addend pkt.payload
      ∃ t, exec (.packetGetData k pkt) s = .next t ∧ t.phys = r.1.phys ∧ t.mem = r.1.mem ∧
        (t.lt l).ops = if r.2 = .ok then [o] else [{ o with base := worseEcc o.base r.2 }]) ∧
    (∀ (q : Packet) (j : Nat), o.reissuing = true → (s.advance dt).opTimedOut o = false → o.packets = [q] → 1 ≤ o.left →
      neverRefused q = false → s.trackOf q = none → pktWellFormed q = true → s.routeFault q = none →
      s.routePort q.dstRack q.dstPackage = some j → (s.port j).txQueue = [] → (s.port j).replayBuffer.length < 2048 →
      0 < (s.port j).credits.getD q.channel 0 → q.channel < 4 →
      ∃ t, exec (.reissue dt l) s = .next t ∧ (∃ q', .packet j q' ∈ t.out ∧ q'.payload = q.payload ∧
        q'.e2eSeq = q.e2eSeq ∧ q'.addr = q.addr ∧ q'.hops = q.hops + 1) ∧ (t.lt l).ops = [{ o with reissuing := false }] ∧
        t.mem = s.mem)

/-- Reduction rounds are combined, and missing packets skipped. ROUND_COMBINE with a complete round on a placed tile
takes the oldest one off, writes its reduced pairs to the result buffer, sets its STATE to 2 and adds to its
flag; with none it changes nothing. REORDER_HOLD_EXPIRY of a stream that holds one packet behind a gap, once
REORDER_HOLD_US has passed since the gap appeared, skips to that packet and takes it, so that nothing is held;
before that only time passes (R196, R292, R296). (from 11_optical_fabric.md, 07_accumulation_and_numerics.md) -/
def Obligations.RoundsAndReordering : Prop :=
  ∀ (s : State) (l p a dt : Nat) (src : SrcId),
    (s.fabric.ready.find? (fun r => r.1 == l) = some (l, a) → (s.lt l).phys = some p → 64 ≤ a →
      let hd := s.roundHeader p a
      let cs := (s.roundRecs l a hd).zipIdx.map (fun r => (r.1.kslice, s.stagedPairs p hd r.2))
      let bytes := (s.reduceRound cs).flatMap (fun x => leBytes 8 x.bits.toNat)
      ∃ t, exec (.roundCombine l) s = .next t ∧ t.fabric.ready = s.fabric.ready.erase (l, a) ∧
        (∀ i, i < bytes.length → t.storeByte p (a + i) = bytes.getD i 0) ∧ rhState (t.roundHeader p a) = 2 ∧
        ((∀ e ∈ (s.lt l).queue, recOpcode e.x ≠ opWait) →
          (t.lt l).flag (rhFlag hd) = ((s.lt l).flag (rhFlag hd) + rhAddend hd) % 2 ^ 32)) ∧
    (s.fabric.ready.find? (fun r => r.1 == l) = none → exec (.roundCombine l) s = .next s) ∧
    (∀ (q : Arrived) (t0 : Nat), (s.rxOf src).held = [q] → (s.rxOf src).holdTb = some t0 → q.pkt.e2eSeq < 2 ^ 16 →
      (s.rxOf src).next < 2 ^ 16 →
      ∃ t, exec (.reorderHoldExpiry dt src) s = .next t ∧
        if t0 + s.obj Obj.reorderHoldUs * tbPerUs ≤ (s.advance dt).time.tb then
          (t.rxOf src).next = (q.pkt.e2eSeq + 1) % 2 ^ 16 ∧ (t.rxOf src).held = [] ∧ (t.rxOf src).holdTb = none
        else t = s.advance dt)

/-- Wavelengths, silent peers, laser inputs and bring-up. The first received wavelength of an up port to fail is
replaced by λ8, and the peer is told as soon as the link
can carry it; a second brings the port down. A silent peer brings an up port down.
LASER_LOW sets the bit of its input, and its ports are down and without light; LASER_RESTORED clears the bit and
the ports with a role that are neither unusable nor fenced train again where the fabric is enabled. BRINGUP_RETRY sends
    the identity of a training
port. FABRIC_UP_TIMEOUT 200 ms after enabling declares the fabric up; before, and on a port or input in no such
state, only time passes (R277, R282, R287, R299). (from 11_optical_fabric.md) -/
def Obligations.FabricPorts : Prop :=
  ∀ (s : State) (k lane j dt : Nat),
    ((s.port k).state = portUp → lane < 8 → (s.port k).rxSpare = none →
      ∃ t, exec (.wavelengthFail k lane) s = .next t ∧ (t.port k).rxSpare = some lane ∧ (t.port k).state = portUp ∧
        ((s.port k).txQueue = [] → (s.port k).replayBuffer.length < 2048 → 0 < (s.port k).credits.getD chControl 0 →
          ∃ q, .control k q (.spareSwitch lane) ∈ t.out)) ∧
    (∀ m, (s.port k).state = portUp → lane ≤ 8 → (s.port k).rxSpare = some m → lane ≠ m →
      ∃ t, exec (.wavelengthFail k lane) s = .next t ∧ (t.port k).state ≠ portUp) ∧
    ((s.port k).state ≠ portUp ∨ 8 < lane ∨ (s.port k).rxSpare = some lane ∨
        (lane = 8 ∧ (s.port k).rxSpare = none) → exec (.wavelengthFail k lane) s = .next s.settle) ∧
    ((s.port k).state = portUp → ∃ t, exec (.peerSilence dt k) s = .next t ∧ (t.port k).state ≠ portUp) ∧
    ((s.port k).state ≠ portUp → exec (.peerSilence dt k) s = .next (s.advance dt).settle) ∧
    (∃ t, exec (.laserLow dt j) s = .next t ∧
      if s.inReset = false ∧ j < s.laserInputs ∧ bitAt (s.obj Obj.laserLow) j = false then
        bitAt (t.obj Obj.laserLow) j = true ∧ ∀ i ∈ inputPorts j, (t.port i).state ≠ portUp ∧ (t.port i).dead = true
      else t = s.advance dt) ∧
    (∃ t, exec (.laserRestored dt j) s = .next t ∧
      if j < s.laserInputs ∧ bitAt (s.obj Obj.laserLow) j = true then
        bitAt (t.obj Obj.laserLow) j = false ∧ ∀ i ∈ inputPorts j, (t.port i).dead = false ∧
          (s.fabric.enabled = true → s.portRole i ≠ 0 → (s.port i).unusable = false → s.blockDown (.port i) = false →
            (t.port i).state = portTraining)
      else t = s.advance dt) ∧
    (∃ t, exec (.bringupRetry dt k) s = .next t ∧
      if s.fabric.enabled = true ∧ (s.port k).state = portTraining then
        (let m := ControlMsg.identity (s.obj Obj.ownRack) (s.obj Obj.ownPackage) (s.portRole k) s.part.variant
        t = (s.advance dt).emit (.control k (sealPacket (s.controlEntry 0 0 m).pkt) m))
      else t = s.advance dt) ∧
    (∃ t, exec (.fabricUpTimeout dt) s = .next t ∧
      if s.obj Obj.fabricState = fabricBringup ∧ s.fabric.enabledTb + 200000 * tbPerUs ≤ (s.advance dt).time.tb then
        t.obj Obj.fabricState = fabricUp ∧ t.fabric = s.fabric
      else t = s.advance dt)

/-- Nothing runs while a reset source is asserted, and the part comes up in order. Every step keeps: while a reset
source is asserted no firmware, no recovery service, no clock domain, no timebase and no EtherCAT controller
runs and the part is neither ready nor restored; it is ready only once its journal is restored or in the
recovery service; it is restored only with firmware running and BIST done; and the recovery service runs only
without firmware. (from 15_reset_power_and_self_test.md, 16_security_and_boot.md) -/
def Obligations.StartUpOrderKept : Prop :=
  ∀ (s t : State), StartUpOrder s → step s = .next t → StartUpOrder t

/-- Asserting and releasing the reset sources. With no source asserted, the fall of PWR_GOOD, RST_N or PERST_N from
high resets the part: RESET_COUNT rises by one, LAST_CAUSES is the cause alone after ready and gains it before,
tiles, objects and HBM are as after reset, and the part's manufacture stays. With one asserted it only adds its
cause. The rise of a low pin releases its source. On a pin at that level only time passes. Loss of the always-on
supply leaves RESET_COUNT 1 and power-on with the low pins as causes; that it leaves the PWR_GOOD pin low is the
model's choice (log 121) (R364 to R367, R386). (from
15_reset_power_and_self_test.md) -/
def Obligations.ResetSources : Prop :=
  ∀ (s : State) (dt : Nat),
    (∀ q ∈ [((Instr.pwrGoodFall dt, Instr.pwrGoodRise dt), (causePowerOn, s.rst.pwrGood)),
        ((.rstNAssert dt, .rstNRise dt), (causeRst, s.rst.rstN)), ((.perstNAssert dt, .perstNRise dt), (causePerst,
            s.rst.perstN))],
      (∃ t, exec q.1.1 s = .next t ∧
        (q.2.2 = false → t = s.advance dt) ∧
        (q.2.2 = true → s.rst.asserted = 0 → t.rst.asserted = q.2.1 ∧
          t.rst.lastCauses = (if s.rst.ready then q.2.1 else s.rst.lastCauses ||| q.2.1) ∧
          t.rst.causeHistory = s.rst.causeHistory ||| q.2.1 ∧ t.rst.resetCount = (s.rst.resetCount + 1) % 2 ^ 32 ∧
          t.rst.ready = false ∧ t.tiles = [] ∧ t.objs = State.reset.objs ∧ t.mem = State.reset.mem ∧ t.part = s.part ∧
          t.route = State.reset.route ∧ t.reels = State.reset.reels) ∧
        (q.2.2 = true → s.rst.asserted ≠ 0 → t.rst.asserted = s.rst.asserted ||| q.2.1 ∧
          t.rst.lastCauses = s.rst.lastCauses ||| q.2.1 ∧ t.rst.causeHistory = s.rst.causeHistory ||| q.2.1 ∧
          t.rst.resetCount = s.rst.resetCount ∧ t.objs = s.objs ∧ t.tiles = s.tiles)) ∧
      (∃ t, exec q.1.2 s = .next t ∧
        (q.2.2 = true → t = s.advance dt) ∧
        (q.2.2 = false → t.rst.asserted = s.rst.asserted - (s.rst.asserted &&& q.2.1) ∧ t.objs = s.objs ∧
          t.rst.lastCauses = s.rst.lastCauses ∧ t.rst.resetCount = s.rst.resetCount ∧ t.tiles = s.tiles))) ∧
    (∃ t, exec .alwaysOnSupplyLoss s = .next t ∧ t.rst.pwrGood = false ∧ t.rst.resetCount = 1 ∧
      t.rst.lastCauses = causePowerOn + s.rst.pinSources ∧ t.rst.causeHistory = causePowerOn + s.rst.pinSources ∧
      t.rst.asserted = causePowerOn + s.rst.pinSources ∧ t.sec.debugLevel = 0 ∧ t.sec.debugFailures = 0 ∧
      t.sec.otherOnce = none ∧ t.sec.fuseLatch = false ∧ t.sec.zeroised = false ∧ t.tiles = [] ∧
          t.objs = State.reset.objs ∧ t.part = s.part)

/-- CFG_SENSE, clock domains, the boot ROM, BIST and the sensors. Out of reset: CFG_SENSE latches once the code of
its resistance, a shorted or open pin counting as code 8, and its bit 1 sets the mode. CLOCK_GOOD releases a
waiting domain; a die's domain whose time passes stays out, and after the restore its block too, while the BIST result
stands (R4); that the receive domains have no limit and what a time-out in the exit from Standby does are the
model's choices (logs 137, 174), as is the part being ready at the BOOT_VERIFY that finds no good slot (log 74). Once
its clocks run, the boot ROM reads the fuses and starts the slot that verifies, the other where the first fails,
or the recovery service, and the EtherCAT controller comes up. BIST_COMPLETE, after the dies' clocks,
    keeps its finding and leaves HBM zero. Two
hot samples in a row trip; cool readings release the trip. An idle block is noted. Elsewhere only time passes
(R371 to R380, R389, R396). (from 15_reset_power_and_self_test.md, 16_security_and_boot.md) -/
def Obligations.StartUp : Prop :=
  ∀ (s : State) (dt ohms p : Nat) (d : Domain) (f : BistFinding) (raw : List Nat) (b : Block),
    (∃ t, exec (.cfgSenseSample dt ohms) s = .next t ∧
      if s.inReset = false ∧ s.rst.cfgSampled = false then
        t.rst.cfgSampled = true ∧
        t.rst.cfgCode = (if 500 ≤ ohms ∧ ohms ≤ 32000 then cfgBounds.countP (fun b => decide (b ≤ ohms)) else 8) ∧
          t.rst.cfgFault = decide (ohms < 500 ∨ 32000 < ohms) ∧ t.obj Obj.modeInForce = bitsOf t.rst.cfgCode 1 1 ∧
          t.obj Obj.combinationMode = bitsOf t.rst.cfgCode 1 1
      else t = s.advance dt) ∧
    (∃ t, exec (.clockGood dt d) s = .next t ∧
      if s.domainWaits d = true then t.rst.domains = s.rst.domains ++ [d] ∧ t.tiles = s.tiles ∧ t.objs = s.objs ∧
        (d = .timebase → t.time.running = true) ∧
        (d = .ecat → s.rst.fwRunning = true ∨ s.rst.recovery = true → s.ecatOff = false →
          s.blockDown .ecatController = false → t.ecat.released = true) ∧
        (∀ i, d = .pcie i → t.linkAlive = true → ∃ w ∈ [1, 2, 4, 8, 16], t.host.linkWidth = min s.host.widest w)
      else t = s.advance dt) ∧
    (∃ t, exec (.clockGoodTimeout dt d) s = .next t ∧
      if s.domainWaits d = true ∧ Domain.ofDie d = true then
        t.rst.failedDomains = s.rst.failedDomains ++ [d] ∧
        (s.rst.restored = false →
          t = { s.advance dt with rst := { s.rst with failedDomains := s.rst.failedDomains ++ [d] } }) ∧
        (s.rst.restored = true → t.rst.bistInForce = s.rst.bistInForce ∧
          (∀ i, d = .tile i → (t.pt i).sleeping = true ∧ (t.pt i).unusable = true) ∧
          (∀ i, d = .hbmController i ∨ d = .hbmPhy i → t.stackIsLost i = true) ∧
          (∀ i, d = .opticalTx i → (t.port i).unusable = true) ∧
          (∀ i, d = .cnSn i → t.rst.unusableBlocks.contains (.network i) = true))
      else t = s.advance dt) ∧
    (∃ t, exec (.bootVerify dt) s = .next t ∧
      if s.inReset = false ∧ s.rst.fwRunning = false ∧ s.rst.recovery = false ∧ s.rst.cfgSampled = true ∧
          s.bootClocks = true then
        t.sec.otherOnce = none ∧ t.sec.fuses = s.readFuses.sec.fuses ∧
        (s.rst.domains.contains .ecat = true → s.ecatOff = false → s.blockDown .ecatController = false →
          t.ecat.released = true) ∧
        (if s.readFuses.trySlot s.firstSlot = 0 then t.rst.fwRunning = true ∧ t.sec.header = imageHeader (s.sec.slot s.firstSlot)
        else if s.readFuses.trySlot (1 - s.firstSlot) = 0 then
          t.rst.fwRunning = true ∧ t.sec.header = imageHeader (s.sec.slot (1 - s.firstSlot))
        else t.rst.recovery = true ∧ t.rst.ready = true ∧ t.rst.fwRunning = false)
      else t = s.advance dt) ∧
    (∃ t, exec (.bistComplete dt f) s = .next t ∧
      if s.inReset = false ∧ s.rst.fwRunning = true ∧ s.rst.bistDone = false ∧ s.clocksSettled = true then
        t.rst.bistDone = true ∧ t.rst.bistFound = some f ∧ (∀ a, t.hbmRaw a = 0) ∧ t.mem.badBursts = [] ∧
          t.obj Obj.bistDurationMs = f.durationMs % 2 ^ 16
      else t = s.advance dt) ∧
    (∃ t, exec (.tempSample dt raw) s = .next t ∧
      (s.part.hot raw = true → s.rst.hotSample = true → s.rst.thermTrip = false → t.rst.thermTrip = true ∧
        t.rst.asserted &&& causeThermal = causeThermal ∧ t.rst.causeHistory &&& causeThermal = causeThermal) ∧
      (s.part.hot raw = false ∨ s.rst.hotSample = false →
        t.rst.rawTemps = raw ∧ t.rst.hotSample = s.part.hot raw ∧ t.rst.thermTrip = s.rst.thermTrip ∧
          t.rst.asserted = s.rst.asserted ∧ t.tiles = s.tiles ∧ t.mem = s.mem)) ∧
    (∃ t, exec (.thermalRelease dt raw) s = .next t ∧
      if s.rst.thermTrip = true ∧ s.part.cool raw = true then t.rst.thermTrip = false ∧
        t.rst.asserted = s.rst.asserted - (s.rst.asserted &&& causeThermal) ∧ t.tiles = s.tiles ∧ t.objs = s.objs
      else t = s.advance dt) ∧
    (p < s.part.variant.tiles → (s.pt p).sleeping = false → ∃ t, exec (.blockIdle (.tile p)) s = .next t ∧
      t.pt p = { s.pt p with idle := true } ∧ (∀ q, q ≠ p → t.pt q = s.pt q) ∧ t.tiles = s.tiles ∧ t.mem = s.mem) ∧
    ((∀ q, b ≠ .tile q) → s.blockFitted b = true → s.blockAsleep b = false → ∃ t, exec (.blockIdle b) s = .next t ∧
        b ∈ t.rst.idleBlocks ∧
      t.phys = s.phys ∧ t.tiles = s.tiles ∧ t.mem = s.mem ∧ t.objs = s.objs)

/-- The test port. Every instruction of the test port selects its register and keeps tiles and HBM, SCAN_ENABLE
apart. While TRST_N is low the port is held in reset and no instruction does anything; that its register then holds
IDCODE is the model's choice (log 188). EXTEST, SAMPLE/PRELOAD and BYPASS do nothing else in this model (the boundary
    register is left out, log
75). IDCODE shifts out the part number in bits 27 to 12. DBG_CHALLENGE gives a fresh challenge unless debug is
disabled or three responses have failed; DBG_RESPONSE uses it up, a verified one raising the level to at least
its own and any other counting as failed, one without a challenge too; DBG_STATUS shows the level and the count (the
last case and the four-byte layout are the model's choices, log 77; a verified response takes signatures that the
model leaves open, so no test shows one). SCAN_ENABLE runs its five
steps only at level 2 (R405, R406). (from 16_security_and_boot.md) -/
def Obligations.TestPort : Prop :=
  ∀ (s : State) (code level k : Nat) (keys ed ml : List Byte),
    (s.sec.trstN = false → ∀ c ∈ [Instr.extest, .samplePreload, .bypass code, .idcode, .dbgChallenge,
      .dbgResponse level keys ed ml, .dbgStatus, .scanEnable none, .scanEnable (some k)], exec c s = .next s) ∧
    (exec (.registerWrite (.trst false)) s = .next { s with sec := { s.sec with trstN := false, jtagIr := 0x01 } } ∧
      exec (.registerWrite (.trst true)) s = .next { s with sec := { s.sec with trstN := true } }) ∧
    (s.sec.trstN = true → exec .extest s = .next { s with sec := { s.sec with jtagIr := 0x00 } } ∧
    exec .samplePreload s = .next { s with sec := { s.sec with jtagIr := 0x02 } } ∧
    exec (.bypass code) s = .next { s with sec := { s.sec with jtagIr := code % 256 } } ∧
    (∃ t, exec .idcode s = .next t ∧ t.sec = { s.sec with jtagIr := 0x01 } ∧ t.tiles = s.tiles ∧ t.mem = s.mem ∧
      ∃ x, x < 2 ^ 32 ∧ t.out = s.out ++ [.tdo (leBytes 4 x)] ∧ bitsOf x 27 12 = s.part.variant.partNumber) ∧
    (∃ t, exec .dbgChallenge s = .next t ∧ t.tiles = s.tiles ∧ t.mem = s.mem ∧
      if s.debugDisabled = true ∨ 3 ≤ s.sec.debugFailures then
        t.sec = { s.sec with jtagIr := 0x10, challenge := none } ∧ t.out = s.out
      else ∃ c : BitVec 256, t.sec = { s.sec with jtagIr := 0x10, challenge := some c } ∧
        t.out = s.out ++ [.tdo (leBytes 32 c.toNat)]) ∧
    (∃ t, exec (.dbgResponse level keys ed ml) s = .next t ∧ t.sec.challenge = none ∧ t.tiles = s.tiles ∧ t.mem = s.mem ∧
      (∀ c, s.sec.challenge = some c → (level = 1 ∨ level = 2) → s.debugVerifies c level keys ed ml = true →
        t.sec.debugLevel = max s.sec.debugLevel level ∧ t.sec.debugFailures = s.sec.debugFailures) ∧
      ((∀ c, s.sec.challenge = some c → (level ≠ 1 ∧ level ≠ 2) ∨ s.debugVerifies c level keys ed ml = false) →
        t.sec.debugLevel = s.sec.debugLevel ∧ t.sec.debugFailures = s.sec.debugFailures + 1)) ∧
    (∃ t, exec .dbgStatus s = .next t ∧ t.sec = { s.sec with jtagIr := 0x12 } ∧
      t.out = s.out ++ [.tdo (leBytes 1 s.sec.debugLevel ++ leBytes 1 (min s.sec.debugFailures 255) ++
        leBytes 1 (if s.sec.zeroised then 1 else 0) ++ leBytes 1 s.sec.scanFailStep)]) ∧
    (s.sec.debugLevel ≠ 2 → exec (.scanEnable none) s = .next { s with sec := { s.sec with jtagIr := 0x20 } } ∧
      exec (.scanEnable (some k)) s = .next { s with sec := { s.sec with jtagIr := 0x20 } }) ∧
    (s.sec.debugLevel = 2 → (∃ t, exec (.scanEnable none) s = .next t ∧ t.sec.scanEnabled = true ∧ t.sec.heldForScan = true ∧
        t.sec.zeroised = true ∧ t.sec.identity = false ∧ t.sec.fuseLatch = true ∧ t.sec.scanFailStep = 0 ∧
        (∀ q, q < s.part.variant.tiles → (t.pt q).tableFill = .zeroed) ∧
        (∀ f, t.sec.fuses = some f → f.deviceSecret = 0) ∧ t.tiles = []) ∧
      (1 ≤ k → k ≤ 5 → ∃ t, exec (.scanEnable (some k)) s = .next t ∧ t.sec.scanEnabled = false ∧ t.sec.scanFailStep = k)))

/-- The status space. The model's statuses have the codes of R18 and of its extension, each status its own code, and
a code names the status that has it. (states R18) -/
def Obligations.StatusCodes : Prop :=
  statusCode .ok = 0x00 ∧ statusCode .zeroWork = 0x01 ∧ statusCode .outOfRange = 0x04 ∧
    statusCode .quireViolation = 0x05 ∧ statusCode .unmapped = 0x08 ∧ statusCode .forbidden = 0x09 ∧
    statusCode .absentUnit = 0x0C ∧ statusCode .eccRecovered = 0x10 ∧ statusCode .eccLost = 0x11 ∧
    statusCode .isolated = 0x20 ∧ statusCode .notReady = 0x30 ∧ statusCode .malformed = 0x3F ∧
    (∀ st : Status, statusCode st < 2 ^ 8 ∧ statusOfCode (statusCode st) = some st) ∧
    (∀ st : Status, st ∉ [Status.ok, .zeroWork, .outOfRange, .quireViolation, .unmapped, .forbidden, .absentUnit, .eccRecovered,
      .eccLost, .isolated, .notReady, .malformed] → 0x40 ≤ statusCode st ∧ statusCode st ≤ 0x7F)
end

