-- ==== Sys2Proof/Laws/Part.lean ====
section
/-!
SUPPORT. Every operation of the model but the fuses of R401 at the journal restore leaves what manufacture fixed alone.
-/

namespace Sys2Proof.Machine

open Sys2Proof

@[simp] theorem foldl_part {β : Type} (g : State → β → State) (l : List β) (s : State) (h : ∀ t b, (g t b).part = t.part) : (l.foldl g s).part = s.part := by
  induction l generalizing s with
  | nil => rfl
  | cons a l ih => rw [List.foldl_cons, ih, h]

@[simp] theorem foldl1_part {α β : Type} (g : State × α → β → State × α) (l : List β) (x : State × α) (h : ∀ t b, (g t b).1.part = t.1.part) : (l.foldl g x).1.part = x.1.part := by
  induction l generalizing x with
  | nil => rfl
  | cons a l ih => rw [List.foldl_cons, ih, h]

@[simp] theorem State.setObj_part (s : State) (k : Nat) (v : Nat) :
    (State.setObj s k v).part = s.part := by
  simp [State.setObj, *]

@[simp] theorem State.addObj_part (s : State) (k : Nat) (bits : Nat) (n : Nat) :
    (State.addObj s k bits n).part = s.part := by
  simp [State.addObj, *]

@[simp] theorem State.incObj_part (s : State) (k : Nat) :
    (State.incObj s k).part = s.part := by
  simp [State.incObj, *]

@[simp] theorem State.wakeBlock_part (s : State) (b : Block) :
    (State.wakeBlock s b).part = s.part := by
  unfold State.wakeBlock; (repeat' split) <;> simp [*]

@[simp] theorem State.emit_part (s : State) (o : Out) :
    (State.emit s o).part = s.part := by
  simp [State.emit, *]

@[simp] theorem State.useFree_part (s : State) :
    (State.useFree s).part = s.part := by
  simp [State.useFree, *]

@[simp] theorem State.setLt_part (s : State) (l : Nat) (t : LogTile) :
    (State.setLt s l t).part = s.part := by
  simp [State.setLt, *]

@[simp] theorem State.setPt_part (s : State) (p : Nat) (t : PhysTile) :
    (State.setPt s p t).part = s.part := by
  simp [State.setPt, *]

@[simp] theorem State.storeWrite_part (s : State) (p : Nat) (a : Nat) (bs : List Byte) :
    (State.storeWrite s p a bs).part = s.part := by
  simp [State.storeWrite, *]

@[simp] theorem State.setCore_part (s : State) (c : Nat) (k : CoreSt) :
    (State.setCore s c k).part = s.part := by
  simp [State.setCore, *]

@[simp] theorem State.interruptCore_part (s : State) (c : Nat) :
    (State.interruptCore s c).part = s.part := by
  unfold State.interruptCore; simp only []; (repeat' split) <;> simp [*]

@[simp] theorem State.interruptCores_part (s : State) :
    (State.interruptCores s).part = s.part := by
  simp [State.interruptCores, *]

@[simp] theorem State.sendVector_part (s : State) (v : Nat) :
    (State.sendVector s v).part = s.part := by
  unfold State.sendVector; simp only []; (repeat' split) <;> simp [*]

@[simp] theorem State.testRelease_part (s : State) (g : Nat) :
    (State.testRelease s g).part = s.part := by
  unfold State.testRelease; simp only []; (repeat' split) <;> simp [*]

@[simp] theorem State.setPending_part (s : State) (src : Nat) :
    (State.setPending s src).part = s.part := by
  simp [State.setPending, *]

@[simp] theorem State.raise_part (s : State) (src : Nat) :
    (State.raise s src).part = s.part := by
  unfold State.raise; (repeat' split) <;> simp [*]

@[simp] theorem State.newEntry_part (s : State) (code : Nat) (unit : Nat) (status : Nat) (detail : Nat) (ts : Nat) (take : Nat) (repeats : Nat) :
    (State.newEntry s code unit status detail ts take repeats).part = s.part := by
  simp only [State.newEntry, apply_ite State.part, State.raise_part, State.incObj_part, State.addObj_part, State.setObj_part, ite_self]

@[simp] theorem State.earlyEvent_part (s : State) (code : Nat) (unit : Nat) (status : Nat) (detail : Nat) :
    (State.earlyEvent s code unit status detail).part = s.part := by
  unfold State.earlyEvent; (repeat' split) <;> simp [*]

@[simp] theorem State.log_part (s : State) (code : Nat) (unit : Nat) (status : Status) (detail : Nat) :
    (State.log s code unit status detail).part = s.part := by
  simp only [State.log, apply_ite State.part, State.earlyEvent_part, State.newEntry_part, State.setObj_part, ite_self]

@[simp] theorem State.event_part (s : State) (src : Nat) (unit : Nat) (status : Status) (detail : Nat) :
    (State.event s src unit status detail).part = s.part := by
  unfold State.event; (repeat' split) <;> simp [*]

@[simp] theorem State.flushEarly_part (s : State) :
    (State.flushEarly s).part = s.part := by
  unfold State.flushEarly; (try dsimp only); (repeat' split) <;> (first | (simp_all; done) | (rw [foldl_part]; intro t b; (repeat' split) <;> simp_all))

@[simp] theorem State.maskFault_part (s : State) :
    (State.maskFault s).part = s.part := by
  unfold State.maskFault; simp only []; (repeat' split) <;> simp [*]

@[simp] theorem State.markFaultAnswers_part (s : State) :
    (State.markFaultAnswers s).part = s.part := by
  simp [State.markFaultAnswers, *]

@[simp] theorem State.countFault_part (s : State) :
    (State.countFault s).part = s.part := by
  simp [State.countFault, *]

@[simp] theorem State.failTake_part (s : State) :
    (State.failTake s).part = s.part := by
  unfold State.failTake; simp only []; (repeat' split) <;> simp [*]

@[simp] theorem State.failOn_part (s : State) (st : Status) :
    (State.failOn s st).part = s.part := by
  unfold State.failOn; (repeat' split) <;> simp [*]

@[simp] theorem State.countTb_part (s : State) (dt : Nat) :
    (State.countTb s dt).part = s.part := by
  unfold State.countTb; (repeat' split) <;> simp [*]

@[simp] theorem State.applyCal_part (s : State) (n : Nat) (sub : Nat) :
    (State.applyCal s n sub).part = s.part := by
  simp [State.applyCal, *]

@[simp] theorem State.applyCals_part (s : State) (n : Nat) :
    (State.applyCals s n).part = s.part := by
  simp [State.applyCals, *]

@[simp] theorem State.latchLot_part (s : State) :
    (State.latchLot s).part = s.part := by
  simp [State.latchLot, *]

@[simp] theorem State.latchInputsAt_part (s : State) (t : Nat) :
    (State.latchInputsAt s t).part = s.part := by
  unfold State.latchInputsAt; (repeat' split) <;> simp [*]

@[simp] theorem State.latchInputs_part (s : State) :
    (State.latchInputs s).part = s.part := by
  simp [State.latchInputs]

@[simp] theorem State.freeRun_part (s : State) (since : Nat) :
    (State.freeRun s since).part = s.part := by
  unfold State.freeRun; simp only []; (repeat' split) <;> simp [*]

@[simp] theorem State.sync1Latch_part (s : State) :
    (State.sync1Latch s).part = s.part := by
  unfold State.sync1Latch; simp only []; (repeat' split) <;> simp [*]

@[simp] theorem State.advance_part (s : State) (dt : Nat) :
    (State.advance s dt).part = s.part := by
  simp [State.advance]

@[simp] theorem State.wakeStacks_part (s : State) (a : Nat) (n : Nat) :
    (State.wakeStacks s a n).part = s.part := by
  unfold State.wakeStacks; (repeat' split) <;> simp [*]

@[simp] theorem State.putBurst_part (s : State) (b : Nat) (bytes : List Byte) :
    (State.putBurst s b bytes).part = s.part := by
  unfold State.putBurst; simp only []; (repeat' split) <;> simp [*]

@[simp] theorem State.correctBurst_part (s : State) (b : Nat) :
    (State.correctBurst s b).part = s.part := by
  simp [State.correctBurst]

@[simp] theorem State.readBurst_part (s : State) (fallback : Bool) (acc : Status) (b : Nat) :
    (State.readBurst s fallback acc b).1.part = s.part := by
  unfold State.readBurst; simp only []; (repeat' split) <;> simp [*]

@[simp] theorem State.noteEccLost_part (s : State) (a : Nat) :
    (State.noteEccLost s a).part = s.part := by
  simp [State.noteEccLost, *]

@[simp] theorem State.hbmTouch_part (s : State) (fallback : Bool) (a : Nat) (n : Nat) :
    (State.hbmTouch s fallback a n).1.part = s.part := by
  unfold State.hbmTouch; simp only []; (repeat' split) <;> simp [*]

@[simp] theorem State.hbmStore_part (s : State) (a : Nat) (b : Byte) :
    (State.hbmStore s a b).part = s.part := by
  unfold State.hbmStore; simp only []; (repeat' split) <;> simp [*]

@[simp] theorem State.hbmStoreList_part (s : State) (a : Nat) (x2 : List Byte) :
    (State.hbmStoreList s a x2).part = s.part := by
  induction x2 generalizing s a <;> simp_all [State.hbmStoreList]

@[simp] theorem State.writeBurst_part (s : State) (a : Nat) (n : Nat) (acc : Status) (b : Nat) :
    (State.writeBurst s a n acc b).1.part = s.part := by
  unfold State.writeBurst; simp only []; (repeat' split) <;> simp [*]

@[simp] theorem State.hbmWriteOne_part (s : State) (a : Nat) (bs : List Byte) :
    (State.hbmWriteOne s a bs).1.part = s.part := by
  unfold State.hbmWriteOne; simp only []; (repeat' split) <;> simp [*]

@[simp] theorem State.hbmWrite_part (s : State) (a : Nat) (bs : List Byte) :
    (State.hbmWrite s a bs).1.part = s.part := by
  unfold State.hbmWrite; simp only []; (repeat' split) <;> simp [*]

@[simp] theorem State.emitWrites_part (s : State) (a : Nat) (bs : List Byte) :
    (State.emitWrites s a bs).part = s.part := by
  simp [State.emitWrites]

@[simp] theorem State.emitReads_part (s : State) (a : Nat) (n : Nat) :
    (State.emitReads s a n).part = s.part := by
  simp [State.emitReads]

@[simp] theorem State.hostStorePiece_part (s : State) (a : Nat) (bs : List Byte) :
    (State.hostStorePiece s a bs).part = s.part := by
  unfold State.hostStorePiece; simp only []; (repeat' split) <;> simp [*]

@[simp] theorem State.hostStoreWrite_part (s : State) (a : Nat) (bs : List Byte) :
    (State.hostStoreWrite s a bs).part = s.part := by
  unfold State.hostStoreWrite; simp only []; (repeat' split) <;> simp [*]

@[simp] theorem State.spaceTouch_part (s : State) (space : Nat) (a : Nat) (n : Nat) :
    (State.spaceTouch s space a n).1.part = s.part := by
  unfold State.spaceTouch; (repeat' split) <;> simp [*]

@[simp] theorem State.hbmWriteChecked_part (s : State) (a : Nat) (bs : List Byte) :
    (State.hbmWriteChecked s a bs).1.part = s.part := by
  unfold State.hbmWriteChecked; (repeat' split) <;> simp [*]

@[simp] theorem State.spaceWrite_part (s : State) (p : Nat) (space : Nat) (a : Nat) (bs : List Byte) :
    (State.spaceWrite s p space a bs).1.part = s.part := by
  unfold State.spaceWrite; (repeat' split) <;> simp [*]

@[simp] theorem State.spaceWriteAll_part (s : State) (p : Nat) (space : Nat) (rows : List (Nat × List Byte)) :
    (State.spaceWriteAll s p space rows).1.part = s.part := by
  simp [State.spaceWriteAll, *]

@[simp] theorem State.touchDesc_part (s : State) (d : Desc) :
    (State.touchDesc s d).1.part = s.part := by
  simp [State.touchDesc, *]

@[simp] theorem State.repairWords_part (s : State) (p : Nat) (used : List Nat) :
    (State.repairWords s p used).1.part = s.part := by
  unfold State.repairWords; simp only []; (repeat' split) <;> simp [*]

@[simp] theorem State.repairParity_part (s : State) (l : Nat) (p : Nat) (stream : Nat) (drawn : List Nat) :
    (State.repairParity s l p stream drawn).1.part = s.part := by
  unfold State.repairParity; simp only []; (repeat' split) <;> simp [*]

@[simp] theorem State.deliver_part (s : State) (l : Nat) (id : Nat) (elem : Nat) (vals : List Val) :
    (State.deliver s l id elem vals).part = s.part := by
  unfold State.deliver; simp only []; (repeat' split) <;> simp [*]

@[simp] theorem State.noteSaturation_part (s : State) (l : Nat) (cls : Nat) (sats : Nat) :
    (State.noteSaturation s l cls sats).part = s.part := by
  unfold State.noteSaturation; simp only []; (repeat' split) <;> simp [*]

@[simp] theorem State.writeVals_part (s : State) (l : Nat) (p : Nat) (d : Desc) (cls : Nat) (round : Nat) (stream : Nat) (ahead : Nat) (vals : List Val) :
    (State.writeVals s l p d cls round stream ahead vals).s.part = s.part := by
  unfold State.writeVals; simp only []; (repeat' split) <;> simp [*]

@[simp] theorem State.writeSome_part (s : State) (l : Nat) (p : Nat) (d : Desc) (cls : Nat) (round : Nat) (stream : Nat) (ahead : Nat) (pieces : List Piece) :
    (State.writeSome s l p d cls round stream ahead pieces).s.part = s.part := by
  unfold State.writeSome; simp only []; (repeat' split) <;> simp [*]

@[simp] theorem State.writeCodes_part (s : State) (p : Nat) (d : Desc) (codes : List Nat) :
    (State.writeCodes s p d codes).1.part = s.part := by
  simp [State.writeCodes, *]

@[simp] theorem State.smear_part (s : State) (p : Nat) (d : Desc) :
    (State.smear s p d).part = s.part := by
  simp [State.smear, *]

@[simp] theorem State.forecast_part (s : State) :
    (State.forecast s).part = s.part := by
  unfold State.forecast; simp only []; (repeat' split) <;> simp [*]

@[simp] theorem Done.only_part (s : State) (st : Status) :
    (Done.only s st).s.part = s.part := by
  simp [Done.only, *]

@[simp] theorem State.reportMask_part (s : State) (x : Nat) (d : Done) :
    (State.reportMask s x d).part = s.part := by
  unfold State.reportMask; (repeat' split) <;> simp [*]

@[simp] theorem State.commandEvent_part (s : State) (l : Nat) (x : Nat) (st : Status) :
    (State.commandEvent s l x st).part = s.part := by
  unfold State.commandEvent; (repeat' split) <;> simp [*]

@[simp] theorem State.doneEvent_part (s : State) (l : Nat) (x : Nat) (d : Done) :
    (State.doneEvent s l x d).part = s.part := by
  unfold State.doneEvent; (repeat' split) <;> simp [*]

@[simp] theorem State.countFindings_part (s : State) (l : Nat) (p : Nat) (rejected : Nat) (oor : Nat) :
    (State.countFindings s l p rejected oor).part = s.part := by
  unfold State.countFindings; simp only []; (repeat' split) <;> simp [*]

@[simp] theorem State.onEccLost_part (s : State) (l : Nat) (e : QEntry) :
    (State.onEccLost s l e).part = s.part := by
  unfold State.onEccLost; simp only []; (repeat' split) <;> simp [*]

@[simp] theorem State.countFaultOf_part (s : State) (take : Option Nat) :
    (State.countFaultOf s take).part = s.part := by
  unfold State.countFaultOf; simp only []; (repeat' split) <;> simp [*]

@[simp] theorem State.maskEcc_part (s : State) (l : Nat) (e : QEntry) :
    (State.maskEcc s l e).part = s.part := by
  unfold State.maskEcc; simp only []; (repeat' split) <;> simp [*]

@[simp] theorem State.judge_part (s : State) (l : Nat) (e : QEntry) (st : Status) :
    (State.judge s l e st).part = s.part := by
  unfold State.judge; (repeat' split) <;> simp [*]

@[simp] theorem State.activate_part (s : State) (p : Nat) :
    (State.activate s p).part = s.part := by
  unfold State.activate; simp only []; (repeat' split) <;> simp [*]

@[simp] theorem State.complete_part (l : Nat) (p : Nat) (cycles : Nat) (e : QEntry) (d : Done) :
    (State.complete l p cycles e d).part = d.s.part := by
  unfold State.complete; simp only []; (repeat' split) <;> simp [*]

@[simp] theorem State.correct_part (s : State) (p : Nat) (found : List Nat × List Nat) :
    (State.correct s p found).1.part = s.part := by
  unfold State.correct; (repeat' split) <;> simp [*]

@[simp] theorem Done.heal_part (s : State) (p : Nat) (x : Nat) (d : Done) :
    (Done.heal s p x d).s.part = d.s.part := by
  simp [Done.heal]

@[simp] theorem State.runUnit_part (s : State) (l : Nat) (cycles : Nat) (mine : Nat → Bool) (eff : State → Nat → Nat → QEntry → Done) (heff : ∀ t l p e, (eff t l p e).s.part = t.part) :
    (State.runUnit s l cycles mine eff).part = s.part := by
  unfold State.runUnit; simp only []; (repeat' split) <;> simp [*]

@[simp] theorem ArrayDone.done_part (d : ArrayDone) (s : State) :
    (ArrayDone.done d s).s.part = s.part := by
  rfl

@[simp] theorem State.fetchNext_part (s : State) (l : Nat) :
    (State.fetchNext s l).part = s.part := by
  unfold State.fetchNext; simp only []; (repeat' split) <;> simp [*]

@[simp] theorem State.fetchOne_part (s : State) (l : Nat) :
    (State.fetchOne s l).part = s.part := by
  unfold State.fetchOne; (repeat' split) <;> simp [*]

@[simp] theorem State.fetchAll_part (s : State) (l : Nat) :
    (State.fetchAll s l).part = s.part := by
  simp [State.fetchAll, *]

@[simp] theorem State.replayInPlace_part (s : State) (l : Nat) :
    (State.replayInPlace s l).part = s.part := by
  unfold State.replayInPlace; simp only []; (repeat' split) <;> simp [*]

@[simp] theorem State.clearSlot_part (s : State) (p : Nat) (slot : Nat) :
    (State.clearSlot s p slot).part = s.part := by
  simp only [State.clearSlot, apply_ite State.part, State.setPt_part, ite_self]

@[simp] theorem State.accumulate_part (s : State) (p : Nat) (x : Nat) (o : Product) (outs : List (Option (List F32))) :
    (State.accumulate s p x o outs).part = s.part := by
  unfold State.accumulate; simp only []; (repeat' split) <;> simp [*]

@[simp] theorem State.productRun_part (s : State) (p : Nat) (x : Nat) (o : Product) :
    (State.productRun s p x o).s.part = s.part := by
  simp [State.productRun]

@[simp] theorem State.formRun_part (s : State) (l : Nat) :
    (State.formRun s l).part = s.part := by
  unfold State.formRun; simp only []; (repeat' split) <;> simp [*]

@[simp] theorem State.multiply_part (s : State) (l : Nat) (op : Nat) :
    (State.multiply s l op).part = s.part := by
  unfold State.multiply; simp only []; (repeat' split) <;> simp [*]

@[simp] theorem State.completeRun_part (s : State) (l : Nat) (cycles : Nat) :
    (State.completeRun s l cycles).part = s.part := by
  unfold State.completeRun; simp only []; (repeat' split) <;> simp [*]

@[simp] theorem State.startPhase_part (s : State) (c : BitVec 128) :
    (State.startPhase s c).part = s.part := by
  unfold State.startPhase; (repeat' split) <;> simp [*]

@[simp] theorem State.cueFlags_part (s : State) (c : BitVec 128) :
    (State.cueFlags s c).part = s.part := by
  unfold State.cueFlags; simp only []; (repeat' split) <;> simp [*]

@[simp] theorem State.cueFails_part (s : State) (c : BitVec 128) :
    (State.cueFails s c).part = s.part := by
  simp [State.cueFails, *]

@[simp] theorem State.cueEffect_part (s : State) (c : BitVec 128) :
    (State.cueEffect s c).part = s.part := by
  unfold State.cueEffect; (repeat' split) <;> simp [*]

@[simp] theorem State.fireCue_part (s : State) (a : ArmedCue) :
    (State.fireCue s a).part = s.part := by
  unfold State.fireCue; simp only []; (repeat' split) <;> simp [*]

@[simp] theorem State.fireDueAt_part (s : State) (t : Nat) :
    (State.fireDueAt s t).part = s.part := by
  unfold State.fireDueAt; (repeat' split) <;> simp [*]

@[simp] theorem State.fireDue_part (s : State) :
    (State.fireDue s).part = s.part := by
  simp [State.fireDue, *]

@[simp] theorem State.armCueAt_part (s : State) (ts : Nat) (c : BitVec 128) (ofNew : Bool) :
    (State.armCueAt s ts c ofNew).1.part = s.part := by
  unfold State.armCueAt; simp only []; (repeat' split) <;> simp [*]

@[simp] theorem State.armCue_part (s : State) (c : BitVec 128) (ofNew : Bool) :
    (State.armCue s c ofNew).1.part = s.part := by
  simp [State.armCue]

@[simp] theorem State.armReel_part (s : State) (ts : Nat) (r : Reel) (ofNew : Bool) :
    (State.armReel s ts r ofNew).part = s.part := by
  simp [State.armReel]

@[simp] theorem State.closeCues_part (s : State) :
    (State.closeCues s).part = s.part := by
  simp [State.closeCues, *]

@[simp] theorem State.abandonActivation_part (s : State) :
    (State.abandonActivation s).part = s.part := by
  unfold State.abandonActivation; simp only []; (repeat' split) <;> simp [*]

@[simp] theorem State.startSteps_part (s : State) (r : Reel) :
    (State.startSteps s r).part = s.part := by
  simp [State.startSteps, *]

@[simp] theorem State.deferralEvents_part (s : State) :
    (State.deferralEvents s).part = s.part := by
  unfold State.deferralEvents; (try dsimp only); (repeat' split) <;> (first | (simp_all; done) | (rw [foldl_part]; intro t b; (repeat' split) <;> simp_all))

@[simp] theorem State.freezeDailies_part (s : State) (kind : Nat) (ts : Nat) :
    (State.freezeDailies s kind ts).part = s.part := by
  unfold State.freezeDailies; simp only []; (repeat' split) <;> simp [*]

@[simp] theorem State.switchDailies_part (s : State) :
    (State.switchDailies s).part = s.part := by
  unfold State.switchDailies; simp only []; (repeat' split) <;> simp [*]

@[simp] theorem State.countOverruns_part (s : State) :
    (State.countOverruns s).part = s.part := by
  simp [State.countOverruns, *]

@[simp] theorem State.countLimited_part (s : State) :
    (State.countLimited s).part = s.part := by
  unfold State.countLimited; (repeat' split) <;> simp [*]

@[simp] theorem State.setPort_part (s : State) (k : Nat) (p : Port) :
    (State.setPort s k p).part = s.part := by
  simp [State.setPort, *]

@[simp] theorem State.emitEntry_part (s : State) (k : Nat) (e : TxEntry) :
    (State.emitEntry s k e).part = s.part := by
  unfold State.emitEntry; (repeat' split) <;> simp [*]

@[simp] theorem State.pumpPort_part (k : Nat) (x1 : Nat) (x2 : Option (Nat × Nat)) (x3 : State) :
    (State.pumpPort k x1 x2 x3).part = x3.part := by
  (induction x1 generalizing k x2 x3 with | zero => (simp [State.pumpPort] <;> done) | succ n ih => (unfold State.pumpPort; (try dsimp only); (repeat' split) <;> simp_all))

@[simp] theorem State.pump_part (s : State) (k : Nat) :
    (State.pump s k).part = s.part := by
  simp [State.pump, *]

@[simp] theorem State.queueOn_part (s : State) (k : Nat) (e : TxEntry) :
    (State.queueOn s k e).part = s.part := by
  simp [State.queueOn]

@[simp] theorem State.forward_part (s : State) (e : TxEntry) :
    (State.forward s e).part = s.part := by
  unfold State.forward; (repeat' split) <;> simp [*]

@[simp] theorem State.routeOrDrop_part (s : State) (via : Via) (q : Packet) :
    (State.routeOrDrop s via q).part = s.part := by
  unfold State.routeOrDrop; (repeat' split) <;> simp [*]

@[simp] theorem State.bumpFabric_part (s : State) (sub : Nat) (n : Nat) :
    (State.bumpFabric s sub n).part = s.part := by
  simp [State.bumpFabric, *]

@[simp] theorem Done.answered_part (s : State) (st : Status) (dispatch : Bool) :
    (Done.answered s st dispatch).s.part = s.part := by
  rfl

@[simp] theorem State.answered_part (s : State) (tile : Nat) (dst : Nat) (seq : Nat) (st : Status) :
    (State.answered s tile dst seq st).part = s.part := by
  unfold State.answered; simp only []; (repeat' split) <;> simp [*]

@[simp] theorem State.respond_part (s : State) (via : Via) (q : Packet) (st : Status) :
    (State.respond s via q st).part = s.part := by
  unfold State.respond; (repeat' split) <;> simp [*]

@[simp] theorem State.noteRefusal_part (s : State) (q : Packet) (st : Status) :
    (State.noteRefusal s q st).part = s.part := by
  simp [State.noteRefusal, *]

@[simp] theorem State.refuseOp_part (s : State) (via : Via) (q : Packet) (st : Status) :
    (State.refuseOp s via q st).part = s.part := by
  unfold State.refuseOp; (repeat' split) <;> simp [*]

@[simp] theorem State.takeStepRecord_part (s : State) (r : StepRecord) :
    (State.takeStepRecord s r).part = s.part := by
  unfold State.takeStepRecord; simp only []; (repeat' split) <;> simp [*]

@[simp] theorem State.setTrack_part (s : State) (t : TransitTrack) :
    (State.setTrack s t).part = s.part := by
  rfl

@[simp] theorem State.seen_part (s : State) (q : Packet) (st : Option Status) :
    (State.seen s q st).part = s.part := by
  rfl

@[simp] theorem State.discardOp_part (s : State) (via : Via) (q : Packet) (st : Status) :
    (State.discardOp s via q st).part = s.part := by
  unfold State.discardOp; (repeat' split) <;> simp [*]

@[simp] theorem State.transit_part (s : State) (e : TxEntry) :
    (State.transit s e).part = s.part := by
  unfold State.transit; (repeat' split) <;> simp [*]

@[simp] theorem State.routeIn_part (s : State) (k : Nat) (q : Packet) (msg : Option ControlMsg) (y4 : State → State) (hy4 : ∀ t, (y4 t).part = t.part) :
    (State.routeIn s k q msg y4).part = s.part := by
  unfold State.routeIn; (repeat' split) <;> simp [*]

@[simp] theorem State.peerSwitch_part (s : State) (k : Nat) (lane : Nat) :
    (State.peerSwitch s k lane).part = s.part := by
  unfold State.peerSwitch; simp only []; (repeat' split) <;> simp [*]

@[simp] theorem State.takeControl_part (s : State) (k : Nat) (q : Packet) (msg : ControlMsg) :
    (State.takeControl s k q msg).part = s.part := by
  unfold State.takeControl; (repeat' split) <;> simp [*]

@[simp] theorem State.rebasePlant_part (s : State) (bySlate : Bool) (ts : Nat) :
    (State.rebasePlant s bySlate ts).part = s.part := by
  simp [State.rebasePlant, *]

@[simp] theorem State.forceModes_part (s : State) :
    (State.forceModes s).part = s.part := by
  simp [State.forceModes, *]

@[simp] theorem State.startFills_part (s : State) (want : PhysTile → Bool) :
    (State.startFills s want).part = s.part := by
  simp [State.startFills, *]

@[simp] theorem State.dropActivation_part (s : State) :
    (State.dropActivation s).part = s.part := by
  unfold State.dropActivation; (repeat' split) <;> simp [*]

@[simp] theorem State.closeTake_part (s : State) (kind : Nat) (ts : Nat) :
    (State.closeTake s kind ts).part = s.part := by
  simp [State.closeTake, *]

@[simp] theorem State.setDensities_part (s : State) :
    (State.setDensities s).part = s.part := by
  simp [State.setDensities, *]

@[simp] theorem State.forceTable_part (s : State) :
    (State.forceTable s).part = s.part := by
  unfold State.forceTable; simp only []; (repeat' split) <;> simp [*]

@[simp] theorem State.writeLotBlock_part (s : State) (take : Nat) :
    (State.writeLotBlock s take).part = s.part := by
  unfold State.writeLotBlock; simp only []; (repeat' split) <;> simp [*]

@[simp] theorem State.openingFills_part (s : State) :
    (State.openingFills s).part = s.part := by
  unfold State.openingFills; (repeat' split) <;> simp [*]

@[simp] theorem State.latchLevels_part (s : State) (level : Nat) :
    (State.latchLevels s level).part = s.part := by
  simp [State.latchLevels, *]

@[simp] theorem State.startActivation_part (s : State) (ts : Nat) :
    (State.startActivation s ts).part = s.part := by
  unfold State.startActivation; (repeat' split) <;> simp [*]

@[simp] theorem State.beginTake_part (s : State) (selfSlated : Bool) (ts : Nat) :
    (State.beginTake s selfSlated ts).part = s.part := by
  simp [State.beginTake, *]

@[simp] theorem State.setOpeningLevel_part (s : State) :
    (State.setOpeningLevel s).part = s.part := by
  simp [State.setOpeningLevel, *]

@[simp] theorem State.openTake_part (s : State) (selfSlated : Bool) (ts : Nat) :
    (State.openTake s selfSlated ts).part = s.part := by
  unfold State.openTake; simp only []; (repeat' split) <;> simp [*]

@[simp] theorem State.boundary_part (s : State) (kind : Nat) (selfSlated : Bool) (ts : Nat) :
    (State.boundary s kind selfSlated ts).part = s.part := by
  simp [State.boundary, *]

@[simp] theorem State.ignorePulse_part (s : State) :
    (State.ignorePulse s).part = s.part := by
  unfold State.ignorePulse; (repeat' split) <;> simp [*]

@[simp] theorem State.stormSlate_part (s : State) :
    (State.stormSlate s).part = s.part := by
  simp [State.stormSlate, *]

@[simp] theorem State.acceptSlate_part (s : State) (ts : Nat) :
    (State.acceptSlate s ts).part = s.part := by
  simp [State.acceptSlate, *]

@[simp] theorem State.reanchor_part (s : State) (ts : Nat) :
    (State.reanchor s ts).part = s.part := by
  simp [State.reanchor, *]

@[simp] theorem State.earlyViolation_part (s : State) :
    (State.earlyViolation s).part = s.part := by
  simp [State.earlyViolation, *]

@[simp] theorem State.classifySlate_part (s : State) (ts : Nat) :
    (State.classifySlate s ts).part = s.part := by
  unfold State.classifySlate; simp only []; (repeat' split) <;> simp [*]

@[simp] theorem State.takeSlate_part (s : State) (ts : Nat) :
    (State.takeSlate s ts).part = s.part := by
  unfold State.takeSlate; (repeat' split) <;> simp [*]

@[simp] theorem State.acceptAdv_part (s : State) (ts : Nat) :
    (State.acceptAdv s ts).part = s.part := by
  simp [State.acceptAdv, *]

@[simp] theorem State.applyWaitingAdv_part (s : State) (ts : Nat) :
    (State.applyWaitingAdv s ts).part = s.part := by
  unfold State.applyWaitingAdv; (repeat' split) <;> simp [*]

@[simp] theorem State.slateAt_part (s : State) (ts : Nat) :
    (State.slateAt s ts).part = s.part := by
  unfold State.slateAt; (repeat' split) <;> simp [*]

@[simp] theorem State.takeAdv_part (s : State) (ts : Nat) :
    (State.takeAdv s ts).part = s.part := by
  unfold State.takeAdv; (repeat' split) <;> simp [*]

@[simp] theorem State.loadDescriptors_part (s : State) (r : Reel) (l : Nat) (p : Nat) :
    (State.loadDescriptors s r l p).part = s.part := by
  simp [State.loadDescriptors, *]

@[simp] theorem State.wakeTile_part (s : State) (p : Nat) :
    (State.wakeTile s p).part = s.part := by
  unfold State.wakeTile; simp only []; (repeat' split) <;> simp [*]

@[simp] theorem State.stopClock_part (s : State) (p : Nat) :
    (State.stopClock s p).part = s.part := by
  unfold State.stopClock; (repeat' split) <;> simp [*]

@[simp] theorem State.sleepTile_part (s : State) (p : Nat) :
    (State.sleepTile s p).part = s.part := by
  unfold State.sleepTile; (repeat' split) <;> simp [*]

@[simp] theorem State.restReserve_part (s : State) :
    (State.restReserve s).part = s.part := by
  unfold State.restReserve; (try dsimp only); (repeat' split) <;> (first | (simp_all; done) | (rw [foldl_part]; intro t b; (repeat' split) <;> simp_all))

@[simp] theorem State.placeReel_part (s : State) (r : Reel) :
    (State.placeReel s r).part = s.part := by
  simp [State.placeReel, *]

@[simp] theorem State.completeActivation_part (s : State) (r : Reel) :
    (State.completeActivation s r).part = s.part := by
  simp [State.completeActivation, *]

@[simp] theorem State.failActivation_part (s : State) :
    (State.failActivation s).part = s.part := by
  unfold State.failActivation; simp only []; (repeat' split) <;> simp [*]

@[simp] theorem State.testWait_part (s : State) (l : Nat) :
    (State.testWait s l).part = s.part := by
  unfold State.testWait; simp only []; (repeat' split) <;> simp [*]

@[simp] theorem State.addFlag_part (s : State) (l : Nat) (f : Nat) (n : Nat) :
    (State.addFlag s l f n).part = s.part := by
  unfold State.addFlag; simp only []; (repeat' split) <;> simp [*]

@[simp] theorem State.hubStep_part (s : State) (die : Nat) :
    (State.hubStep s die).part = s.part := by
  unfold State.hubStep; simp only []; (repeat' split) <;> simp [*]

@[simp] theorem signalAddEff_part (s : State) (l : Nat) (_p : Nat) (e : QEntry) :
    (signalAddEff s l _p e).s.part = s.part := by
  unfold signalAddEff; simp only []; (repeat' split) <;> simp [*]

@[simp] theorem armCueEff_part (s : State) (_l : Nat) (_p : Nat) (e : QEntry) :
    (armCueEff s _l _p e).s.part = s.part := by
  unfold armCueEff; simp only []; (repeat' split) <;> simp [*]

@[simp] theorem State.startWait_part (s : State) (l : Nat) (p : Nat) (cycles : Nat) (e : QEntry) :
    (State.startWait s l p cycles e).part = s.part := by
  unfold State.startWait; simp only []; (repeat' split) <;> simp [*]

@[simp] theorem State.isolateEntry_part (s : State) (l : Nat) (p : Nat) (e : QEntry) :
    (State.isolateEntry s l p e).part = s.part := by
  simp [State.isolateEntry, *]

@[simp] theorem State.isolateNext_part (s : State) (l : Nat) (p : Nat) :
    (State.isolateNext s l p).part = s.part := by
  unfold State.isolateNext; (repeat' split) <;> simp [*]

@[simp] theorem State.isolateAll_part (s : State) (l : Nat) (p : Nat) :
    (State.isolateAll s l p).part = s.part := by
  simp [State.isolateAll, *]

@[simp] theorem State.unplace_part (s : State) (l : Nat) (p : Nat) :
    (State.unplace s l p).part = s.part := by
  unfold State.unplace; simp only []; (repeat' split) <;> simp [*]

@[simp] theorem State.placeOn_part (s : State) (l : Nat) (p : Nat) :
    (State.placeOn s l p).part = s.part := by
  unfold State.placeOn; simp only []; (repeat' split) <;> simp [*]

@[simp] theorem State.tryPlace_part (s : State) (l : Nat) :
    (State.tryPlace s l).part = s.part := by
  unfold State.tryPlace; (repeat' split) <;> simp [*]

@[simp] theorem State.noteUnplaced_part (s : State) (l : Nat) :
    (State.noteUnplaced s l).part = s.part := by
  unfold State.noteUnplaced; (repeat' split) <;> simp [*]

@[simp] theorem State.dropRounds_part (s : State) (l : Nat) :
    (State.dropRounds s l).part = s.part := by
  simp [State.dropRounds, *]

@[simp] theorem State.noteFence_part (s : State) (b : Block) :
    (State.noteFence s b).part = s.part := by
  simp [State.noteFence, *]

@[simp] theorem State.moveFrom_part (s : State) (p : Nat) :
    (State.moveFrom s p).part = s.part := by
  unfold State.moveFrom; (repeat' split) <;> simp [*]

@[simp] theorem State.fenceTile_part (s : State) (p : Nat) :
    (State.fenceTile s p).part = s.part := by
  unfold State.fenceTile; simp only []; (repeat' split) <;> simp [*]

@[simp] theorem State.returnTile_part (s : State) (p : Nat) :
    (State.returnTile s p).part = s.part := by
  unfold State.returnTile; simp only []; (repeat' split) <;> simp [*]

@[simp] theorem State.fabricComesUp_part (s : State) :
    (State.fabricComesUp s).part = s.part := by
  simp [State.fabricComesUp, *]

@[simp] theorem State.refreshFabric_part (s : State) :
    (State.refreshFabric s).part = s.part := by
  unfold State.refreshFabric; simp only []; (repeat' split) <;> simp [*]

@[simp] theorem State.sendIdle_part (s : State) (k : Nat) (nak : Bool) :
    (State.sendIdle s k nak).part = s.part := by
  simp [State.sendIdle, *]

@[simp] theorem State.returnCredits_part (s : State) (k : Nat) :
    (State.returnCredits s k).part = s.part := by
  unfold State.returnCredits; (repeat' split) <;> simp [*]

@[simp] theorem State.sendIdentity_part (s : State) (k : Nat) :
    (State.sendIdentity s k).part = s.part := by
  simp [State.sendIdentity, *]

@[simp] theorem State.trainPort_part (s : State) (k : Nat) :
    (State.trainPort s k).part = s.part := by
  unfold State.trainPort; simp only []; (repeat' split) <;> simp [*]

@[simp] theorem State.requeue_part (s : State) (k : Nat) (n : Nat) (e : TxEntry) :
    (State.requeue s k n e).part = s.part := by
  rfl

@[simp] theorem rerouteOne_part (r : Rerouting) (e : TxEntry) :
    (rerouteOne r e).s.part = r.s.part := by
  unfold rerouteOne; simp only []; (repeat' split) <;> simp [*]

@[simp] theorem State.keepRefused_part (s : State) (t : TransitTrack) :
    (State.keepRefused s t).part = s.part := by
  unfold State.keepRefused; (repeat' split) <;> simp [*]

@[simp] theorem foldlRerouting_part {β : Type} (g : Rerouting → β → Rerouting) (l : List β) (x : Rerouting)
    (h : ∀ t b, (g t b).s.part = t.s.part) : (l.foldl g x).s.part = x.s.part := by
  induction l generalizing x with
  | nil => rfl
  | cons a l ih => rw [List.foldl_cons, ih, h]

@[simp] theorem State.reroute_part (s : State) (es : List TxEntry) :
    (State.reroute s es).part = s.part := by
  simp [State.reroute]

@[simp] theorem State.portDown_part (s : State) (k : Nat) (counted : Bool) :
    (State.portDown s k counted).part = s.part := by
  unfold State.portDown; simp only []; (repeat' split) <;> simp [*]

@[simp] theorem State.portComesUp_part (s : State) (k : Nat) (rack : Nat) (pkg : Nat) (role : Nat) :
    (State.portComesUp s k rack pkg role).part = s.part := by
  simp [State.portComesUp, *]

@[simp] theorem State.meetPeer_part (s : State) (k : Nat) (rack : Nat) (pkg : Nat) (role : Nat) :
    (State.meetPeer s k rack pkg role).part = s.part := by
  unfold State.meetPeer; simp only []; (repeat' split) <;> simp [*]

@[simp] theorem State.enablePorts_part (s : State) :
    (State.enablePorts s).part = s.part := by
  unfold State.enablePorts; simp only []; (repeat' split) <;> simp [*]

@[simp] theorem State.darkenPorts_part (s : State) :
    (State.darkenPorts s).part = s.part := by
  simp [State.darkenPorts, *]

@[simp] theorem State.retrainPorts_part (s : State) :
    (State.retrainPorts s).part = s.part := by
  unfold State.retrainPorts; (repeat' split) <;> simp [*]

@[simp] theorem State.replayLink_part (s : State) (k : Nat) :
    (State.replayLink s k).part = s.part := by
  unfold State.replayLink; simp only []; (repeat' split) <;> simp [*]

@[simp] theorem State.takeHeader_part (s : State) (k : Nat) (q : Packet) :
    (State.takeHeader s k q).part = s.part := by
  unfold State.takeHeader; simp only []; (repeat' split) <;> simp [*]

@[simp] theorem State.requestReplay_part (s : State) (k : Nat) :
    (State.requestReplay s k).part = s.part := by
  unfold State.requestReplay; simp only []; (repeat' split) <;> simp [*]

@[simp] theorem State.acceptPacket_part (s : State) (k : Nat) (q : Packet) :
    (State.acceptPacket s k q).1.part = s.part := by
  unfold State.acceptPacket; simp only []; (repeat' split) <;> simp [*]

@[simp] theorem State.onPacket_part (s : State) (k : Nat) (q : Packet) (act : State → State) (hact : ∀ t, (act t).part = t.part) :
    (State.onPacket s k q act).part = s.part := by
  unfold State.onPacket; simp only []; (repeat' split) <;> simp [*]

@[simp] theorem State.bounce_part (s : State) (p : Nat) (bs : List Byte) :
    (State.bounce s p bs).1.part = s.part := by
  unfold State.bounce; simp only []; (repeat' split) <;> simp [*]

@[simp] theorem State.moveRead_part (s : State) (p : Nat) (x : Nat) (a : Desc) (b : Desc) :
    (State.moveRead s p x a b).1.part = s.part := by
  unfold State.moveRead; simp only []; (repeat' split) <;> simp [*]

@[simp] theorem State.moveData_part (s : State) (l : Nat) (p : Nat) (x : Nat) (a : Desc) (b : Desc) :
    (State.moveData s l p x a b).s.part = s.part := by
  unfold State.moveData; simp only []; (repeat' split) <;> simp [*]

@[simp] theorem moveEff_part (s : State) (l : Nat) (p : Nat) (e : QEntry) :
    (moveEff s l p e).s.part = s.part := by
  unfold moveEff; simp only []; (repeat' split) <;> simp [*]

@[simp] theorem State.foldRead_part (s : State) (p : Nat) (a am b bm : Desc) :
    (State.foldRead s p a am b bm).1.part = s.part := by
  unfold State.foldRead; (repeat' split) <;> simp [*]

@[simp] theorem State.foldRun_part (s : State) (p : Nat) (a am b bm : Desc) :
    (State.foldRun s p a am b bm).s.part = s.part := by
  unfold State.foldRun; simp only []; (repeat' split) <;> simp [*]

@[simp] theorem foldEff_part (s : State) (_l : Nat) (p : Nat) (e : QEntry) :
    (foldEff s _l p e).s.part = s.part := by
  unfold foldEff; simp only []; (repeat' split) <;> simp [*]

@[simp] theorem State.countClass2_part (s : State) (l : Nat) (p : Nat) (elem : Nat) (n : Nat) :
    (State.countClass2 s l p elem n).part = s.part := by
  simp [State.countClass2, *]

@[simp] theorem State.clearAfter_part (s : State) (p : Nat) (x : Nat) :
    (State.clearAfter s p x).part = s.part := by
  unfold State.clearAfter; (repeat' split) <;> simp [*]

@[simp] theorem State.drainData_part (s : State) (l : Nat) (p : Nat) (x : Nat) (d : Desc) :
    (State.drainData s l p x d).s.part = s.part := by
  simp only [State.drainData]; split <;> simp

@[simp] theorem drainEff_part (s : State) (l : Nat) (p : Nat) (e : QEntry) :
    (drainEff s l p e).s.part = s.part := by
  unfold drainEff; simp only []; (repeat' split) <;> simp [*]

@[simp] theorem State.readHeader_part (s : State) (a : Nat) :
    (State.readHeader s a).s.part = s.part := by
  simp [State.readHeader, *]

@[simp] theorem State.readBody_part (s : State) (a : Nat) (present : List SlicePos) (whole : Bool) :
    (State.readBody s a present whole).1.part = s.part := by
  unfold State.readBody; simp only []; (repeat' split) <;> simp [*]

@[simp] theorem State.emitWeights_part (s : State) (l : Nat) (p : Nat) (x : Nat) (d : Desc) (ws : List (SlicePos × F32)) :
    (State.emitWeights s l p x d ws).s.part = s.part := by
  simp [State.emitWeights, *]

@[simp] theorem State.copyWrite_part (x : State × Status) (a : Nat) (bs : List Byte) :
    (State.copyWrite x a bs).1.part = x.1.part := by
  simp [State.copyWrite, *]

@[simp] theorem State.writeCopy_part (x : State × Status) (a : Nat) (now : StateHeader) (final : StateHeader) (body : List (Nat × List Byte)) :
    (State.writeCopy x a now final body).1.part = x.1.part := by
  simp [State.writeCopy, *]

@[simp] theorem State.updateFrom_part (s : State) (l : Nat) (p : Nat) (e : QEntry) (o : Update) (c : Copies) (src : Bool) (repair : Bool) (ecc : Status) :
    (State.updateFrom s l p e o c src repair ecc).s.part = s.part := by
  unfold State.updateFrom; simp only []; (repeat' split) <;> simp [*]

@[simp] theorem State.updateChoose_part (l : Nat) (p : Nat) (e : QEntry) (o : Update) (c : Copies) (x5 : List Bool) (x6 : State) (x7 : Status) :
    (State.updateChoose l p e o c x5 x6 x7).s.part = x6.part := by
  induction x5 generalizing l p e o c x6 x7 <;> (unfold State.updateChoose; (try dsimp only); (repeat' split) <;> simp_all)

@[simp] theorem State.updateData_part (s : State) (l : Nat) (p : Nat) (e : QEntry) (o : Update) :
    (State.updateData s l p e o).s.part = s.part := by
  unfold State.updateData; simp only []; (repeat' split) <;> simp [*]

@[simp] theorem updateEff_part (s : State) (l : Nat) (p : Nat) (e : QEntry) :
    (updateEff s l p e).s.part = s.part := by
  unfold updateEff; simp only []; (repeat' split) <;> simp [*]

@[simp] theorem State.vecWrite_part (s : State) (l : Nat) (p : Nat) (x : Nat) (d : Option Desc) (vals : List Val) :
    (State.vecWrite s l p x d vals).s.part = s.part := by
  unfold State.vecWrite; (repeat' split) <;> simp [*]

@[simp] theorem State.vecWriteCodes_part (s : State) (p : Nat) (d : Option Desc) (codes : List Nat) :
    (State.vecWriteCodes s p d codes).1.part = s.part := by
  unfold State.vecWriteCodes; (repeat' split) <;> simp [*]

@[simp] theorem vecDone_part (w : WriteRes) (st : Status) (sats : Nat) (oor : Nat) :
    (vecDone w st sats oor).s.part = w.s.part := by
  rfl

@[simp] theorem vecEff_part (r : Routine) (s : State) (l : Nat) (p : Nat) (e : QEntry) (hr : ∀ t l p x o, (r.run t l p x o).s.part = t.part) :
    (vecEff r s l p e).s.part = s.part := by
  unfold vecEff; simp only []; (repeat' split) <;> simp [*]

@[simp] theorem State.tallyPredictor_part (s : State) (k : Nat) (audited : Nat) (misses : Nat) :
    (State.tallyPredictor s k audited misses).part = s.part := by
  simp [State.tallyPredictor, *]

@[simp] theorem State.selectRun_part (s : State) (l : Nat) (p : Nat) (x : Nat) (sc : Desc) (asg : Desc) :
    (State.selectRun s l p x sc asg).s.part = s.part := by
  unfold State.selectRun; (repeat' split) <;> simp [*]

@[simp] theorem selectEff_part (s : State) (l : Nat) (p : Nat) (e : QEntry) :
    (selectEff s l p e).s.part = s.part := by
  unfold selectEff; simp only []; (repeat' split) <;> simp [*]

@[simp] theorem State.combineRun_part (s : State) (l : Nat) (p : Nat) (x : Nat) (tok : Desc) (asg : Desc) (out : Desc) :
    (State.combineRun s l p x tok asg out).s.part = s.part := by
  simp [State.combineRun, *]

@[simp] theorem combineEff_part (s : State) (l : Nat) (p : Nat) (e : QEntry) :
    (combineEff s l p e).s.part = s.part := by
  unfold combineEff; simp only []; (repeat' split) <;> simp [*]

@[simp] theorem State.putHeader_part (s : State) (p : Nat) (a : Nat) (off : Nat) (n : Nat) (v : Nat) :
    (State.putHeader s p a off n v).part = s.part := by
  simp [State.putHeader, *]

@[simp] theorem State.setRecs_part (s : State) (l : Nat) (a : Nat) (recs : List StageRec) :
    (State.setRecs s l a recs).part = s.part := by
  simp [State.setRecs, *]

@[simp] theorem State.stageWrite_part (s : State) (p : Nat) (h : Nat) (at_ : Nat) (bs : List Byte) :
    (State.stageWrite s p h at_ bs).part = s.part := by
  simp [State.stageWrite, *]

@[simp] theorem State.markRecord_part (s : State) (p : Nat) (h : Nat) (j : Nat) :
    (State.markRecord s p h j).part = s.part := by
  simp [State.markRecord, *]

@[simp] theorem State.claimRecord_part (s : State) (l : Nat) (p : Nat) (a : Nat) (h : Nat) (j : Nat) (q : Packet) :
    (State.claimRecord s l p a h j q).part = s.part := by
  unfold State.claimRecord; simp only []; (repeat' split) <;> simp [*]

@[simp] theorem State.arriveRecord_part (s : State) (l : Nat) (p : Nat) (a : Nat) (h : Nat) (j : Nat) :
    (State.arriveRecord s l p a h j).part = s.part := by
  unfold State.arriveRecord; simp only []; (repeat' split) <;> simp [*]

@[simp] theorem State.stagePacket_part (s : State) (q : Packet) (claimed : Option Nat) :
    (State.stagePacket s q claimed).1.part = s.part := by
  unfold State.stagePacket; simp only []; (repeat' split) <;> simp [*]

@[simp] theorem State.writeLocal_part (s : State) (a : Nat) (bs : List Byte) :
    (State.writeLocal s a bs).1.part = s.part := by
  unfold State.writeLocal; simp only []; (repeat' split) <;> simp [*]

@[simp] theorem State.correctAt_part (s : State) (p : Nat) (store am : List (Nat × Nat)) :
    (State.correctAt s p store am).1.part = s.part := by
  unfold State.correctAt; (repeat' split) <;> simp [*]

@[simp] theorem State.correctPieces_part (s : State) (ps : List (Nat × Nat × Nat)) :
    (State.correctPieces s ps).1.part = s.part := by
  unfold State.correctPieces; simp only []; (repeat' split) <;> simp [*]

@[simp] theorem State.readLocal_part (s : State) (a : Nat) (n : Nat) :
    (State.readLocal s a n).1.part = s.part := by
  unfold State.readLocal; simp only []; (repeat' split) <;> simp [*]

@[simp] theorem State.applyPacket_part (s : State) (via : Via) (q : Packet) (rec : Option Nat) :
    (State.applyPacket s via q rec).1.part = s.part := by
  unfold State.applyPacket; (repeat' split) <;> simp [*]

@[simp] theorem State.readRound_part (s : State) (own : Bool) (k : OpTrack) (q : Packet) :
    (State.readRound s own k q).1.part = s.part := by
  unfold State.readRound; (repeat' split) <;> simp [*]

@[simp] theorem State.takePacket_part (s : State) (own : Bool) (via : Via) (k : OpTrack) (q : Packet) :
    (State.takePacket s own via k q).s.part = s.part := by
  unfold State.takePacket; (repeat' split) <;> simp [*]

@[simp] theorem State.touchStage_part (s : State) (p a h : Nat) :
    (State.touchStage s p a h).part = s.part := by
  unfold State.touchStage; simp only []; (repeat' split) <;> simp [*]

@[simp] theorem State.combineRound_part (s : State) (l a p : Nat) :
    (State.combineRound s l a p).part = s.part := by
  unfold State.combineRound; simp only []; (repeat' split) <;> simp [*]

@[simp] theorem State.writePacked_part (s : State) (p : Nat) (d : Desc) (off : Nat) (bs : List Byte) :
    (State.writePacked s p d off bs).1.part = s.part := by
  unfold State.writePacked; rw [foldl1_part]; intro t b; dsimp only; split <;> simp

@[simp] theorem State.deliverGet_part (s : State) (l : Nat) (o : RemoteOp) (off : Nat) (bs : List Byte) :
    (State.deliverGet s l o off bs).1.part = s.part := by
  unfold State.deliverGet; simp only []; (repeat' split) <;> simp [*]

@[simp] theorem State.applyOwn_part (s : State) (l : Nat) (o : RemoteOp) :
    (State.applyOwn s l o).1.part = s.part := by
  unfold State.applyOwn; simp only []; (repeat' split) <;> simp [*]

@[simp] theorem State.routePackets_part (s : State) (via : Via) (ps : List Packet) :
    (State.routePackets s via ps).part = s.part := by
  simp [State.routePackets]

@[simp] theorem State.sendMore_part (s : State) (l : Nat) (i : Nat) (o : RemoteOp) :
    (State.sendMore s l i o).part = s.part := by
  unfold State.sendMore; simp only []; (repeat' split) <;> simp [*]

@[simp] theorem State.sendOp_part (s : State) (l : Nat) (i : Nat) (o : RemoteOp) :
    (State.sendOp s l i o).part = s.part := by
  unfold State.sendOp; simp only []; (repeat' split) <;> simp [*]

@[simp] theorem State.sendReady_part (s : State) (l : Nat) :
    (State.sendReady s l).part = s.part := by
  unfold State.sendReady; (try dsimp only); (repeat' split) <;> (first | (simp_all; done) | (rw [foldl_part]; intro t b; (repeat' split) <;> simp_all))

@[simp] theorem State.judgeDispatch_part (s : State) (l : Nat) (ops : List RemoteOp) :
    (State.judgeDispatch s l ops).part = s.part := by
  unfold State.judgeDispatch; simp only []; (repeat' split) <;> simp [*]

@[simp] theorem State.finishEntry_part (s : State) (l : Nat) (here : Option (Nat × Nat)) (id : Nat) (pos : Nat) (ops : List RemoteOp) :
    (State.finishEntry s l here id pos ops).part = s.part := by
  unfold State.finishEntry; simp only []; (repeat' split) <;> simp [*]

@[simp] theorem State.finishAll_part (l : Nat) (here : Option (Nat × Nat)) (x2 : Nat) (x3 : State) :
    (State.finishAll l here x2 x3).part = x3.part := by
  (induction x2 generalizing x3 with | zero => (simp [State.finishAll] <;> done) | succ n ih => (unfold State.finishAll; (try dsimp only); (repeat' split) <;> simp_all))

@[simp] theorem State.portWork_part (s : State) (l : Nat) (here : Option (Nat × Nat)) :
    (State.portWork s l here).part = s.part := by
  unfold State.portWork; simp only []; (repeat' split) <;> simp [*]

@[simp] theorem State.settle_part (s : State) :
    (State.settle s).part = s.part := by
  simp [State.settle, *]

@[simp] theorem RemotePlan.stop_part (s : State) (st : Status) :
    (RemotePlan.stop s st).s.part = s.part := by
  simp [RemotePlan.stop, *]

@[simp] theorem State.startPlan_part (l : Nat) (p : Nat) (cycles : Nat) (e : QEntry) (r : RemotePlan) :
    (State.startPlan l p cycles e r).part = r.s.part := by
  unfold State.startPlan; simp only []; (repeat' split) <;> simp [*]

@[simp] theorem RemotePlan.heal_part (s : State) (p x : Nat) (r : RemotePlan) :
    (RemotePlan.heal s p x r).s.part = r.s.part := by
  simp [RemotePlan.heal]

@[simp] theorem State.runRemote_part (s : State) (l cycles : Nat) (mine : Nat → Bool) (plan : State → Nat → Nat → QEntry → RemotePlan) (hplan : ∀ t l p e, (plan t l p e).s.part = t.part) :
    (State.runRemote s l cycles mine plan).part = s.part := by
  unfold State.runRemote; (repeat' split) <;> simp [*]

@[simp] theorem planOne_part (s : State) (o : OpSpec) :
    (planOne s o).s.part = s.part := by
  unfold planOne; (repeat' split) <;> simp [*]

@[simp] theorem planSend_part (s : State) (p : Nat) (d : Desc) (o : OpSpec) :
    (planSend s p d o).s.part = s.part := by
  unfold planSend; simp only []; (repeat' split) <;> simp [*]

@[simp] theorem planPut_part (s : State) (_l p : Nat) (e : QEntry) :
    (planPut s _l p e).s.part = s.part := by
  unfold planPut; simp only []; (repeat' split) <;> simp [*]

@[simp] theorem planAcc_part (s : State) (_l p : Nat) (e : QEntry) :
    (planAcc s _l p e).s.part = s.part := by
  unfold planAcc; simp only []; (repeat' split) <;> simp [*]

@[simp] theorem planGet_part (s : State) (_l : Nat) (p : Nat) (e : QEntry) :
    (planGet s _l p e).s.part = s.part := by
  unfold planGet; simp only []; (repeat' split) <;> simp [*]

@[simp] theorem planSignal_part (s : State) (_l : Nat) (_p : Nat) (e : QEntry) :
    (planSignal s _l _p e).s.part = s.part := by
  unfold planSignal; (repeat' split) <;> simp [*]

@[simp] theorem planFence_part (s : State) (_l : Nat) (_p : Nat) (e : QEntry) :
    (planFence s _l _p e).s.part = s.part := by
  unfold planFence; (repeat' split) <;> simp [*]

@[simp] theorem planDispatch_part (s : State) (_l : Nat) (p : Nat) (e : QEntry) :
    (planDispatch s _l p e).s.part = s.part := by
  unfold planDispatch; simp only []; (repeat' split) <;> simp [*]

@[simp] theorem State.timeOutOps_part (s : State) (l : Nat) :
    (State.timeOutOps s l).part = s.part := by
  simp [State.timeOutOps, *]

@[simp] theorem State.reissueOp_part (s : State) (l : Nat) (i : Nat) :
    (State.reissueOp s l i).part = s.part := by
  unfold State.reissueOp; simp only []; (repeat' split) <;> simp [*]

@[simp] theorem State.sendStepRecord_part (s : State) (c : Nat) :
    (State.sendStepRecord s c).part = s.part := by
  unfold State.sendStepRecord; (try dsimp only); (repeat' split) <;> (first | (simp_all; done) | (rw [foldl_part]; intro t b; (repeat' split) <;> simp_all))

@[simp] theorem State.closeOwn_part (s : State) (c : Nat) :
    (State.closeOwn s c).part = s.part := by
  unfold State.closeOwn; simp only []; (repeat' split) <;> simp [*]

@[simp] theorem State.appendHistories_part (s : State) (c : Nat) :
    (State.appendHistories s c).part = s.part := by
  simp [State.appendHistories, *]

@[simp] theorem State.updateLossScale_part (s : State) (saturated : Bool) :
    (State.updateLossScale s saturated).part = s.part := by
  unfold State.updateLossScale; simp only []; (repeat' split) <;> simp [*]

@[simp] theorem State.finaliseStep_part (s : State) (c : Nat) :
    (State.finaliseStep s c).part = s.part := by
  simp [State.finaliseStep, *]

@[simp] theorem State.setRx_part (s : State) (r : RxStream) :
    (State.setRx s r).part = s.part := by
  simp [State.setRx, *]

@[simp] theorem State.answerTaken_part (t : Taken) (e : Arrived) :
    (State.answerTaken t e).part = t.s.part := by
  unfold State.answerTaken; (repeat' split) <;> simp [*]

@[simp] theorem State.takeNext_part (s : State) (r : RxStream) (e : Arrived) :
    (State.takeNext s r e).1.part = s.part := by
  simp [State.takeNext]

@[simp] theorem State.drainHeld_part (x0 : Nat) (x1 : State × RxStream) :
    (State.drainHeld x0 x1).1.part = x1.1.part := by
  (induction x0 generalizing x1 with | zero => (simp [State.drainHeld] <;> done) | succ n ih => (unfold State.drainHeld; (try dsimp only); (repeat' split) <;> simp_all))

@[simp] theorem State.takeReissue_part (s : State) (r : RxStream) (e : Arrived) :
    (State.takeReissue s r e).1.part = s.part := by
  simp [State.takeReissue]

@[simp] theorem State.discardLate_part (s : State) (q : Packet) :
    (State.discardLate s q).part = s.part := by
  simp [State.discardLate, *]

@[simp] theorem State.arriveInOrder_part (s : State) (e : Arrived) :
    (State.arriveInOrder s e).part = s.part := by
  unfold State.arriveInOrder; simp only []; (repeat' split) <;> simp [*]

@[simp] theorem State.refuseUnnumbered_part (s : State) (e : Arrived) :
    (State.refuseUnnumbered s e).part = s.part := by
  unfold State.refuseUnnumbered; (repeat' split) <;> simp [*]

@[simp] theorem State.arrive_part (s : State) (e : Arrived) :
    (State.arrive s e).part = s.part := by
  unfold State.arrive; (repeat' split) <;> simp [*]

@[simp] theorem State.dataPacket_part (s : State) (port : Nat) (op : Nat) (q : Packet) :
    (State.dataPacket s port op q).part = s.part := by
  simp [State.dataPacket, *]

@[simp] theorem State.noteGetWrite_part (s : State) (l : Nat) (o : RemoteOp) (st : Status) :
    (State.noteGetWrite s l o st).part = s.part := by
  unfold State.noteGetWrite; simp only []; (repeat' split) <;> simp [*]

@[simp] theorem State.takeGetData_part (s : State) (q : Packet) :
    (State.takeGetData s q).part = s.part := by
  unfold State.takeGetData; simp only []; (repeat' split) <;> simp [*]

@[simp] theorem State.skipMissing_part (s : State) (r : RxStream) :
    (State.skipMissing s r).part = s.part := by
  unfold State.skipMissing; simp only []; (repeat' split) <;> simp [*]

@[simp] theorem State.wavelengthFails_part (s : State) (k : Nat) (lane : Nat) :
    (State.wavelengthFails s k lane).part = s.part := by
  unfold State.wavelengthFails; simp only []; (repeat' split) <;> simp [*]

@[simp] theorem State.darkPort_part (s : State) (k : Nat) :
    (State.darkPort s k).part = s.part := by
  unfold State.darkPort; simp only []; (repeat' split) <;> simp [*]

@[simp] theorem State.laserFalls_part (s : State) (j : Nat) :
    (State.laserFalls s j).part = s.part := by
  simp [State.laserFalls, *]

@[simp] theorem State.patrol_part (s : State) (burst : Nat) :
    (State.patrol s burst).part = s.part := by
  unfold State.patrol; (repeat' split) <;> simp [*]

@[simp] theorem State.markLost_part (s : State) (i : Nat) :
    (State.markLost s i).part = s.part := by
  simp [State.markLost, *]

@[simp] theorem State.loseStack_part (s : State) (i : Nat) :
    (State.loseStack s i).part = s.part := by
  unfold State.loseStack; (repeat' split) <;> simp [*]

@[simp] theorem State.failSegment_part (s : State) (d : Nat) (c : Nat) :
    (State.failSegment s d c).part = s.part := by
  unfold State.failSegment; simp only []; (repeat' split) <;> simp [*]

@[simp] theorem State.closeGroup_part (s : State) (g : Nat) (dir : Nat) :
    (State.closeGroup s g dir).part = s.part := by
  simp [State.closeGroup, *]

@[simp] theorem State.failLane_part (s : State) (g : Nat) (dir : Nat) :
    (State.failLane s g dir).part = s.part := by
  unfold State.failLane; simp only []; (repeat' split) <;> simp [*]

@[simp] theorem State.forcePriorities_part (s : State) (v : Tab Nat) :
    (State.forcePriorities s v).part = s.part := by
  simp [State.forcePriorities, *]

@[simp] theorem State.startCommit_part (s : State) :
    (State.startCommit s).part = s.part := by
  simp [State.startCommit, *]

@[simp] theorem State.finishCommit_part (s : State) :
    (State.finishCommit s).part = s.part := by
  simp [State.finishCommit, *]

@[simp] theorem State.retarget_part (s : State) (old : Nat) (new : Nat) :
    (State.retarget s old new).part = s.part := by
  simp [State.retarget, *]

@[simp] theorem State.restartLoad_part (s : State) (role : Nat) :
    (State.restartLoad s role).part = s.part := by
  unfold State.restartLoad; (repeat' split) <;> simp [*]

@[simp] theorem State.restartWrite_part (s : State) (role : Nat) :
    (State.restartWrite s role).part = s.part := by
  unfold State.restartWrite; simp only []; (repeat' split) <;> simp [*]

@[simp] theorem State.moveRole_part (s : State) (new : Nat) (role : Nat) :
    (State.moveRole s new role).part = s.part := by
  simp [State.moveRole, *]

@[simp] theorem State.fenceCore_part (s : State) (c : Nat) :
    (State.fenceCore s c).part = s.part := by
  unfold State.fenceCore; simp only []; (repeat' split) <;> simp [*]

@[simp] theorem State.clearPend_part (s : State) (group : Nat) (bits : Nat) :
    (State.clearPend s group bits).part = s.part := by
  rfl

@[simp] theorem State.endInterrupt_part (s : State) (c : Nat) :
    (State.endInterrupt s c).part = s.part := by
  unfold State.endInterrupt; simp only []; (repeat' split) <;> simp [*]

@[simp] theorem State.logRaise_part (s : State) (src : Nat) :
    (State.logRaise s src).part = s.part := by
  unfold State.logRaise; simp only []; (repeat' split) <;> simp [*]

@[simp] theorem State.raiseBits_part (s : State) (group : Nat) (bits : Nat) :
    (State.raiseBits s group bits).part = s.part := by
  unfold State.raiseBits; (try dsimp only); (repeat' split) <;> (first | (simp_all; done) | (rw [foldl_part]; intro t b; (repeat' split) <;> simp_all) | (rw [foldl1_part]; intro t b; (repeat' split) <;> simp_all))

@[simp] theorem State.writeSrcCfg_part (s : State) (src : Nat) (v : Nat) :
    (State.writeSrcCfg s src v).part = s.part := by
  unfold State.writeSrcCfg; simp only []; (repeat' split) <;> simp [*]

@[simp] theorem State.ctlWrite_part (s : State) (off : Nat) (v : Nat) :
    (State.ctlWrite s off v).part = s.part := by
  unfold State.ctlWrite; (repeat' split) <;> simp [*]

@[simp] theorem State.ctlAccess_part (s : State) (off : Nat) (write : Option Nat) :
    (State.ctlAccess s off write).part = s.part := by
  unfold State.ctlAccess; (repeat' split) <;> simp [*]

@[simp] theorem State.haltCore_part (s : State) (c : Nat) (on : Bool) :
    (State.haltCore s c on).part = s.part := by
  unfold State.haltCore; (repeat' split) <;> simp [*]

@[simp] theorem State.sramWrite_part (s : State) (a : Nat) (bs : List Byte) :
    (State.sramWrite s a bs).part = s.part := by
  rfl

@[simp] theorem State.sramRead_part (s : State) (a n : Nat) :
    (State.sramRead s a n).1.part = s.part := by
  unfold State.sramRead; (repeat' split) <;> simp [*]

@[simp] theorem State.debugAccess_part (s : State) (op : DebugOp) :
    (State.debugAccess s op).part = s.part := by
  unfold State.debugAccess; (repeat' split) <;> simp [*]

@[simp] theorem State.sendPending_part (s : State) (v : Nat) :
    (State.sendPending s v).part = s.part := by
  unfold State.sendPending; simp only []; (repeat' split) <;> simp [*]

@[simp] theorem State.sendAllPending_part (s : State) :
    (State.sendAllPending s).part = s.part := by
  simp [State.sendAllPending, *]

@[simp] theorem State.unmaskVector_part (s : State) (v : Nat) :
    (State.unmaskVector s v).part = s.part := by
  simp [State.unmaskVector, *]

@[simp] theorem State.maskVector_part (s : State) (v : Nat) :
    (State.maskVector s v).part = s.part := by
  simp [State.maskVector, *]

@[simp] theorem State.withValues_part (s : State) (index : Nat) (vs : List (Nat × Nat)) :
    (State.withValues s index vs).part = s.part := by
  simp [State.withValues, *]

@[simp] theorem State.programSlot_part (s : State) (r : BitVec 256) :
    (State.programSlot s r).part = s.part := by
  simp [State.programSlot, *]

@[simp] theorem State.programRecord_part (r : BitVec 256) (x1 : Nat) (x2 : List (BitVec 256)) (x3 : State) :
    (State.programRecord r x1 x2 x3).1.part = x3.part := by
  induction x2 generalizing r x1 x3 <;> (unfold State.programRecord; (try dsimp only); (repeat' split) <;> simp_all)

@[simp] theorem State.programAll_part (x0 : List (Nat × Nat × Nat)) (x1 : List (BitVec 256)) (x2 : State) :
    (State.programAll x0 x1 x2).1.part = x2.part := by
  (induction x0 generalizing x1 x2 with | nil => (simp [State.programAll] <;> done) | cons a b ih => (unfold State.programAll; (try dsimp only); (repeat' split) <;> simp_all))

@[simp] theorem State.writeSnapshot_part (s : State) (region : Nat) (generation : Nat) :
    (State.writeSnapshot s region generation).part = s.part := by
  simp [State.writeSnapshot, *]

@[simp] theorem State.startCompaction_part (s : State) :
    (State.startCompaction s).part = s.part := by
  unfold State.startCompaction; simp only []; (repeat' split) <;> simp [*]

@[simp] theorem State.compactIfFull_part (s : State) :
    (State.compactIfFull s).part = s.part := by
  unfold State.compactIfFull; (repeat' split) <;> simp [*]

@[simp] theorem State.eraseOld_part (s : State) (region : Nat) :
    (State.eraseOld s region).part = s.part := by
  simp [State.eraseOld, *]

@[simp] theorem State.loadValues_part (s : State) (v : Tab Nat) :
    (State.loadValues s v).part = s.part := by
  simp [State.loadValues, *]

@[simp] theorem State.restoreJournal_part (s : State) :
    (State.restoreJournal s).part = s.part := by
  unfold State.restoreJournal; simp only []; (repeat' split) <;> simp [*]

@[simp] theorem State.refreshAlert_part (s : State) :
    (State.refreshAlert s).part = s.part := by
  unfold State.refreshAlert; simp only []; (repeat' split) <;> simp [*]

@[simp] theorem State.loadTableAt_part (s : State) (a : Nat) :
    (State.loadTableAt s a).part = s.part := by
  unfold State.loadTableAt; simp only []; (repeat' split) <;> simp [*]

@[simp] theorem State.loadTable_part (s : State) :
    (State.loadTable s).part = s.part := by
  unfold State.loadTable; (repeat' split) <;> simp [*]

@[simp] theorem State.clearTable_part (s : State) :
    (State.clearTable s).part = s.part := by
  simp [State.clearTable, *]

@[simp] theorem State.entryStatus_part (s : State) (st : Status) :
    (State.entryStatus s st).part = s.part := by
  unfold State.entryStatus; split <;> simp

@[simp] theorem State.writeEntry_part (s : State) (high : Bool) (v : Nat) :
    (State.writeEntry s high v).part = s.part := by
  simp [State.writeEntry, *]

@[simp] theorem State.writeScale_part (s : State) (sub : Nat) (v : Nat) :
    (State.writeScale s sub v).part = s.part := by
  unfold State.writeScale; simp only []; (repeat' split) <;> simp [*]

@[simp] theorem State.writeTakeControl_part (s : State) (v : Nat) :
    (State.writeTakeControl s v).part = s.part := by
  unfold State.writeTakeControl; simp only []; (repeat' split) <;> simp [*]

@[simp] theorem State.writePower_part (s : State) (v : Nat) :
    (State.writePower s v).part = s.part := by
  unfold State.writePower; simp only []; (repeat' split) <;> simp [*]

@[simp] theorem State.writeDuplex_part (s : State) (v : Nat) :
    (State.writeDuplex s v).part = s.part := by
  simp [State.writeDuplex, *]

@[simp] theorem State.eraseJournal_part (s : State) :
    (State.eraseJournal s).part = s.part := by
  simp [State.eraseJournal, *]

@[simp] theorem State.writeCal_part (s : State) (n : Nat) (sub : Nat) (v : Nat) :
    (State.writeCal s n sub v).part = s.part := by
  unfold State.writeCal; simp only []; (repeat' split) <;> simp [*]

@[simp] theorem State.writeThreshold_part (s : State) (sub : Nat) (v : Nat) :
    (State.writeThreshold s sub v).part = s.part := by
  simp [State.writeThreshold, *]

@[simp] theorem State.commandCompaction_part (s : State) :
    (State.commandCompaction s).part = s.part := by
  simp [State.commandCompaction, *]

@[simp] theorem State.haltServer_part (s : State) :
    (State.haltServer s).part = s.part := by
  simp [State.haltServer, *]

@[simp] theorem State.applyValue_part (s : State) (index : Nat) (sub : Nat) (v : Nat) :
    (State.applyValue s index sub v).part = s.part := by
  simp [State.applyValue, apply_ite State.part]

@[simp] theorem State.applyValues_part (s : State) (vs : List (Nat × Nat)) :
    (State.applyValues s vs).part = s.part := by
  unfold State.applyValues; simp only []; (repeat' split) <;> simp [*]

@[simp] theorem State.eraseCommand_part (s : State) :
    (State.eraseCommand s).part = s.part := by
  simp [State.eraseCommand, *]

@[simp] theorem State.refuse_part (s : State) (path : Path) (a : Access) (r : Refused) :
    (State.refuse s path a r).1.part = s.part := by
  unfold State.refuse; simp only []; (repeat' split) <;> simp [*]

@[simp] theorem State.carryOut_part (s : State) (path : Path) (a : Access) (ws : List (Nat × Nat)) :
    (State.carryOut s path a ws).1.part = s.part := by
  unfold State.carryOut; simp only []; (repeat' split) <;> simp [*]

@[simp] theorem State.settleRead_part (s : State) (path : Path) (a : Access) (x : Except Refused (List Byte)) :
    (State.settleRead s path a x).1.part = s.part := by
  unfold State.settleRead; simp only []; (repeat' split) <;> simp [*]

@[simp] theorem State.serveAccess_part (s : State) (path : Path) (a : Access) :
    (State.serveAccess s path a).1.part = s.part := by
  unfold State.serveAccess; simp only []; (repeat' split) <;> simp [*]

@[simp] theorem State.completeRequest_part (s : State) (tag : Nat) (st : Status) (response : Tab Byte) :
    (State.completeRequest s tag st response).part = s.part := by
  simp [State.completeRequest, *]

@[simp] theorem State.finishJob_part (s : State) (j : Job) (rest : List Job) :
    (State.finishJob s j rest).part = s.part := by
  unfold State.finishJob; simp only []; (repeat' split) <;> simp [*]

@[simp] theorem State.answerFront_part (s : State) (j : Job) (a : Access) (as : List Access) (rest : List Job) (r : Reply) :
    (State.answerFront s j a as rest r).part = s.part := by
  unfold State.answerFront; simp only []; (repeat' split) <;> simp [*]

@[simp] theorem State.serveOne_part (s : State) :
    (State.serveOne s).part = s.part := by
  unfold State.serveOne; simp only []; (repeat' split) <;> simp [*]

@[simp] theorem State.serveTurns_part (x0 : Nat) (x1 : State) :
    (State.serveTurns x0 x1).part = x1.part := by
  induction x0 generalizing x1 <;> simp_all [State.serveTurns]

@[simp] theorem State.serve_part (s : State) :
    (State.serve s).part = s.part := by
  simp [State.serve, *]

@[simp] theorem State.enqueueJob_part (s : State) (j : Job) :
    (State.enqueueJob s j).part = s.part := by
  unfold State.enqueueJob; simp only []; (repeat' split) <;> simp [*]

@[simp] theorem State.reportAer_part (s : State) (kind : Nat) :
    (State.reportAer s kind).part = s.part := by
  rfl

@[simp] theorem State.tlpViolation_part (s : State) (kind : Nat) :
    (State.tlpViolation s kind).part = s.part := by
  unfold State.tlpViolation; (repeat' split) <;> simp [*]

@[simp] theorem State.unsupportedWrite_part (s : State) :
    (State.unsupportedWrite s).part = s.part := by
  simp [State.unsupportedWrite, *]

@[simp] theorem State.busyIgnored_part (s : State) :
    (State.busyIgnored s).part = s.part := by
  simp [State.busyIgnored, *]

@[simp] theorem State.coeAccess_part (s : State) (a : Access) :
    (State.coeAccess s a).part = s.part := by
  unfold State.coeAccess; (repeat' split) <;> simp [*]

@[simp] theorem State.pcieAccess_part (s : State) (a : Access) :
    (State.pcieAccess s a).part = s.part := by
  unfold State.pcieAccess; simp only []; (repeat' split) <;> simp [*]

@[simp] theorem State.access_part (s : State) (path : Path) (a : Access) :
    (State.access s path a).part = s.part := by
  unfold State.access; (repeat' split) <;> simp [*]

@[simp] theorem State.writeObject_part (s : State) (path : Path) (index : Nat) (sub : Nat) (v : Nat) :
    (State.writeObject s path index sub v).part = s.part := by
  simp [State.writeObject, *]

@[simp] theorem State.endLoad_part (s : State) (st : Status) (table : Tab (BitVec 128)) :
    (State.endLoad s st table).part = s.part := by
  unfold State.endLoad; (repeat' split) <;> simp [*]

@[simp] theorem State.answerKWrite_part (s : State) (r : Reply) :
    (State.answerKWrite s r).part = s.part := by
  unfold State.answerKWrite; simp only []; (repeat' split) <;> simp [*]

@[simp] theorem State.refuseKWrite_part (s : State) (r : Refused) :
    (State.refuseKWrite s r).part = s.part := by
  unfold State.refuseKWrite; (repeat' split) <;> simp [*]

@[simp] theorem State.failRecord_part (s : State) :
    (State.failRecord s).part = s.part := by
  simp [State.failRecord, *]

@[simp] theorem State.recordWrite_part (s : State) (ws : List (Nat × Nat)) (bad : List (BitVec 256)) :
    (State.recordWrite s ws bad).part = s.part := by
  unfold State.recordWrite; simp only []; (repeat' split) <;> simp [*]

@[simp] theorem State.commandDone_part (s : State) (st : Status) :
    (State.commandDone s st).part = s.part := by
  unfold State.commandDone; (repeat' split) <;> simp [*]

@[simp] theorem State.compactNow_part (s : State) :
    (State.compactNow s).part = s.part := by
  unfold State.compactNow; simp only []; (repeat' split) <;> simp [*]

@[simp] theorem State.compactionFails_part (s : State) :
    (State.compactionFails s).part = s.part := by
  unfold State.compactionFails; simp only []; (repeat' split) <;> simp [*]

@[simp] theorem State.finishErase_part (s : State) (i : Nat) :
    (State.finishErase s i).part = s.part := by
  unfold State.finishErase; (repeat' split) <;> simp [*]

@[simp] theorem State.refuseCoe_part (s : State) (r : Refused) (detail : Nat) :
    (State.refuseCoe s r detail).part = s.part := by
  simp [State.refuseCoe, *]

@[simp] theorem State.touchImage_part (s : State) (a : Nat) :
    (State.touchImage s a).1.part = s.part := by
  unfold State.touchImage; simp only []; (repeat' split) <;> simp [*]

@[simp] theorem State.loadReel_part (s : State) (a : Nat) :
    (State.loadReel s a).1.part = s.part := by
  unfold State.loadReel; simp only []; (repeat' split) <;> simp [*]

@[simp] theorem State.useContext_part (s : State) :
    (State.useContext s).part = s.part := by
  simp [State.useContext, *]

@[simp] theorem State.refuseContext_part (s : State) (st : Status) :
    (State.refuseContext s st).part = s.part := by
  simp [State.refuseContext, *]

@[simp] theorem State.healTiles_part (s : State) (places : Nat → List (Nat × Nat) × List (Nat × Nat)) :
    (State.healTiles s places).1.part = s.part := by
  unfold State.healTiles; rw [foldl1_part]; intro t b; dsimp only; split <;> simp

@[simp] theorem State.saveContext_part (s : State) (space : Nat) (a : Nat) (n : Nat) :
    (State.saveContext s space a n).1.part = s.part := by
  unfold State.saveContext; simp only []; (repeat' split) <;> simp [*]

@[simp] theorem State.putPlaces_part (s : State) (p : Nat) (x2 : List (Nat × Nat)) (x3 : List Byte) :
    (State.putPlaces s p x2 x3).part = s.part := by
  induction x2 generalizing s p x3 <;> simp_all [State.putPlaces]

@[simp] theorem State.putMemories_part (s : State) (p : Nat) (store : List Byte) (am : List Byte) (regs : List Byte) :
    (State.putMemories s p store am regs).part = s.part := by
  simp [State.putMemories, *]

theorem State.putTile_part (s : State) (l : Nat) (bs : List Byte) {t : _} (h : (State.putTile s l bs) = some t) :
    t.1.part = s.part := by
  simp only [State.putTile] at h; (repeat' split at h) <;> first | (simp at h; done) | (injection h with h; subst h; simp; done) | (simp_all; done) | (simp at h; obtain ⟨h, -⟩ := h; subst h; simp; done) | (simp at h; subst h; simp)

theorem State.putTiles_part (s : State) (x1 : List Nat) (x2 : List Byte) {t : State} (h : (State.putTiles s x1 x2) = some t) :
    t.part = s.part := by
  (induction x1 generalizing s x2 with | nil => (unfold State.putTiles at h; split at h; (cases h; rfl); cases h) | cons a b ih => (unfold State.putTiles at h; split at h; (rename_i t1 r1 heq; rw [ih _ _ h]; exact State.putTile_part _ _ _ heq); cases h))

@[simp] theorem State.placeTile_part (s : State) (r : Reel) (place : List Nat) (l : Nat) :
    (State.placeTile s r place l).part = s.part := by
  unfold State.placeTile; (repeat' split) <;> simp [*]

@[simp] theorem State.placeForContext_part (s : State) :
    (State.placeForContext s).part = s.part := by
  unfold State.placeForContext; (repeat' split) <;> simp [*]

@[simp] theorem State.restoreBytes_part (s : State) (c : List Byte) :
    (State.restoreBytes s c).1.part = s.part := by
  unfold State.restoreBytes; (try dsimp only); (repeat' split) <;> (first | rfl | (rename_i heq; have hh := State.putTiles_part _ _ _ heq; simp [hh]))

@[simp] theorem State.readSource_part (s : State) (space a n : Nat) :
    (State.readSource s space a n).1.part = s.part := by
  unfold State.readSource; (repeat' split) <;> simp [*]

@[simp] theorem State.restoreContext_part (s : State) (space : Nat) (a : Nat) (n : Nat) (data : List Byte) :
    (State.restoreContext s space a n data).1.part = s.part := by
  unfold State.restoreContext; simp only []; (repeat' split) <;> simp [*]

@[simp] theorem State.readFuses_part (s : State) :
    (State.readFuses s).part = s.part := by
  rfl

@[simp] theorem State.programFirmware_part (s : State) (bs : List Byte) :
    (State.programFirmware s bs).1.part = s.part := by
  simp [State.programFirmware, *]

@[simp] theorem State.writeFirmware_part (s : State) (space : Nat) (a : Nat) (n : Nat) (data : List Byte) :
    (State.writeFirmware s space a n data).1.part = s.part := by
  unfold State.writeFirmware; simp only []; (repeat' split) <;> simp [*]

@[simp] theorem State.useFrees_part (s : State) (n : Nat) :
    (State.useFrees s n).part = s.part := by
  simp [State.useFrees, *]

@[simp] theorem State.attest_part (s : State) (space : Nat) (a : Nat) (n : Nat) (nonce : List Byte) :
    (State.attest s space a n nonce).1.part = s.part := by
  unfold State.attest; simp only []; (repeat' split) <;> simp [*]

@[simp] theorem State.latchOther_part (s : State) :
    (State.latchOther s).part = s.part := by
  simp [State.latchOther, *]

@[simp] theorem State.runCommand_part (s : State) (cmd : Nat) (space : Nat) (a : Nat) (n : Nat) (data : List Byte) :
    (State.runCommand s cmd space a n data).1.part = s.part := by
  unfold State.runCommand; simp only []; (repeat' split) <;> simp [*]

@[simp] theorem State.keepResult_part (s : State) (st : Status) (len : Nat) :
    (State.keepResult s st len).part = s.part := by
  simp [State.keepResult, *]

@[simp] theorem State.awaitData_part (s : State) (cmd : Nat) (data : List Byte) :
    (State.awaitData s cmd data).part = s.part := by
  simp [State.awaitData, *]

@[simp] theorem State.noteRefusedCommand_part (s : State) (cmd : Nat) (st : Status) :
    (State.noteRefusedCommand s cmd st).part = s.part := by
  unfold State.noteRefusedCommand; (repeat' split) <;> simp [*]

@[simp] theorem State.markBusy_part (s : State) :
    (State.markBusy s).part = s.part := by
  simp [State.markBusy, *]

@[simp] theorem State.acceptCommand_part (s : State) (cmd : Nat) (data : List Byte) :
    (State.acceptCommand s cmd data).part = s.part := by
  unfold State.acceptCommand; simp only []; (repeat' split) <;> simp [*]

@[simp] theorem State.writeCmd_part (s : State) (cmd : Nat) (data : List Byte) :
    (State.writeCmd s cmd data).part = s.part := by
  unfold State.writeCmd; (repeat' split) <;> simp [*]

@[simp] theorem State.hostCommand_part (s : State) (cmd : Nat) (data : List Byte) :
    (State.hostCommand s cmd data).part = s.part := by
  unfold State.hostCommand; (repeat' split) <;> simp [*]

@[simp] theorem State.runWaiting_part (s : State) :
    (State.runWaiting s).part = s.part := by
  unfold State.runWaiting; simp only []; (repeat' split) <;> simp [*]

@[simp] theorem State.reportCommand_part (s : State) (st : Status) (len : Nat) :
    (State.reportCommand s st len).part = s.part := by
  simp [State.reportCommand, *]

@[simp] theorem State.setRing_part (s : State) (r : Nat) (x : Ring) :
    (State.setRing s r x).part = s.part := by
  simp [State.setRing, *]

@[simp] theorem State.stopRing_part (s : State) (r : Nat) :
    (State.stopRing s r).part = s.part := by
  simp [State.stopRing, *]

@[simp] theorem State.writeTail_part (s : State) (r : Nat) (v : Nat) :
    (State.writeTail s r v).part = s.part := by
  simp only [State.writeTail, apply_ite State.part]; simp

@[simp] theorem State.writeEnable_part (s : State) (r : Nat) (on : Bool) :
    (State.writeEnable s r on).part = s.part := by
  simp [State.writeEnable, *]

@[simp] theorem State.startDescriptor_part (s : State) (r : Nat) (d : BitVec 256) :
    (State.startDescriptor s r d).part = s.part := by
  unfold State.startDescriptor; simp only []; (repeat' split) <;> simp [*]

@[simp] theorem State.addWafer_part (s : State) (w : Nat) :
    (State.addWafer s w).part = s.part := by
  simp [State.addWafer, *]

@[simp] theorem State.ingestFlag_part (s : State) (d : BitVec 256) (st : Status) :
    (State.ingestFlag s d st).part = s.part := by
  unfold State.ingestFlag; (repeat' split) <;> simp [*]

@[simp] theorem State.ingestWriteBack_part (s : State) (r : Nat) (f : InFlight) (st : Status) :
    (State.ingestWriteBack s r f st).part = s.part := by
  unfold State.ingestWriteBack; simp only []; (repeat' split) <;> simp [*]

@[simp] theorem State.ingestLog_part (s : State) (r : Nat) (f : InFlight) (st : Status) :
    (State.ingestLog s r f st).part = s.part := by
  unfold State.ingestLog; (repeat' split) <;> simp [*]

@[simp] theorem State.ingestJudge_part (s : State) (d : BitVec 256) (st : Status) :
    (State.ingestJudge s d st).part = s.part := by
  unfold State.ingestJudge; (repeat' split) <;> simp [*]

@[simp] theorem State.completeDescriptor_part (s : State) (r : Nat) (f : InFlight) (st : Status) :
    (State.completeDescriptor s r f st).part = s.part := by
  simp [State.completeDescriptor, *]

@[simp] theorem State.ingestOldest_part (s : State) (r : Nat) (f : InFlight) (data : List Byte) :
    (State.ingestOldest s r f data).part = s.part := by
  unfold State.ingestOldest; simp only []; (repeat' split) <;> simp [*]

@[simp] theorem State.partialData_part (s : State) (d : BitVec 256) :
    (State.partialData s d).part = s.part := by
  simp [State.partialData, *]

theorem State.abortDescriptor_part (s : State) (r : Nat) {t : State} (h : (State.abortDescriptor s r) = some t) :
    t.part = s.part := by
  simp only [State.abortDescriptor] at h; (repeat' split at h) <;> first | (simp at h; done) | (injection h with h; subst h; simp; done) | (simp_all; done) | (simp at h; obtain ⟨h, -⟩ := h; subst h; simp; done) | (simp at h; subst h; simp)

theorem State.abortMove_part (s : State) (l : Nat) {t : State} (h : (State.abortMove s l) = some t) :
    t.part = s.part := by
  simp only [State.abortMove] at h; (repeat' split at h) <;> first | (simp at h; done) | (injection h with h; subst h; simp; done) | (simp_all; done) | (simp at h; obtain ⟨h, -⟩ := h; subst h; simp; done) | (simp at h; subst h; simp)

theorem State.abortCommand_part (s : State) {t : State} (h : (State.abortCommand s) = some t) :
    t.part = s.part := by
  simp only [State.abortCommand] at h; (repeat' split at h) <;> first | (simp at h; done) | (injection h with h; subst h; simp; done) | (simp_all; done) | (simp at h; obtain ⟨h, -⟩ := h; subst h; simp; done) | (simp at h; subst h; simp)

theorem State.abortRead_part (s : State) (read : HostRead) {t : State} (h : (State.abortRead s read) = some t) :
    t.part = s.part := by
  cases read with | ring r => (simp only [State.abortRead] at h; split at h; exact State.abortDescriptor_part _ _ h; cases h) | moveOf l => exact State.abortMove_part _ _ h | command => exact State.abortCommand_part _ h

@[simp] theorem State.putAnswer_part (s : State) (index : Nat) (vs : List Nat) :
    (State.putAnswer s index vs).part = s.part := by
  simp [State.putAnswer, *]

@[simp] theorem State.ringAnswer_part (s : State) (rec : List Byte) :
    (State.ringAnswer s rec).part = s.part := by
  unfold State.ringAnswer; simp only []; (repeat' split) <;> simp [*]

@[simp] theorem State.countAnswer_part (s : State) (a : TakeAnswers) :
    (State.countAnswer s a).part = s.part := by
  unfold State.countAnswer; simp only []; (repeat' split) <;> simp [*]

@[simp] theorem State.dropWafer_part (s : State) (take : Nat) (w : Nat) :
    (State.dropWafer s take w).part = s.part := by
  simp [State.dropWafer, *]

@[simp] theorem State.publish_part (s : State) (a : TakeAnswers) (w : Nat) :
    (State.publish s a w).part = s.part := by
  simp [State.publish, *]

@[simp] theorem State.barIgnored_part (s : State) (bar : Nat) (off : Nat) (st : Status) :
    (State.barIgnored s bar off st).part = s.part := by
  simp [State.barIgnored, *]

@[simp] theorem State.logIf_part (s : State) (b : Bool) (bar : Nat) (off : Nat) :
    (State.logIf s b bar off).part = s.part := by
  unfold State.logIf; (repeat' split) <;> simp [*]

@[simp] theorem State.abortBarRead_part (s : State) (bar : Nat) (off : Nat) (st : Status) :
    (State.abortBarRead s bar off st).part = s.part := by
  simp [State.abortBarRead, *]

@[simp] theorem State.unsupportedRead_part (s : State) :
    (State.unsupportedRead s).part = s.part := by
  unfold State.unsupportedRead; (repeat' split) <;> simp [*]

@[simp] theorem State.windowRead_part (s : State) (off : Nat) (size : Nat) :
    (State.windowRead s off size).part = s.part := by
  unfold State.windowRead; simp only []; (repeat' split) <;> simp [*]

@[simp] theorem State.barRead_part (s : State) (bar : Nat) (off : Nat) (size : Nat) :
    (State.barRead s bar off size).part = s.part := by
  unfold State.barRead; (repeat' split) <;> simp [*]

@[simp] theorem State.windowWrite_part (s : State) (off : Nat) (bs : List Byte) :
    (State.windowWrite s off bs).part = s.part := by
  unfold State.windowWrite; simp only []; (repeat' split) <;> simp [*]

@[simp] theorem State.writePort_part (s : State) (off : Nat) (size : Nat) (v : Nat) :
    (State.writePort s off size v).part = s.part := by
  unfold State.writePort; simp only []; (repeat' split) <;> simp [*]

@[simp] theorem State.writeCmdBlock_part (s : State) (off : Nat) (size : Nat) (v : Nat) :
    (State.writeCmdBlock s off size v).part = s.part := by
  unfold State.writeCmdBlock; simp only []; (repeat' split) <;> simp [*]

@[simp] theorem State.logLocked_part (s : State) (b : Bool) :
    (State.logLocked s b).part = s.part := by
  unfold State.logLocked; (repeat' split) <;> simp [*]

@[simp] theorem State.writeRing_part (s : State) (r : Nat) (off : Nat) (size : Nat) (v : Nat) :
    (State.writeRing s r off size v).part = s.part := by
  unfold State.writeRing; simp only []; (repeat' split) <;> simp [*]

@[simp] theorem State.writeReadIndex_part (s : State) (v : Nat) (off : Nat) :
    (State.writeReadIndex s v off).part = s.part := by
  unfold State.writeReadIndex; simp only []; (repeat' split) <;> simp [*]

@[simp] theorem State.writeAnswers_part (s : State) (off : Nat) (size : Nat) (v : Nat) :
    (State.writeAnswers s off size v).part = s.part := by
  simp only [State.writeAnswers, apply_ite State.part]; simp

@[simp] theorem State.writeSegment_part (s : State) (i : Nat) (off : Nat) (size : Nat) (v : Nat) :
    (State.writeSegment s i off size v).part = s.part := by
  simp [State.writeSegment, *]

@[simp] theorem State.writeMsixWord_part (s : State) (w : Nat) (v : Nat) :
    (State.writeMsixWord s w v).part = s.part := by
  unfold State.writeMsixWord; simp only []; (repeat' split) <;> simp [*]

@[simp] theorem State.writeMsix_part (s : State) (w : Nat) (size : Nat) (v : Nat) :
    (State.writeMsix s w size v).part = s.part := by
  unfold State.writeMsix; simp only []; (repeat' split) <;> simp [*]

@[simp] theorem State.bar0Write_part (s : State) (off : Nat) (size : Nat) (v : Nat) :
    (State.bar0Write s off size v).part = s.part := by
  unfold State.bar0Write; (repeat' split) <;> simp [*]

@[simp] theorem State.startRequest_part (s : State) (tag : Nat) :
    (State.startRequest s tag).part = s.part := by
  unfold State.startRequest; simp only []; (repeat' split) <;> simp [*]

@[simp] theorem State.writeDoorbell_part (s : State) (tag : Nat) :
    (State.writeDoorbell s tag).part = s.part := by
  unfold State.writeDoorbell; (repeat' split) <;> simp [*]

@[simp] theorem State.bar4Write_part (s : State) (off : Nat) (size : Nat) (v : Nat) :
    (State.bar4Write s off size v).part = s.part := by
  unfold State.bar4Write; simp only []; (repeat' split) <;> simp [*]

@[simp] theorem State.barWrite_part (s : State) (bar : Nat) (off : Nat) (size : Nat) (value : Nat) :
    (State.barWrite s bar off size value).part = s.part := by
  unfold State.barWrite; simp only []; (repeat' split) <;> simp [*]

@[simp] theorem State.openDownload_part (s : State) (a : Access) :
    (State.openDownload s a).part = s.part := by
  unfold State.openDownload; simp only []; (repeat' split) <;> simp [*]

@[simp] theorem State.wholeDownload_part (s : State) (a : Access) :
    (State.wholeDownload s a).part = s.part := by
  simp [State.wholeDownload, *]

@[simp] theorem State.writeFunctionMask_part (s : State) (on : Bool) :
    (State.writeFunctionMask s on).part = s.part := by
  unfold State.writeFunctionMask; (repeat' split) <;> simp [*]

@[simp] theorem State.configWrite_part (s : State) (f : ConfigField) (v : Nat) :
    (State.configWrite s f v).part = s.part := by
  unfold State.configWrite; (repeat' split) <;> simp [*]

@[simp] theorem State.configAccess_part (s : State) (a : ConfigAccess) :
    (State.configAccess s a).part = s.part := by
  unfold State.configAccess; (repeat' split) <;> simp [*]

@[simp] theorem State.configRequest_part (s : State) (a : ConfigAccess) :
    (State.configRequest s a).part = s.part := by
  unfold State.configRequest; (repeat' split) <;> simp [*]

@[simp] theorem State.enterStandby_part (s : State) :
    (State.enterStandby s).part = s.part := by
  unfold State.enterStandby; (repeat' split) <;> simp [*]

@[simp] theorem State.stepTb_part (s : State) (target : Nat) :
    (State.stepTb s target).part = s.part := by
  simp [State.stepTb, *]

@[simp] theorem State.discipline_part (s : State) (dcTime : Nat) :
    (State.discipline s dcTime).part = s.part := by
  unfold State.discipline; simp only []; (repeat' split) <;> simp [*]

@[simp] theorem State.latchPosition_part (s : State) :
    (State.latchPosition s).part = s.part := by
  simp [State.latchPosition, *]

@[simp] theorem State.plantSlate_part (s : State) :
    (State.plantSlate s).part = s.part := by
  unfold State.plantSlate; (repeat' split) <;> simp [*]

@[simp] theorem State.latchPlant_part (s : State) :
    (State.latchPlant s).part = s.part := by
  unfold State.latchPlant; simp only []; (repeat' split) <;> simp [*]

@[simp] theorem State.addMissed_part (s : State) (n : Nat) :
    (State.addMissed s n).part = s.part := by
  rfl

@[simp] theorem State.countMissed_part (s : State) :
    (State.countMissed s).part = s.part := by
  unfold State.countMissed; (repeat' split) <;> simp [*]

@[simp] theorem State.syncLatch_part (s : State) :
    (State.syncLatch s).part = s.part := by
  unfold State.syncLatch; simp only []; (repeat' split) <;> simp [*]

@[simp] theorem State.writeMapped_part (s : State) (x1 : List Nat) (x2 : List Byte) :
    (State.writeMapped s x1 x2).part = s.part := by
  (induction x1 generalizing x2 s with | nil => (simp [State.writeMapped] <;> done) | cons a b ih => (unfold State.writeMapped; (try dsimp only); (repeat' split) <;> simp_all))

@[simp] theorem State.takeOutputs_part (s : State) (data : List Byte) :
    (State.takeOutputs s data).part = s.part := by
  unfold State.takeOutputs; simp only []; (repeat' split) <;> simp

@[simp] theorem State.receivePdo_part (s : State) (data : List Byte) :
    (State.receivePdo s data).part = s.part := by
  unfold State.receivePdo; simp only []; (repeat' split) <;> simp [*]

@[simp] theorem State.losePlant_part (s : State) :
    (State.losePlant s).part = s.part := by
  unfold State.losePlant; simp only []; (repeat' split) <;> simp [*]

@[simp] theorem State.voidSlot_part (s : State) :
    (State.voidSlot s).part = s.part := by
  simp [State.voidSlot, *]

@[simp] theorem State.abandonFoe_part (s : State) :
    (State.abandonFoe s).part = s.part := by
  unfold State.abandonFoe; simp only []; (repeat' split) <;> simp [*]

@[simp] theorem State.leaveAl_part (s : State) :
    (State.leaveAl s).part = s.part := by
  unfold State.leaveAl; (repeat' split) <;> simp [*]

@[simp] theorem State.enterAl_part (s : State) (target : Nat) (code : Nat) :
    (State.enterAl s target code).part = s.part := by
  simp [State.enterAl, *]

@[simp] theorem State.refuseAl_part (s : State) (code : Nat) :
    (State.refuseAl s code).part = s.part := by
  simp [State.refuseAl, *]

@[simp] theorem State.requestAl_part (s : State) (from_ : Nat) (target : Nat) (check : Nat) (accept : State → State) (haccept : ∀ t, (accept t).part = t.part) :
    (State.requestAl s from_ target check accept).part = s.part := by
  unfold State.requestAl; simp only []; (repeat' split) <;> simp [*]

@[simp] theorem State.setCycle_part (s : State) (c : CycleCfg) :
    (State.setCycle s c).part = s.part := by
  rfl

@[simp] theorem State.startOp_part (s : State) :
    (State.startOp s).part = s.part := by
  simp [State.startOp, *]

@[simp] theorem State.noteMissed_part (s : State) :
    (State.noteMissed s).part = s.part := by
  simp [State.noteMissed, *]

@[simp] theorem State.refuseFoe_part (s : State) (code : Nat) :
    (State.refuseFoe s code).part = s.part := by
  simp [State.refuseFoe, *]

@[simp] theorem State.openFoe_part (s : State) :
    (State.openFoe s).part = s.part := by
  unfold State.openFoe; simp only []; (repeat' split) <;> simp [*]

@[simp] theorem State.programFoe_part (s : State) (off : Nat) (data : List Byte) (ok : Bool) :
    (State.programFoe s off data ok).part = s.part := by
  unfold State.programFoe; (repeat' split) <;> simp [*]

@[simp] theorem State.takeFoe_part (s : State) (n : Nat) (data : List Byte) (last : Bool) (ok : Bool) :
    (State.takeFoe s n data last ok).part = s.part := by
  unfold State.takeFoe; simp only []; (repeat' split) <;> simp [*]

@[simp] theorem State.foeTooLong_part (s : State) :
    (State.foeTooLong s).part = s.part := by
  simp [State.foeTooLong, *]

@[simp] theorem State.drainFoe_part (s : State) :
    (State.drainFoe s).part = s.part := by
  unfold State.drainFoe; simp only []; (repeat' split) <;> simp [*]

@[simp] theorem State.keepRecord_part (s : State) (key : Nat) (v : Nat) :
    (State.keepRecord s key v).part = s.part := by
  unfold State.keepRecord; simp only []; (repeat' split) <;> simp [*]

@[simp] theorem State.siiRead_part (s : State) (word : Nat) :
    (State.siiRead s word).part = s.part := by
  unfold State.siiRead; (repeat' split) <;> simp [*]

@[simp] theorem State.miiLinkUp_part (s : State) (port : Nat) :
    (State.miiLinkUp s port).part = s.part := by
  unfold State.miiLinkUp; (repeat' split) <;> simp [*]

@[simp] theorem State.trainLink_part (s : State) :
    (State.trainLink s).part = s.part := by
  unfold State.trainLink; (repeat' split) <;> simp [*]

@[simp] theorem State.releaseEcat_part (s : State) :
    (State.releaseEcat s).part = s.part := by
  unfold State.releaseEcat; (repeat' split) <;> simp [*]

@[simp] theorem State.recordFence_part (s : State) (b : Block) :
    (State.recordFence s b).part = s.part := by
  simp [State.recordFence, *]

@[simp] theorem State.isolateWait_part (s : State) (l : Nat) :
    (State.isolateWait s l).part = s.part := by
  unfold State.isolateWait; (repeat' split) <;> simp [*]

@[simp] theorem State.isolateHub_part (s : State) :
    (State.isolateHub s).part = s.part := by
  unfold State.isolateHub; simp only []; (repeat' split) <;> simp [*]

@[simp] theorem State.maskFence_part (s : State) (x1 : Block) :
    (State.maskFence s x1).part = s.part := by
  unfold State.maskFence; simp only []; (repeat' split) <;> simp [*]

@[simp] theorem State.fenceBlock_part (s : State) (b : Block) :
    (State.fenceBlock s b).part = s.part := by
  unfold State.fenceBlock; (repeat' split) <;> simp [*]

@[simp] theorem State.returnBlock_part (s : State) (b : Block) :
    (State.returnBlock s b).part = s.part := by
  unfold State.returnBlock; simp only []; (repeat' split) <;> simp [*]

@[simp] theorem State.testBlock_part (s : State) (b : Block) (passed : Bool) :
    (State.testBlock s b passed).part = s.part := by
  unfold State.testBlock; simp only []; (repeat' split) <;> simp [*]

@[simp] theorem State.testTile_part (s : State) (p : Nat) (passed : Bool) :
    (State.testTile s p passed).part = s.part := by
  unfold State.testTile; simp only []; (repeat' split) <;> simp [*]

@[simp] theorem State.targetAgain_part (s : State) (c : Nat) :
    (State.targetAgain s c).part = s.part := by
  unfold State.targetAgain; (repeat' split) <;> simp [*]

@[simp] theorem State.testCore_part (s : State) (c : Nat) (passed : Bool) :
    (State.testCore s c passed).part = s.part := by
  unfold State.testCore; simp only []; (repeat' split) <;> simp [*]

@[simp] theorem State.dropFoe_part (s : State) :
    (State.dropFoe s).part = s.part := by
  unfold State.dropFoe; (repeat' split) <;> simp [*]

@[simp] theorem State.resetBlocks_part (s : State) :
    (State.resetBlocks s).part = s.part := by
  simp [State.resetBlocks, *]

@[simp] theorem State.assertSource_part (s : State) (cause : Nat) :
    (State.assertSource s cause).part = s.part := by
  unfold State.assertSource; simp only []; (repeat' split) <;> simp [*]

@[simp] theorem State.releaseSource_part (s : State) (cause : Nat) :
    (State.releaseSource s cause).part = s.part := by
  simp [State.releaseSource, *]

@[simp] theorem State.pulseSource_part (s : State) (cause : Nat) :
    (State.pulseSource s cause).part = s.part := by
  simp [State.pulseSource, *]

@[simp] theorem State.loseAlwaysOn_part (s : State) :
    (State.loseAlwaysOn s).part = s.part := by
  simp [State.loseAlwaysOn, *]

@[simp] theorem State.showReading_part (s : State) (raw : List Nat) (i : Nat) :
    (State.showReading s raw i).part = s.part := by
  simp [State.showReading, *]

@[simp] theorem State.showStack_part (s : State) (raw : List Nat) (i : Nat) :
    (State.showStack s raw i).part = s.part := by
  unfold State.showStack; (repeat' split) <;> simp [*]

@[simp] theorem State.showReadings_part (s : State) (raw : List Nat) :
    (State.showReadings s raw).part = s.part := by
  unfold State.showReadings; simp only []; (repeat' split) <;> simp [*]

@[simp] theorem State.tripCheck_part (s : State) (raw : List Nat) :
    (State.tripCheck s raw).part = s.part := by
  unfold State.tripCheck; simp only []; (repeat' split) <;> simp [*]

@[simp] theorem State.latchCfg_part (s : State) (ohms : Nat) :
    (State.latchCfg s ohms).part = s.part := by
  simp [State.latchCfg, *]

@[simp] theorem State.endWake_part (s : State) (p : Nat) :
    (State.endWake s p).part = s.part := by
  unfold State.endWake; (repeat' split) <;> simp [*]

@[simp] theorem State.startDomain_part (s : State) (x1 : Domain) :
    (State.startDomain s x1).part = s.part := by
  unfold State.startDomain; simp only []; (repeat' split) <;> simp [*]

@[simp] theorem State.startFirmware_part (s : State) (i : Nat) :
    (State.startFirmware s i).part = s.part := by
  simp [State.startFirmware, *]

@[simp] theorem State.startRecovery_part (s : State) :
    (State.startRecovery s).part = s.part := by
  simp [State.startRecovery, *]

@[simp] theorem State.reportBoot_part (s : State) (fellBack : Bool) :
    (State.reportBoot s fellBack).part = s.part := by
  unfold State.reportBoot; simp only []; (repeat' split) <;> simp [*]

@[simp] theorem State.copyBody_part (s : State) (t : Tab Byte) :
    (State.copyBody s t).part = s.part := by
  unfold State.copyBody; (repeat' split) <;> simp [*]

@[simp] theorem State.afterTry_part (s : State) (i r : Nat) :
    (State.afterTry s i r).part = s.part := by
  unfold State.afterTry; (repeat' split) <;> simp [*]

@[simp] theorem State.bootRom_part (s : State) :
    (State.bootRom s).part = s.part := by
  unfold State.bootRom; simp only []; (repeat' split) <;> simp [*]

@[simp] theorem State.finishBist_part (s : State) (f : BistFinding) :
    (State.finishBist s f).part = s.part := by
  simp [State.finishBist, *]

@[simp] theorem State.keepGroup_part (s : State) (vs : List (Nat × Nat)) :
    (State.keepGroup s vs).part = s.part := by
  unfold State.keepGroup; simp only []; (repeat' split) <;> simp [*]

@[simp] theorem State.recordBist_part (s : State) (f : BistFinding) :
    (State.recordBist s f).part = s.part := by
  unfold State.recordBist; (repeat' split) <;> simp [*]

@[simp] theorem State.failTile_part (s : State) (p : Nat) :
    (State.failTile s p).part = s.part := by
  simp [State.failTile, *]

@[simp] theorem State.failCore_part (s : State) (failed : List Nat) (c : Nat) :
    (State.failCore s failed c).part = s.part := by
  unfold State.failCore; simp only []; (repeat' split) <;> simp [*]

@[simp] theorem State.failPort_part (s : State) (k : Nat) :
    (State.failPort s k).part = s.part := by
  simp [State.failPort, *]

@[simp] theorem State.markUnusable_part (s : State) (b : Block) :
    (State.markUnusable s b).part = s.part := by
  unfold State.markUnusable; (repeat' split) <;> simp [*]

@[simp] theorem State.loseNetwork_part (s : State) (x1 : Domain) :
    (State.loseNetwork s x1).part = s.part := by
  unfold State.loseNetwork; (repeat' split) <;> simp [*]

@[simp] theorem State.applyBist_part (s : State) (f : BistFinding) :
    (State.applyBist s f).part = s.part := by
  unfold State.applyBist; simp only []; (repeat' split) <;> simp [*]

@[simp] theorem State.loseTile_part (s : State) (p : Nat) :
    (State.loseTile s p).part = s.part := by
  unfold State.loseTile; simp only []; (repeat' split) <;> simp [*]

@[simp] theorem State.loseDomain_part (s : State) (d : Domain) :
    (State.loseDomain s d).part = s.part := by
  unfold State.loseDomain; (repeat' split) <;> simp [*]

@[simp] theorem State.startLine_part (s : State) :
    (State.startLine s).part = s.part := by
  simp [State.startLine, *]

@[simp] theorem State.startRunning_part (s : State) :
    (State.startRunning s).part = s.part := by
  simp [State.startRunning, *]

@[simp] theorem State.startCalibration_part (s : State) :
    (State.startCalibration s).part = s.part := by
  unfold State.startCalibration; simp only []; (repeat' split) <;> simp [*]

@[simp] theorem State.resumeTakes_part (s : State) :
    (State.resumeTakes s).part = s.part := by
  unfold State.resumeTakes; (repeat' split) <;> simp [*]

@[simp] theorem State.firstSnapshot_part (s : State) :
    (State.firstSnapshot s).part = s.part := by
  unfold State.firstSnapshot; (repeat' split) <;> simp [*]

@[simp] theorem State.comeUp_part (s : State) :
    (State.comeUp s).part = s.part := by
  simp [State.comeUp, *]

@[simp] theorem State.gateTiles_part (s : State) :
    (State.gateTiles s).part = s.part := by
  simp [State.gateTiles, *]

@[simp] theorem State.gateClocks_part (s : State) :
    (State.gateClocks s).part = s.part := by
  rfl

@[simp] theorem State.standbyPorts_part (s : State) :
    (State.standbyPorts s).part = s.part := by
  unfold State.standbyPorts; (repeat' split) <;> simp [*]

@[simp] theorem State.enterSleep_part (s : State) :
    (State.enterSleep s).part = s.part := by
  simp [State.enterSleep, *]

@[simp] theorem State.wakeTiles_part (s : State) :
    (State.wakeTiles s).part = s.part := by
  simp [State.wakeTiles, *]

@[simp] theorem State.replaceReel_part (s : State) (r : Reel) :
    (State.replaceReel s r).part = s.part := by
  simp [State.replaceReel, *]

@[simp] theorem State.endFills_part (s : State) :
    (State.endFills s).part = s.part := by
  unfold State.endFills; (repeat' split) <;> simp [*]

@[simp] theorem State.leaveSleep_part (s : State) :
    (State.leaveSleep s).part = s.part := by
  unfold State.leaveSleep; simp only []; (repeat' split) <;> simp [*]

@[simp] theorem State.loadIr_part (s : State) (code : Nat) :
    (State.loadIr s code).part = s.part := by
  simp [State.loadIr, *]

@[simp] theorem State.newChallenge_part (s : State) :
    (State.newChallenge s).part = s.part := by
  simp [State.newChallenge, *]

@[simp] theorem State.answerChallenge_part (s : State) (level : Nat) (keys : List Byte) (sigEd : List Byte) (sigMl : List Byte) :
    (State.answerChallenge s level keys sigEd sigMl).part = s.part := by
  unfold State.answerChallenge; simp only []; (repeat' split) <;> simp [*]

@[simp] theorem State.holdForScan_part (s : State) :
    (State.holdForScan s).part = s.part := by
  simp [State.holdForScan, *]

@[simp] theorem State.zeroise_part (s : State) :
    (State.zeroise s).part = s.part := by
  simp [State.zeroise, *]

@[simp] theorem State.zeroiseTables_part (s : State) :
    (State.zeroiseTables s).part = s.part := by
  simp [State.zeroiseTables, *]

@[simp] theorem State.blockFuses_part (s : State) :
    (State.blockFuses s).part = s.part := by
  simp [State.blockFuses, *]

@[simp] theorem State.openScan_part (s : State) :
    (State.openScan s).part = s.part := by
  simp [State.openScan, *]

@[simp] theorem State.scanStep_part (s : State) (x1 : Nat) :
    (State.scanStep s x1).part = s.part := by
  unfold State.scanStep; (repeat' split) <;> simp [*]

@[simp] theorem State.scanSteps_part (s : State) (x1 : Nat) :
    (State.scanSteps s x1).part = s.part := by
  induction x1 generalizing s <;> simp_all [State.scanSteps]

@[simp] theorem State.failScan_part (s : State) (k : Nat) :
    (State.failScan s k).part = s.part := by
  unfold State.failScan; simp only []; (repeat' split) <;> simp [*]

@[simp] theorem State.enableScan_part (s : State) :
    (State.enableScan s).part = s.part := by
  simp [State.enableScan, *]

@[simp] theorem State.rewriteMask_part (s : State) (p : Nat) (w : Desc) (m : Desc) (now : List (List (Nat × Option Nat))) :
    (State.rewriteMask s p w m now).1.part = s.part := by
  simp [State.rewriteMask, *]

@[simp] theorem State.trimRun_part (s : State) (p : Nat) (x : Nat) (w : Desc) (m : Desc) :
    (State.trimRun s p x w m).s.part = s.part := by
  simp [State.trimRun, *]

@[simp] theorem trimEff_part (s : State) (_l : Nat) (p : Nat) (e : QEntry) :
    (trimEff s _l p e).s.part = s.part := by
  unfold trimEff; simp only []; (repeat' split) <;> simp [*]

@[simp] theorem State.scanRun_part (s : State) (l : Nat) (p : Nat) (x : Nat) (m : Desc) (c : Desc) (ga : Desc) (gb : Desc) :
    (State.scanRun s l p x m c ga gb).s.part = s.part := by
  simp [State.scanRun, *]

@[simp] theorem scanEff_part (s : State) (l : Nat) (p : Nat) (e : QEntry) :
    (scanEff s l p e).s.part = s.part := by
  unfold scanEff; simp only []; (repeat' split) <;> simp [*]

@[simp] theorem State.tipinRun_part (s : State) (l : Nat) (p : Nat) (pos : Nat) (x : Nat) (w : Desc) (m : Desc) (c : Desc) (grow : Nat) :
    (State.tipinRun s l p pos x w m c grow).s.part = s.part := by
  unfold State.tipinRun; simp only []; (repeat' split) <;> simp [*]

@[simp] theorem tipinEff_part (s : State) (l : Nat) (p : Nat) (e : QEntry) :
    (tipinEff s l p e).s.part = s.part := by
  unfold tipinEff; simp only []; (repeat' split) <;> simp [*]

@[simp] theorem State.checkRun_part (s : State) (p x : Nat) (m r : Desc) :
    (State.checkRun s p x m r).s.part = s.part := by
  simp [State.checkRun, *]

@[simp] theorem checkEff_part (s : State) (_l : Nat) (p : Nat) (e : QEntry) :
    (checkEff s _l p e).s.part = s.part := by
  unfold checkEff; simp only []; (repeat' split) <;> simp [*]

@[simp] theorem State.randRun_part (s : State) (l : Nat) (p : Nat) (x : Nat) (d : Desc) :
    (State.randRun s l p x d).s.part = s.part := by
  unfold State.randRun; simp only []; (repeat' split) <;> simp [*]

@[simp] theorem randEff_part (s : State) (l : Nat) (p : Nat) (e : QEntry) :
    (randEff s l p e).s.part = s.part := by
  unfold randEff; simp only []; (repeat' split) <;> simp [*]

@[simp] theorem State.takeIdentity_part (s : State) (k : Nat) (q : Packet) (rack package role : Nat) :
    (State.takeIdentity s k q rack package role).part = s.part := by
  unfold State.takeIdentity; (repeat' split) <;> simp [*]

@[simp] theorem State.sramUpset_part (s : State) (a : Nat) (double : Bool) :
    (State.sramUpset s a double).part = s.part := by
  unfold State.sramUpset; simp only []; (repeat' split) <;> simp [*]

@[simp] theorem State.serveAgain_part (s : State) :
    (State.serveAgain s).part = s.part := by
  unfold State.serveAgain; (repeat' split) <;> simp [*]

@[simp] theorem State.readInputs_part (s : State) :
    (State.readInputs s).part = s.part := by
  unfold State.readInputs; (repeat' split) <;> simp [*]

@[simp] theorem State.driveTrst_part (s : State) (high : Bool) :
    (State.driveTrst s high).part = s.part := by
  unfold State.driveTrst; (repeat' split) <;> simp [*]

end Sys2Proof.Machine
end

