-- ==== Sys2Proof/Laws/Pending.lean ====
section
/-!
SUPPORT. Every operation of the model leaves the queue of waiting commands alone.
-/

namespace Sys2Proof.Machine

open Sys2Proof

@[simp] theorem foldl_pending {β : Type} (g : State → β → State) (l : List β) (s : State) (h : ∀ t b, (g t b).pending = t.pending) : (l.foldl g s).pending = s.pending := by
  induction l generalizing s with
  | nil => rfl
  | cons a l ih => rw [List.foldl_cons, ih, h]

@[simp] theorem foldl1_pending {α β : Type} (g : State × α → β → State × α) (l : List β) (x : State × α) (h : ∀ t b, (g t b).1.pending = t.1.pending) : (l.foldl g x).1.pending = x.1.pending := by
  induction l generalizing x with
  | nil => rfl
  | cons a l ih => rw [List.foldl_cons, ih, h]

@[simp] theorem State.setObj_pending (s : State) (k : Nat) (v : Nat) :
    (State.setObj s k v).pending = s.pending := by
  simp [State.setObj, *]

@[simp] theorem State.addObj_pending (s : State) (k : Nat) (bits : Nat) (n : Nat) :
    (State.addObj s k bits n).pending = s.pending := by
  simp [State.addObj, *]

@[simp] theorem State.incObj_pending (s : State) (k : Nat) :
    (State.incObj s k).pending = s.pending := by
  simp [State.incObj, *]

@[simp] theorem State.wakeBlock_pending (s : State) (b : Block) :
    (State.wakeBlock s b).pending = s.pending := by
  unfold State.wakeBlock; (repeat' split) <;> simp [*]

@[simp] theorem State.emit_pending (s : State) (o : Out) :
    (State.emit s o).pending = s.pending := by
  simp [State.emit, *]

@[simp] theorem State.useFree_pending (s : State) :
    (State.useFree s).pending = s.pending := by
  simp [State.useFree, *]

@[simp] theorem State.setLt_pending (s : State) (l : Nat) (t : LogTile) :
    (State.setLt s l t).pending = s.pending := by
  simp [State.setLt, *]

@[simp] theorem State.setPt_pending (s : State) (p : Nat) (t : PhysTile) :
    (State.setPt s p t).pending = s.pending := by
  simp [State.setPt, *]

@[simp] theorem State.storeWrite_pending (s : State) (p : Nat) (a : Nat) (bs : List Byte) :
    (State.storeWrite s p a bs).pending = s.pending := by
  simp [State.storeWrite, *]

@[simp] theorem State.setCore_pending (s : State) (c : Nat) (k : CoreSt) :
    (State.setCore s c k).pending = s.pending := by
  simp [State.setCore, *]

@[simp] theorem State.interruptCore_pending (s : State) (c : Nat) :
    (State.interruptCore s c).pending = s.pending := by
  unfold State.interruptCore; simp only []; (repeat' split) <;> simp [*]

@[simp] theorem State.interruptCores_pending (s : State) :
    (State.interruptCores s).pending = s.pending := by
  simp [State.interruptCores, *]

@[simp] theorem State.sendVector_pending (s : State) (v : Nat) :
    (State.sendVector s v).pending = s.pending := by
  unfold State.sendVector; simp only []; (repeat' split) <;> simp [*]

@[simp] theorem State.testRelease_pending (s : State) (g : Nat) :
    (State.testRelease s g).pending = s.pending := by
  unfold State.testRelease; simp only []; (repeat' split) <;> simp [*]

@[simp] theorem State.setPending_pending (s : State) (src : Nat) :
    (State.setPending s src).pending = s.pending := by
  simp [State.setPending, *]

@[simp] theorem State.raise_pending (s : State) (src : Nat) :
    (State.raise s src).pending = s.pending := by
  unfold State.raise; (repeat' split) <;> simp [*]

@[simp] theorem State.newEntry_pending (s : State) (code : Nat) (unit : Nat) (status : Nat) (detail : Nat) (ts : Nat) (take : Nat) (repeats : Nat) :
    (State.newEntry s code unit status detail ts take repeats).pending = s.pending := by
  simp only [State.newEntry, apply_ite State.pending, State.raise_pending, State.incObj_pending, State.addObj_pending, State.setObj_pending, ite_self]

@[simp] theorem State.earlyEvent_pending (s : State) (code : Nat) (unit : Nat) (status : Nat) (detail : Nat) :
    (State.earlyEvent s code unit status detail).pending = s.pending := by
  unfold State.earlyEvent; (repeat' split) <;> simp [*]

@[simp] theorem State.log_pending (s : State) (code : Nat) (unit : Nat) (status : Status) (detail : Nat) :
    (State.log s code unit status detail).pending = s.pending := by
  simp only [State.log, apply_ite State.pending, State.earlyEvent_pending, State.newEntry_pending, State.setObj_pending, ite_self]

@[simp] theorem State.event_pending (s : State) (src : Nat) (unit : Nat) (status : Status) (detail : Nat) :
    (State.event s src unit status detail).pending = s.pending := by
  unfold State.event; (repeat' split) <;> simp [*]

@[simp] theorem State.flushEarly_pending (s : State) :
    (State.flushEarly s).pending = s.pending := by
  unfold State.flushEarly; (try dsimp only); (repeat' split) <;> (first | (simp_all; done) | (rw [foldl_pending]; intro t b; (repeat' split) <;> simp_all))

@[simp] theorem State.maskFault_pending (s : State) :
    (State.maskFault s).pending = s.pending := by
  unfold State.maskFault; simp only []; (repeat' split) <;> simp [*]

@[simp] theorem State.markFaultAnswers_pending (s : State) :
    (State.markFaultAnswers s).pending = s.pending := by
  simp [State.markFaultAnswers, *]

@[simp] theorem State.countFault_pending (s : State) :
    (State.countFault s).pending = s.pending := by
  simp [State.countFault, *]

@[simp] theorem State.failTake_pending (s : State) :
    (State.failTake s).pending = s.pending := by
  unfold State.failTake; simp only []; (repeat' split) <;> simp [*]

@[simp] theorem State.failOn_pending (s : State) (st : Status) :
    (State.failOn s st).pending = s.pending := by
  unfold State.failOn; (repeat' split) <;> simp [*]

@[simp] theorem State.countTb_pending (s : State) (dt : Nat) :
    (State.countTb s dt).pending = s.pending := by
  unfold State.countTb; (repeat' split) <;> simp [*]

@[simp] theorem State.applyCal_pending (s : State) (n : Nat) (sub : Nat) :
    (State.applyCal s n sub).pending = s.pending := by
  simp [State.applyCal, *]

@[simp] theorem State.applyCals_pending (s : State) (n : Nat) :
    (State.applyCals s n).pending = s.pending := by
  simp [State.applyCals, *]

@[simp] theorem State.latchLot_pending (s : State) :
    (State.latchLot s).pending = s.pending := by
  simp [State.latchLot, *]

@[simp] theorem State.latchInputsAt_pending (s : State) (t : Nat) :
    (State.latchInputsAt s t).pending = s.pending := by
  unfold State.latchInputsAt; (repeat' split) <;> simp [*]

@[simp] theorem State.latchInputs_pending (s : State) :
    (State.latchInputs s).pending = s.pending := by
  simp [State.latchInputs]

@[simp] theorem State.freeRun_pending (s : State) (since : Nat) :
    (State.freeRun s since).pending = s.pending := by
  unfold State.freeRun; simp only []; (repeat' split) <;> simp [*]

@[simp] theorem State.sync1Latch_pending (s : State) :
    (State.sync1Latch s).pending = s.pending := by
  unfold State.sync1Latch; simp only []; (repeat' split) <;> simp [*]

@[simp] theorem State.advance_pending (s : State) (dt : Nat) :
    (State.advance s dt).pending = s.pending := by
  simp [State.advance]

@[simp] theorem State.wakeStacks_pending (s : State) (a : Nat) (n : Nat) :
    (State.wakeStacks s a n).pending = s.pending := by
  unfold State.wakeStacks; (repeat' split) <;> simp [*]

@[simp] theorem State.putBurst_pending (s : State) (b : Nat) (bytes : List Byte) :
    (State.putBurst s b bytes).pending = s.pending := by
  unfold State.putBurst; simp only []; (repeat' split) <;> simp [*]

@[simp] theorem State.correctBurst_pending (s : State) (b : Nat) :
    (State.correctBurst s b).pending = s.pending := by
  simp [State.correctBurst]

@[simp] theorem State.readBurst_pending (s : State) (fallback : Bool) (acc : Status) (b : Nat) :
    (State.readBurst s fallback acc b).1.pending = s.pending := by
  unfold State.readBurst; simp only []; (repeat' split) <;> simp [*]

@[simp] theorem State.noteEccLost_pending (s : State) (a : Nat) :
    (State.noteEccLost s a).pending = s.pending := by
  simp [State.noteEccLost, *]

@[simp] theorem State.hbmTouch_pending (s : State) (fallback : Bool) (a : Nat) (n : Nat) :
    (State.hbmTouch s fallback a n).1.pending = s.pending := by
  unfold State.hbmTouch; simp only []; (repeat' split) <;> simp [*]

@[simp] theorem State.hbmStore_pending (s : State) (a : Nat) (b : Byte) :
    (State.hbmStore s a b).pending = s.pending := by
  unfold State.hbmStore; simp only []; (repeat' split) <;> simp [*]

@[simp] theorem State.hbmStoreList_pending (s : State) (a : Nat) (x2 : List Byte) :
    (State.hbmStoreList s a x2).pending = s.pending := by
  induction x2 generalizing s a <;> simp_all [State.hbmStoreList]

@[simp] theorem State.writeBurst_pending (s : State) (a : Nat) (n : Nat) (acc : Status) (b : Nat) :
    (State.writeBurst s a n acc b).1.pending = s.pending := by
  unfold State.writeBurst; simp only []; (repeat' split) <;> simp [*]

@[simp] theorem State.hbmWriteOne_pending (s : State) (a : Nat) (bs : List Byte) :
    (State.hbmWriteOne s a bs).1.pending = s.pending := by
  unfold State.hbmWriteOne; simp only []; (repeat' split) <;> simp [*]

@[simp] theorem State.hbmWrite_pending (s : State) (a : Nat) (bs : List Byte) :
    (State.hbmWrite s a bs).1.pending = s.pending := by
  unfold State.hbmWrite; simp only []; (repeat' split) <;> simp [*]

@[simp] theorem State.emitWrites_pending (s : State) (a : Nat) (bs : List Byte) :
    (State.emitWrites s a bs).pending = s.pending := by
  simp [State.emitWrites]

@[simp] theorem State.emitReads_pending (s : State) (a : Nat) (n : Nat) :
    (State.emitReads s a n).pending = s.pending := by
  simp [State.emitReads]

@[simp] theorem State.hostStorePiece_pending (s : State) (a : Nat) (bs : List Byte) :
    (State.hostStorePiece s a bs).pending = s.pending := by
  unfold State.hostStorePiece; simp only []; (repeat' split) <;> simp [*]

@[simp] theorem State.hostStoreWrite_pending (s : State) (a : Nat) (bs : List Byte) :
    (State.hostStoreWrite s a bs).pending = s.pending := by
  unfold State.hostStoreWrite; simp only []; (repeat' split) <;> simp [*]

@[simp] theorem State.spaceTouch_pending (s : State) (space : Nat) (a : Nat) (n : Nat) :
    (State.spaceTouch s space a n).1.pending = s.pending := by
  unfold State.spaceTouch; (repeat' split) <;> simp [*]

@[simp] theorem State.hbmWriteChecked_pending (s : State) (a : Nat) (bs : List Byte) :
    (State.hbmWriteChecked s a bs).1.pending = s.pending := by
  unfold State.hbmWriteChecked; (repeat' split) <;> simp [*]

@[simp] theorem State.spaceWrite_pending (s : State) (p : Nat) (space : Nat) (a : Nat) (bs : List Byte) :
    (State.spaceWrite s p space a bs).1.pending = s.pending := by
  unfold State.spaceWrite; (repeat' split) <;> simp [*]

@[simp] theorem State.spaceWriteAll_pending (s : State) (p : Nat) (space : Nat) (rows : List (Nat × List Byte)) :
    (State.spaceWriteAll s p space rows).1.pending = s.pending := by
  simp [State.spaceWriteAll, *]

@[simp] theorem State.touchDesc_pending (s : State) (d : Desc) :
    (State.touchDesc s d).1.pending = s.pending := by
  simp [State.touchDesc, *]

@[simp] theorem State.repairWords_pending (s : State) (p : Nat) (used : List Nat) :
    (State.repairWords s p used).1.pending = s.pending := by
  unfold State.repairWords; simp only []; (repeat' split) <;> simp [*]

@[simp] theorem State.repairParity_pending (s : State) (l : Nat) (p : Nat) (stream : Nat) (drawn : List Nat) :
    (State.repairParity s l p stream drawn).1.pending = s.pending := by
  unfold State.repairParity; simp only []; (repeat' split) <;> simp [*]

@[simp] theorem State.deliver_pending (s : State) (l : Nat) (id : Nat) (elem : Nat) (vals : List Val) :
    (State.deliver s l id elem vals).pending = s.pending := by
  unfold State.deliver; simp only []; (repeat' split) <;> simp [*]

@[simp] theorem State.noteSaturation_pending (s : State) (l : Nat) (cls : Nat) (sats : Nat) :
    (State.noteSaturation s l cls sats).pending = s.pending := by
  unfold State.noteSaturation; simp only []; (repeat' split) <;> simp [*]

@[simp] theorem State.writeVals_pending (s : State) (l : Nat) (p : Nat) (d : Desc) (cls : Nat) (round : Nat) (stream : Nat) (ahead : Nat) (vals : List Val) :
    (State.writeVals s l p d cls round stream ahead vals).s.pending = s.pending := by
  unfold State.writeVals; simp only []; (repeat' split) <;> simp [*]

@[simp] theorem State.writeSome_pending (s : State) (l : Nat) (p : Nat) (d : Desc) (cls : Nat) (round : Nat) (stream : Nat) (ahead : Nat) (pieces : List Piece) :
    (State.writeSome s l p d cls round stream ahead pieces).s.pending = s.pending := by
  unfold State.writeSome; simp only []; (repeat' split) <;> simp [*]

@[simp] theorem State.writeCodes_pending (s : State) (p : Nat) (d : Desc) (codes : List Nat) :
    (State.writeCodes s p d codes).1.pending = s.pending := by
  simp [State.writeCodes, *]

@[simp] theorem State.smear_pending (s : State) (p : Nat) (d : Desc) :
    (State.smear s p d).pending = s.pending := by
  simp [State.smear, *]

@[simp] theorem State.forecast_pending (s : State) :
    (State.forecast s).pending = s.pending := by
  unfold State.forecast; simp only []; (repeat' split) <;> simp [*]

@[simp] theorem Done.only_pending (s : State) (st : Status) :
    (Done.only s st).s.pending = s.pending := by
  simp [Done.only, *]

@[simp] theorem State.reportMask_pending (s : State) (x : Nat) (d : Done) :
    (State.reportMask s x d).pending = s.pending := by
  unfold State.reportMask; (repeat' split) <;> simp [*]

@[simp] theorem State.commandEvent_pending (s : State) (l : Nat) (x : Nat) (st : Status) :
    (State.commandEvent s l x st).pending = s.pending := by
  unfold State.commandEvent; (repeat' split) <;> simp [*]

@[simp] theorem State.doneEvent_pending (s : State) (l : Nat) (x : Nat) (d : Done) :
    (State.doneEvent s l x d).pending = s.pending := by
  unfold State.doneEvent; (repeat' split) <;> simp [*]

@[simp] theorem State.countFindings_pending (s : State) (l : Nat) (p : Nat) (rejected : Nat) (oor : Nat) :
    (State.countFindings s l p rejected oor).pending = s.pending := by
  unfold State.countFindings; simp only []; (repeat' split) <;> simp [*]

@[simp] theorem State.onEccLost_pending (s : State) (l : Nat) (e : QEntry) :
    (State.onEccLost s l e).pending = s.pending := by
  unfold State.onEccLost; simp only []; (repeat' split) <;> simp [*]

@[simp] theorem State.countFaultOf_pending (s : State) (take : Option Nat) :
    (State.countFaultOf s take).pending = s.pending := by
  unfold State.countFaultOf; simp only []; (repeat' split) <;> simp [*]

@[simp] theorem State.maskEcc_pending (s : State) (l : Nat) (e : QEntry) :
    (State.maskEcc s l e).pending = s.pending := by
  unfold State.maskEcc; simp only []; (repeat' split) <;> simp [*]

@[simp] theorem State.judge_pending (s : State) (l : Nat) (e : QEntry) (st : Status) :
    (State.judge s l e st).pending = s.pending := by
  unfold State.judge; (repeat' split) <;> simp [*]

@[simp] theorem State.activate_pending (s : State) (p : Nat) :
    (State.activate s p).pending = s.pending := by
  unfold State.activate; simp only []; (repeat' split) <;> simp [*]

@[simp] theorem State.complete_pending (l : Nat) (p : Nat) (cycles : Nat) (e : QEntry) (d : Done) :
    (State.complete l p cycles e d).pending = d.s.pending := by
  unfold State.complete; simp only []; (repeat' split) <;> simp [*]

@[simp] theorem State.correct_pending (s : State) (p : Nat) (found : List Nat × List Nat) :
    (State.correct s p found).1.pending = s.pending := by
  unfold State.correct; (repeat' split) <;> simp [*]

@[simp] theorem Done.heal_pending (s : State) (p : Nat) (x : Nat) (d : Done) :
    (Done.heal s p x d).s.pending = d.s.pending := by
  simp [Done.heal]

@[simp] theorem State.runUnit_pending (s : State) (l : Nat) (cycles : Nat) (mine : Nat → Bool) (eff : State → Nat → Nat → QEntry → Done) (heff : ∀ t l p e, (eff t l p e).s.pending = t.pending) :
    (State.runUnit s l cycles mine eff).pending = s.pending := by
  unfold State.runUnit; simp only []; (repeat' split) <;> simp [*]

@[simp] theorem ArrayDone.done_pending (d : ArrayDone) (s : State) :
    (ArrayDone.done d s).s.pending = s.pending := by
  rfl

@[simp] theorem State.fetchNext_pending (s : State) (l : Nat) :
    (State.fetchNext s l).pending = s.pending := by
  unfold State.fetchNext; simp only []; (repeat' split) <;> simp [*]

@[simp] theorem State.fetchOne_pending (s : State) (l : Nat) :
    (State.fetchOne s l).pending = s.pending := by
  unfold State.fetchOne; (repeat' split) <;> simp [*]

@[simp] theorem State.fetchAll_pending (s : State) (l : Nat) :
    (State.fetchAll s l).pending = s.pending := by
  simp [State.fetchAll, *]

@[simp] theorem State.replayInPlace_pending (s : State) (l : Nat) :
    (State.replayInPlace s l).pending = s.pending := by
  unfold State.replayInPlace; simp only []; (repeat' split) <;> simp [*]

@[simp] theorem State.clearSlot_pending (s : State) (p : Nat) (slot : Nat) :
    (State.clearSlot s p slot).pending = s.pending := by
  simp only [State.clearSlot, apply_ite State.pending, State.setPt_pending, ite_self]

@[simp] theorem State.accumulate_pending (s : State) (p : Nat) (x : Nat) (o : Product) (outs : List (Option (List F32))) :
    (State.accumulate s p x o outs).pending = s.pending := by
  unfold State.accumulate; simp only []; (repeat' split) <;> simp [*]

@[simp] theorem State.productRun_pending (s : State) (p : Nat) (x : Nat) (o : Product) :
    (State.productRun s p x o).s.pending = s.pending := by
  simp [State.productRun]

@[simp] theorem State.formRun_pending (s : State) (l : Nat) :
    (State.formRun s l).pending = s.pending := by
  unfold State.formRun; simp only []; (repeat' split) <;> simp [*]

@[simp] theorem State.multiply_pending (s : State) (l : Nat) (op : Nat) :
    (State.multiply s l op).pending = s.pending := by
  unfold State.multiply; simp only []; (repeat' split) <;> simp [*]

@[simp] theorem State.completeRun_pending (s : State) (l : Nat) (cycles : Nat) :
    (State.completeRun s l cycles).pending = s.pending := by
  unfold State.completeRun; simp only []; (repeat' split) <;> simp [*]

@[simp] theorem State.startPhase_pending (s : State) (c : BitVec 128) :
    (State.startPhase s c).pending = s.pending := by
  unfold State.startPhase; (repeat' split) <;> simp [*]

@[simp] theorem State.cueFlags_pending (s : State) (c : BitVec 128) :
    (State.cueFlags s c).pending = s.pending := by
  unfold State.cueFlags; simp only []; (repeat' split) <;> simp [*]

@[simp] theorem State.cueFails_pending (s : State) (c : BitVec 128) :
    (State.cueFails s c).pending = s.pending := by
  simp [State.cueFails, *]

@[simp] theorem State.cueEffect_pending (s : State) (c : BitVec 128) :
    (State.cueEffect s c).pending = s.pending := by
  unfold State.cueEffect; (repeat' split) <;> simp [*]

@[simp] theorem State.fireCue_pending (s : State) (a : ArmedCue) :
    (State.fireCue s a).pending = s.pending := by
  unfold State.fireCue; simp only []; (repeat' split) <;> simp [*]

@[simp] theorem State.fireDueAt_pending (s : State) (t : Nat) :
    (State.fireDueAt s t).pending = s.pending := by
  unfold State.fireDueAt; (repeat' split) <;> simp [*]

@[simp] theorem State.fireDue_pending (s : State) :
    (State.fireDue s).pending = s.pending := by
  simp [State.fireDue, *]

@[simp] theorem State.armCueAt_pending (s : State) (ts : Nat) (c : BitVec 128) (ofNew : Bool) :
    (State.armCueAt s ts c ofNew).1.pending = s.pending := by
  unfold State.armCueAt; simp only []; (repeat' split) <;> simp [*]

@[simp] theorem State.armCue_pending (s : State) (c : BitVec 128) (ofNew : Bool) :
    (State.armCue s c ofNew).1.pending = s.pending := by
  simp [State.armCue]

@[simp] theorem State.armReel_pending (s : State) (ts : Nat) (r : Reel) (ofNew : Bool) :
    (State.armReel s ts r ofNew).pending = s.pending := by
  simp [State.armReel]

@[simp] theorem State.closeCues_pending (s : State) :
    (State.closeCues s).pending = s.pending := by
  simp [State.closeCues, *]

@[simp] theorem State.abandonActivation_pending (s : State) :
    (State.abandonActivation s).pending = s.pending := by
  unfold State.abandonActivation; simp only []; (repeat' split) <;> simp [*]

@[simp] theorem State.startSteps_pending (s : State) (r : Reel) :
    (State.startSteps s r).pending = s.pending := by
  simp [State.startSteps, *]

@[simp] theorem State.deferralEvents_pending (s : State) :
    (State.deferralEvents s).pending = s.pending := by
  unfold State.deferralEvents; (try dsimp only); (repeat' split) <;> (first | (simp_all; done) | (rw [foldl_pending]; intro t b; (repeat' split) <;> simp_all))

@[simp] theorem State.freezeDailies_pending (s : State) (kind : Nat) (ts : Nat) :
    (State.freezeDailies s kind ts).pending = s.pending := by
  unfold State.freezeDailies; simp only []; (repeat' split) <;> simp [*]

@[simp] theorem State.switchDailies_pending (s : State) :
    (State.switchDailies s).pending = s.pending := by
  unfold State.switchDailies; simp only []; (repeat' split) <;> simp [*]

@[simp] theorem State.countOverruns_pending (s : State) :
    (State.countOverruns s).pending = s.pending := by
  simp [State.countOverruns, *]

@[simp] theorem State.countLimited_pending (s : State) :
    (State.countLimited s).pending = s.pending := by
  unfold State.countLimited; (repeat' split) <;> simp [*]

@[simp] theorem State.setPort_pending (s : State) (k : Nat) (p : Port) :
    (State.setPort s k p).pending = s.pending := by
  simp [State.setPort, *]

@[simp] theorem State.emitEntry_pending (s : State) (k : Nat) (e : TxEntry) :
    (State.emitEntry s k e).pending = s.pending := by
  unfold State.emitEntry; (repeat' split) <;> simp [*]

@[simp] theorem State.pumpPort_pending (k : Nat) (x1 : Nat) (x2 : Option (Nat × Nat)) (x3 : State) :
    (State.pumpPort k x1 x2 x3).pending = x3.pending := by
  (induction x1 generalizing k x2 x3 with | zero => (simp [State.pumpPort] <;> done) | succ n ih => (unfold State.pumpPort; (try dsimp only); (repeat' split) <;> simp_all))

@[simp] theorem State.pump_pending (s : State) (k : Nat) :
    (State.pump s k).pending = s.pending := by
  simp [State.pump, *]

@[simp] theorem State.queueOn_pending (s : State) (k : Nat) (e : TxEntry) :
    (State.queueOn s k e).pending = s.pending := by
  simp [State.queueOn]

@[simp] theorem State.forward_pending (s : State) (e : TxEntry) :
    (State.forward s e).pending = s.pending := by
  unfold State.forward; (repeat' split) <;> simp [*]

@[simp] theorem State.routeOrDrop_pending (s : State) (via : Via) (q : Packet) :
    (State.routeOrDrop s via q).pending = s.pending := by
  unfold State.routeOrDrop; (repeat' split) <;> simp [*]

@[simp] theorem State.bumpFabric_pending (s : State) (sub : Nat) (n : Nat) :
    (State.bumpFabric s sub n).pending = s.pending := by
  simp [State.bumpFabric, *]

@[simp] theorem Done.answered_pending (s : State) (st : Status) (dispatch : Bool) :
    (Done.answered s st dispatch).s.pending = s.pending := by
  rfl

@[simp] theorem State.answered_pending (s : State) (tile : Nat) (dst : Nat) (seq : Nat) (st : Status) :
    (State.answered s tile dst seq st).pending = s.pending := by
  unfold State.answered; simp only []; (repeat' split) <;> simp [*]

@[simp] theorem State.respond_pending (s : State) (via : Via) (q : Packet) (st : Status) :
    (State.respond s via q st).pending = s.pending := by
  unfold State.respond; (repeat' split) <;> simp [*]

@[simp] theorem State.noteRefusal_pending (s : State) (q : Packet) (st : Status) :
    (State.noteRefusal s q st).pending = s.pending := by
  simp [State.noteRefusal, *]

@[simp] theorem State.refuseOp_pending (s : State) (via : Via) (q : Packet) (st : Status) :
    (State.refuseOp s via q st).pending = s.pending := by
  unfold State.refuseOp; (repeat' split) <;> simp [*]

@[simp] theorem State.takeStepRecord_pending (s : State) (r : StepRecord) :
    (State.takeStepRecord s r).pending = s.pending := by
  unfold State.takeStepRecord; simp only []; (repeat' split) <;> simp [*]

@[simp] theorem State.setTrack_pending (s : State) (t : TransitTrack) :
    (State.setTrack s t).pending = s.pending := by
  rfl

@[simp] theorem State.seen_pending (s : State) (q : Packet) (st : Option Status) :
    (State.seen s q st).pending = s.pending := by
  rfl

@[simp] theorem State.discardOp_pending (s : State) (via : Via) (q : Packet) (st : Status) :
    (State.discardOp s via q st).pending = s.pending := by
  unfold State.discardOp; (repeat' split) <;> simp [*]

@[simp] theorem State.transit_pending (s : State) (e : TxEntry) :
    (State.transit s e).pending = s.pending := by
  unfold State.transit; (repeat' split) <;> simp [*]

@[simp] theorem State.routeIn_pending (s : State) (k : Nat) (q : Packet) (msg : Option ControlMsg) (y4 : State → State) (hy4 : ∀ t, (y4 t).pending = t.pending) :
    (State.routeIn s k q msg y4).pending = s.pending := by
  unfold State.routeIn; (repeat' split) <;> simp [*]

@[simp] theorem State.peerSwitch_pending (s : State) (k : Nat) (lane : Nat) :
    (State.peerSwitch s k lane).pending = s.pending := by
  unfold State.peerSwitch; simp only []; (repeat' split) <;> simp [*]

@[simp] theorem State.takeControl_pending (s : State) (k : Nat) (q : Packet) (msg : ControlMsg) :
    (State.takeControl s k q msg).pending = s.pending := by
  unfold State.takeControl; (repeat' split) <;> simp [*]

@[simp] theorem State.rebasePlant_pending (s : State) (bySlate : Bool) (ts : Nat) :
    (State.rebasePlant s bySlate ts).pending = s.pending := by
  simp [State.rebasePlant, *]

@[simp] theorem State.forceModes_pending (s : State) :
    (State.forceModes s).pending = s.pending := by
  simp [State.forceModes, *]

@[simp] theorem State.startFills_pending (s : State) (want : PhysTile → Bool) :
    (State.startFills s want).pending = s.pending := by
  simp [State.startFills, *]

@[simp] theorem State.dropActivation_pending (s : State) :
    (State.dropActivation s).pending = s.pending := by
  unfold State.dropActivation; (repeat' split) <;> simp [*]

@[simp] theorem State.closeTake_pending (s : State) (kind : Nat) (ts : Nat) :
    (State.closeTake s kind ts).pending = s.pending := by
  simp [State.closeTake, *]

@[simp] theorem State.setDensities_pending (s : State) :
    (State.setDensities s).pending = s.pending := by
  simp [State.setDensities, *]

@[simp] theorem State.forceTable_pending (s : State) :
    (State.forceTable s).pending = s.pending := by
  unfold State.forceTable; simp only []; (repeat' split) <;> simp [*]

@[simp] theorem State.writeLotBlock_pending (s : State) (take : Nat) :
    (State.writeLotBlock s take).pending = s.pending := by
  unfold State.writeLotBlock; simp only []; (repeat' split) <;> simp [*]

@[simp] theorem State.openingFills_pending (s : State) :
    (State.openingFills s).pending = s.pending := by
  unfold State.openingFills; (repeat' split) <;> simp [*]

@[simp] theorem State.latchLevels_pending (s : State) (level : Nat) :
    (State.latchLevels s level).pending = s.pending := by
  simp [State.latchLevels, *]

@[simp] theorem State.startActivation_pending (s : State) (ts : Nat) :
    (State.startActivation s ts).pending = s.pending := by
  unfold State.startActivation; (repeat' split) <;> simp [*]

@[simp] theorem State.beginTake_pending (s : State) (selfSlated : Bool) (ts : Nat) :
    (State.beginTake s selfSlated ts).pending = s.pending := by
  simp [State.beginTake, *]

@[simp] theorem State.setOpeningLevel_pending (s : State) :
    (State.setOpeningLevel s).pending = s.pending := by
  simp [State.setOpeningLevel, *]

@[simp] theorem State.openTake_pending (s : State) (selfSlated : Bool) (ts : Nat) :
    (State.openTake s selfSlated ts).pending = s.pending := by
  unfold State.openTake; simp only []; (repeat' split) <;> simp [*]

@[simp] theorem State.boundary_pending (s : State) (kind : Nat) (selfSlated : Bool) (ts : Nat) :
    (State.boundary s kind selfSlated ts).pending = s.pending := by
  simp [State.boundary, *]

@[simp] theorem State.ignorePulse_pending (s : State) :
    (State.ignorePulse s).pending = s.pending := by
  unfold State.ignorePulse; (repeat' split) <;> simp [*]

@[simp] theorem State.stormSlate_pending (s : State) :
    (State.stormSlate s).pending = s.pending := by
  simp [State.stormSlate, *]

@[simp] theorem State.acceptSlate_pending (s : State) (ts : Nat) :
    (State.acceptSlate s ts).pending = s.pending := by
  simp [State.acceptSlate, *]

@[simp] theorem State.reanchor_pending (s : State) (ts : Nat) :
    (State.reanchor s ts).pending = s.pending := by
  simp [State.reanchor, *]

@[simp] theorem State.earlyViolation_pending (s : State) :
    (State.earlyViolation s).pending = s.pending := by
  simp [State.earlyViolation, *]

@[simp] theorem State.classifySlate_pending (s : State) (ts : Nat) :
    (State.classifySlate s ts).pending = s.pending := by
  unfold State.classifySlate; simp only []; (repeat' split) <;> simp [*]

@[simp] theorem State.takeSlate_pending (s : State) (ts : Nat) :
    (State.takeSlate s ts).pending = s.pending := by
  unfold State.takeSlate; (repeat' split) <;> simp [*]

@[simp] theorem State.acceptAdv_pending (s : State) (ts : Nat) :
    (State.acceptAdv s ts).pending = s.pending := by
  simp [State.acceptAdv, *]

@[simp] theorem State.applyWaitingAdv_pending (s : State) (ts : Nat) :
    (State.applyWaitingAdv s ts).pending = s.pending := by
  unfold State.applyWaitingAdv; (repeat' split) <;> simp [*]

@[simp] theorem State.slateAt_pending (s : State) (ts : Nat) :
    (State.slateAt s ts).pending = s.pending := by
  unfold State.slateAt; (repeat' split) <;> simp [*]

@[simp] theorem State.takeAdv_pending (s : State) (ts : Nat) :
    (State.takeAdv s ts).pending = s.pending := by
  unfold State.takeAdv; (repeat' split) <;> simp [*]

@[simp] theorem State.loadDescriptors_pending (s : State) (r : Reel) (l : Nat) (p : Nat) :
    (State.loadDescriptors s r l p).pending = s.pending := by
  simp [State.loadDescriptors, *]

@[simp] theorem State.wakeTile_pending (s : State) (p : Nat) :
    (State.wakeTile s p).pending = s.pending := by
  unfold State.wakeTile; simp only []; (repeat' split) <;> simp [*]

@[simp] theorem State.stopClock_pending (s : State) (p : Nat) :
    (State.stopClock s p).pending = s.pending := by
  unfold State.stopClock; (repeat' split) <;> simp [*]

@[simp] theorem State.sleepTile_pending (s : State) (p : Nat) :
    (State.sleepTile s p).pending = s.pending := by
  unfold State.sleepTile; (repeat' split) <;> simp [*]

@[simp] theorem State.restReserve_pending (s : State) :
    (State.restReserve s).pending = s.pending := by
  unfold State.restReserve; (try dsimp only); (repeat' split) <;> (first | (simp_all; done) | (rw [foldl_pending]; intro t b; (repeat' split) <;> simp_all))

@[simp] theorem State.placeReel_pending (s : State) (r : Reel) :
    (State.placeReel s r).pending = s.pending := by
  simp [State.placeReel, *]

@[simp] theorem State.completeActivation_pending (s : State) (r : Reel) :
    (State.completeActivation s r).pending = s.pending := by
  simp [State.completeActivation, *]

@[simp] theorem State.failActivation_pending (s : State) :
    (State.failActivation s).pending = s.pending := by
  unfold State.failActivation; simp only []; (repeat' split) <;> simp [*]

@[simp] theorem State.testWait_pending (s : State) (l : Nat) :
    (State.testWait s l).pending = s.pending := by
  unfold State.testWait; simp only []; (repeat' split) <;> simp [*]

@[simp] theorem State.addFlag_pending (s : State) (l : Nat) (f : Nat) (n : Nat) :
    (State.addFlag s l f n).pending = s.pending := by
  unfold State.addFlag; simp only []; (repeat' split) <;> simp [*]

@[simp] theorem State.hubStep_pending (s : State) (die : Nat) :
    (State.hubStep s die).pending = s.pending := by
  unfold State.hubStep; simp only []; (repeat' split) <;> simp [*]

@[simp] theorem signalAddEff_pending (s : State) (l : Nat) (_p : Nat) (e : QEntry) :
    (signalAddEff s l _p e).s.pending = s.pending := by
  unfold signalAddEff; simp only []; (repeat' split) <;> simp [*]

@[simp] theorem armCueEff_pending (s : State) (_l : Nat) (_p : Nat) (e : QEntry) :
    (armCueEff s _l _p e).s.pending = s.pending := by
  unfold armCueEff; simp only []; (repeat' split) <;> simp [*]

@[simp] theorem State.startWait_pending (s : State) (l : Nat) (p : Nat) (cycles : Nat) (e : QEntry) :
    (State.startWait s l p cycles e).pending = s.pending := by
  unfold State.startWait; simp only []; (repeat' split) <;> simp [*]

@[simp] theorem State.isolateEntry_pending (s : State) (l : Nat) (p : Nat) (e : QEntry) :
    (State.isolateEntry s l p e).pending = s.pending := by
  simp [State.isolateEntry, *]

@[simp] theorem State.isolateNext_pending (s : State) (l : Nat) (p : Nat) :
    (State.isolateNext s l p).pending = s.pending := by
  unfold State.isolateNext; (repeat' split) <;> simp [*]

@[simp] theorem State.isolateAll_pending (s : State) (l : Nat) (p : Nat) :
    (State.isolateAll s l p).pending = s.pending := by
  simp [State.isolateAll, *]

@[simp] theorem State.unplace_pending (s : State) (l : Nat) (p : Nat) :
    (State.unplace s l p).pending = s.pending := by
  unfold State.unplace; simp only []; (repeat' split) <;> simp [*]

@[simp] theorem State.placeOn_pending (s : State) (l : Nat) (p : Nat) :
    (State.placeOn s l p).pending = s.pending := by
  unfold State.placeOn; simp only []; (repeat' split) <;> simp [*]

@[simp] theorem State.tryPlace_pending (s : State) (l : Nat) :
    (State.tryPlace s l).pending = s.pending := by
  unfold State.tryPlace; (repeat' split) <;> simp [*]

@[simp] theorem State.noteUnplaced_pending (s : State) (l : Nat) :
    (State.noteUnplaced s l).pending = s.pending := by
  unfold State.noteUnplaced; (repeat' split) <;> simp [*]

@[simp] theorem State.dropRounds_pending (s : State) (l : Nat) :
    (State.dropRounds s l).pending = s.pending := by
  simp [State.dropRounds, *]

@[simp] theorem State.noteFence_pending (s : State) (b : Block) :
    (State.noteFence s b).pending = s.pending := by
  simp [State.noteFence, *]

@[simp] theorem State.moveFrom_pending (s : State) (p : Nat) :
    (State.moveFrom s p).pending = s.pending := by
  unfold State.moveFrom; (repeat' split) <;> simp [*]

@[simp] theorem State.fenceTile_pending (s : State) (p : Nat) :
    (State.fenceTile s p).pending = s.pending := by
  unfold State.fenceTile; simp only []; (repeat' split) <;> simp [*]

@[simp] theorem State.returnTile_pending (s : State) (p : Nat) :
    (State.returnTile s p).pending = s.pending := by
  unfold State.returnTile; simp only []; (repeat' split) <;> simp [*]

@[simp] theorem State.fabricComesUp_pending (s : State) :
    (State.fabricComesUp s).pending = s.pending := by
  simp [State.fabricComesUp, *]

@[simp] theorem State.refreshFabric_pending (s : State) :
    (State.refreshFabric s).pending = s.pending := by
  unfold State.refreshFabric; simp only []; (repeat' split) <;> simp [*]

@[simp] theorem State.sendIdle_pending (s : State) (k : Nat) (nak : Bool) :
    (State.sendIdle s k nak).pending = s.pending := by
  simp [State.sendIdle, *]

@[simp] theorem State.returnCredits_pending (s : State) (k : Nat) :
    (State.returnCredits s k).pending = s.pending := by
  unfold State.returnCredits; (repeat' split) <;> simp [*]

@[simp] theorem State.sendIdentity_pending (s : State) (k : Nat) :
    (State.sendIdentity s k).pending = s.pending := by
  simp [State.sendIdentity, *]

@[simp] theorem State.trainPort_pending (s : State) (k : Nat) :
    (State.trainPort s k).pending = s.pending := by
  unfold State.trainPort; simp only []; (repeat' split) <;> simp [*]

@[simp] theorem State.requeue_pending (s : State) (k : Nat) (n : Nat) (e : TxEntry) :
    (State.requeue s k n e).pending = s.pending := by
  rfl

@[simp] theorem rerouteOne_pending (r : Rerouting) (e : TxEntry) :
    (rerouteOne r e).s.pending = r.s.pending := by
  unfold rerouteOne; simp only []; (repeat' split) <;> simp [*]

@[simp] theorem State.keepRefused_pending (s : State) (t : TransitTrack) :
    (State.keepRefused s t).pending = s.pending := by
  unfold State.keepRefused; (repeat' split) <;> simp [*]

@[simp] theorem foldlRerouting_pending {β : Type} (g : Rerouting → β → Rerouting) (l : List β) (x : Rerouting)
    (h : ∀ t b, (g t b).s.pending = t.s.pending) : (l.foldl g x).s.pending = x.s.pending := by
  induction l generalizing x with
  | nil => rfl
  | cons a l ih => rw [List.foldl_cons, ih, h]

@[simp] theorem State.reroute_pending (s : State) (es : List TxEntry) :
    (State.reroute s es).pending = s.pending := by
  simp [State.reroute]

@[simp] theorem State.portDown_pending (s : State) (k : Nat) (counted : Bool) :
    (State.portDown s k counted).pending = s.pending := by
  unfold State.portDown; simp only []; (repeat' split) <;> simp [*]

@[simp] theorem State.portComesUp_pending (s : State) (k : Nat) (rack : Nat) (pkg : Nat) (role : Nat) :
    (State.portComesUp s k rack pkg role).pending = s.pending := by
  simp [State.portComesUp, *]

@[simp] theorem State.meetPeer_pending (s : State) (k : Nat) (rack : Nat) (pkg : Nat) (role : Nat) :
    (State.meetPeer s k rack pkg role).pending = s.pending := by
  unfold State.meetPeer; simp only []; (repeat' split) <;> simp [*]

@[simp] theorem State.enablePorts_pending (s : State) :
    (State.enablePorts s).pending = s.pending := by
  unfold State.enablePorts; simp only []; (repeat' split) <;> simp [*]

@[simp] theorem State.darkenPorts_pending (s : State) :
    (State.darkenPorts s).pending = s.pending := by
  simp [State.darkenPorts, *]

@[simp] theorem State.retrainPorts_pending (s : State) :
    (State.retrainPorts s).pending = s.pending := by
  unfold State.retrainPorts; (repeat' split) <;> simp [*]

@[simp] theorem State.replayLink_pending (s : State) (k : Nat) :
    (State.replayLink s k).pending = s.pending := by
  unfold State.replayLink; simp only []; (repeat' split) <;> simp [*]

@[simp] theorem State.takeHeader_pending (s : State) (k : Nat) (q : Packet) :
    (State.takeHeader s k q).pending = s.pending := by
  unfold State.takeHeader; simp only []; (repeat' split) <;> simp [*]

@[simp] theorem State.requestReplay_pending (s : State) (k : Nat) :
    (State.requestReplay s k).pending = s.pending := by
  unfold State.requestReplay; simp only []; (repeat' split) <;> simp [*]

@[simp] theorem State.acceptPacket_pending (s : State) (k : Nat) (q : Packet) :
    (State.acceptPacket s k q).1.pending = s.pending := by
  unfold State.acceptPacket; simp only []; (repeat' split) <;> simp [*]

@[simp] theorem State.onPacket_pending (s : State) (k : Nat) (q : Packet) (act : State → State) (hact : ∀ t, (act t).pending = t.pending) :
    (State.onPacket s k q act).pending = s.pending := by
  unfold State.onPacket; simp only []; (repeat' split) <;> simp [*]

@[simp] theorem State.bounce_pending (s : State) (p : Nat) (bs : List Byte) :
    (State.bounce s p bs).1.pending = s.pending := by
  unfold State.bounce; simp only []; (repeat' split) <;> simp [*]

@[simp] theorem State.moveRead_pending (s : State) (p : Nat) (x : Nat) (a : Desc) (b : Desc) :
    (State.moveRead s p x a b).1.pending = s.pending := by
  unfold State.moveRead; simp only []; (repeat' split) <;> simp [*]

@[simp] theorem State.moveData_pending (s : State) (l : Nat) (p : Nat) (x : Nat) (a : Desc) (b : Desc) :
    (State.moveData s l p x a b).s.pending = s.pending := by
  unfold State.moveData; simp only []; (repeat' split) <;> simp [*]

@[simp] theorem moveEff_pending (s : State) (l : Nat) (p : Nat) (e : QEntry) :
    (moveEff s l p e).s.pending = s.pending := by
  unfold moveEff; simp only []; (repeat' split) <;> simp [*]

@[simp] theorem State.foldRead_pending (s : State) (p : Nat) (a am b bm : Desc) :
    (State.foldRead s p a am b bm).1.pending = s.pending := by
  unfold State.foldRead; (repeat' split) <;> simp [*]

@[simp] theorem State.foldRun_pending (s : State) (p : Nat) (a am b bm : Desc) :
    (State.foldRun s p a am b bm).s.pending = s.pending := by
  unfold State.foldRun; simp only []; (repeat' split) <;> simp [*]

@[simp] theorem foldEff_pending (s : State) (_l : Nat) (p : Nat) (e : QEntry) :
    (foldEff s _l p e).s.pending = s.pending := by
  unfold foldEff; simp only []; (repeat' split) <;> simp [*]

@[simp] theorem State.countClass2_pending (s : State) (l : Nat) (p : Nat) (elem : Nat) (n : Nat) :
    (State.countClass2 s l p elem n).pending = s.pending := by
  simp [State.countClass2, *]

@[simp] theorem State.clearAfter_pending (s : State) (p : Nat) (x : Nat) :
    (State.clearAfter s p x).pending = s.pending := by
  unfold State.clearAfter; (repeat' split) <;> simp [*]

@[simp] theorem State.drainData_pending (s : State) (l : Nat) (p : Nat) (x : Nat) (d : Desc) :
    (State.drainData s l p x d).s.pending = s.pending := by
  simp only [State.drainData]; split <;> simp

@[simp] theorem drainEff_pending (s : State) (l : Nat) (p : Nat) (e : QEntry) :
    (drainEff s l p e).s.pending = s.pending := by
  unfold drainEff; simp only []; (repeat' split) <;> simp [*]

@[simp] theorem State.readHeader_pending (s : State) (a : Nat) :
    (State.readHeader s a).s.pending = s.pending := by
  simp [State.readHeader, *]

@[simp] theorem State.readBody_pending (s : State) (a : Nat) (present : List SlicePos) (whole : Bool) :
    (State.readBody s a present whole).1.pending = s.pending := by
  unfold State.readBody; simp only []; (repeat' split) <;> simp [*]

@[simp] theorem State.emitWeights_pending (s : State) (l : Nat) (p : Nat) (x : Nat) (d : Desc) (ws : List (SlicePos × F32)) :
    (State.emitWeights s l p x d ws).s.pending = s.pending := by
  simp [State.emitWeights, *]

@[simp] theorem State.copyWrite_pending (x : State × Status) (a : Nat) (bs : List Byte) :
    (State.copyWrite x a bs).1.pending = x.1.pending := by
  simp [State.copyWrite, *]

@[simp] theorem State.writeCopy_pending (x : State × Status) (a : Nat) (now : StateHeader) (final : StateHeader) (body : List (Nat × List Byte)) :
    (State.writeCopy x a now final body).1.pending = x.1.pending := by
  simp [State.writeCopy, *]

@[simp] theorem State.updateFrom_pending (s : State) (l : Nat) (p : Nat) (e : QEntry) (o : Update) (c : Copies) (src : Bool) (repair : Bool) (ecc : Status) :
    (State.updateFrom s l p e o c src repair ecc).s.pending = s.pending := by
  unfold State.updateFrom; simp only []; (repeat' split) <;> simp [*]

@[simp] theorem State.updateChoose_pending (l : Nat) (p : Nat) (e : QEntry) (o : Update) (c : Copies) (x5 : List Bool) (x6 : State) (x7 : Status) :
    (State.updateChoose l p e o c x5 x6 x7).s.pending = x6.pending := by
  induction x5 generalizing l p e o c x6 x7 <;> (unfold State.updateChoose; (try dsimp only); (repeat' split) <;> simp_all)

@[simp] theorem State.updateData_pending (s : State) (l : Nat) (p : Nat) (e : QEntry) (o : Update) :
    (State.updateData s l p e o).s.pending = s.pending := by
  unfold State.updateData; simp only []; (repeat' split) <;> simp [*]

@[simp] theorem updateEff_pending (s : State) (l : Nat) (p : Nat) (e : QEntry) :
    (updateEff s l p e).s.pending = s.pending := by
  unfold updateEff; simp only []; (repeat' split) <;> simp [*]

@[simp] theorem State.vecWrite_pending (s : State) (l : Nat) (p : Nat) (x : Nat) (d : Option Desc) (vals : List Val) :
    (State.vecWrite s l p x d vals).s.pending = s.pending := by
  unfold State.vecWrite; (repeat' split) <;> simp [*]

@[simp] theorem State.vecWriteCodes_pending (s : State) (p : Nat) (d : Option Desc) (codes : List Nat) :
    (State.vecWriteCodes s p d codes).1.pending = s.pending := by
  unfold State.vecWriteCodes; (repeat' split) <;> simp [*]

@[simp] theorem vecDone_pending (w : WriteRes) (st : Status) (sats : Nat) (oor : Nat) :
    (vecDone w st sats oor).s.pending = w.s.pending := by
  rfl

@[simp] theorem vecEff_pending (r : Routine) (s : State) (l : Nat) (p : Nat) (e : QEntry) (hr : ∀ t l p x o, (r.run t l p x o).s.pending = t.pending) :
    (vecEff r s l p e).s.pending = s.pending := by
  unfold vecEff; simp only []; (repeat' split) <;> simp [*]

@[simp] theorem State.tallyPredictor_pending (s : State) (k : Nat) (audited : Nat) (misses : Nat) :
    (State.tallyPredictor s k audited misses).pending = s.pending := by
  simp [State.tallyPredictor, *]

@[simp] theorem State.selectRun_pending (s : State) (l : Nat) (p : Nat) (x : Nat) (sc : Desc) (asg : Desc) :
    (State.selectRun s l p x sc asg).s.pending = s.pending := by
  unfold State.selectRun; (repeat' split) <;> simp [*]

@[simp] theorem selectEff_pending (s : State) (l : Nat) (p : Nat) (e : QEntry) :
    (selectEff s l p e).s.pending = s.pending := by
  unfold selectEff; simp only []; (repeat' split) <;> simp [*]

@[simp] theorem State.combineRun_pending (s : State) (l : Nat) (p : Nat) (x : Nat) (tok : Desc) (asg : Desc) (out : Desc) :
    (State.combineRun s l p x tok asg out).s.pending = s.pending := by
  simp [State.combineRun, *]

@[simp] theorem combineEff_pending (s : State) (l : Nat) (p : Nat) (e : QEntry) :
    (combineEff s l p e).s.pending = s.pending := by
  unfold combineEff; simp only []; (repeat' split) <;> simp [*]

@[simp] theorem State.putHeader_pending (s : State) (p : Nat) (a : Nat) (off : Nat) (n : Nat) (v : Nat) :
    (State.putHeader s p a off n v).pending = s.pending := by
  simp [State.putHeader, *]

@[simp] theorem State.setRecs_pending (s : State) (l : Nat) (a : Nat) (recs : List StageRec) :
    (State.setRecs s l a recs).pending = s.pending := by
  simp [State.setRecs, *]

@[simp] theorem State.stageWrite_pending (s : State) (p : Nat) (h : Nat) (at_ : Nat) (bs : List Byte) :
    (State.stageWrite s p h at_ bs).pending = s.pending := by
  simp [State.stageWrite, *]

@[simp] theorem State.markRecord_pending (s : State) (p : Nat) (h : Nat) (j : Nat) :
    (State.markRecord s p h j).pending = s.pending := by
  simp [State.markRecord, *]

@[simp] theorem State.claimRecord_pending (s : State) (l : Nat) (p : Nat) (a : Nat) (h : Nat) (j : Nat) (q : Packet) :
    (State.claimRecord s l p a h j q).pending = s.pending := by
  unfold State.claimRecord; simp only []; (repeat' split) <;> simp [*]

@[simp] theorem State.arriveRecord_pending (s : State) (l : Nat) (p : Nat) (a : Nat) (h : Nat) (j : Nat) :
    (State.arriveRecord s l p a h j).pending = s.pending := by
  unfold State.arriveRecord; simp only []; (repeat' split) <;> simp [*]

@[simp] theorem State.stagePacket_pending (s : State) (q : Packet) (claimed : Option Nat) :
    (State.stagePacket s q claimed).1.pending = s.pending := by
  unfold State.stagePacket; simp only []; (repeat' split) <;> simp [*]

@[simp] theorem State.writeLocal_pending (s : State) (a : Nat) (bs : List Byte) :
    (State.writeLocal s a bs).1.pending = s.pending := by
  unfold State.writeLocal; simp only []; (repeat' split) <;> simp [*]

@[simp] theorem State.correctAt_pending (s : State) (p : Nat) (store am : List (Nat × Nat)) :
    (State.correctAt s p store am).1.pending = s.pending := by
  unfold State.correctAt; (repeat' split) <;> simp [*]

@[simp] theorem State.correctPieces_pending (s : State) (ps : List (Nat × Nat × Nat)) :
    (State.correctPieces s ps).1.pending = s.pending := by
  unfold State.correctPieces; simp only []; (repeat' split) <;> simp [*]

@[simp] theorem State.readLocal_pending (s : State) (a : Nat) (n : Nat) :
    (State.readLocal s a n).1.pending = s.pending := by
  unfold State.readLocal; simp only []; (repeat' split) <;> simp [*]

@[simp] theorem State.applyPacket_pending (s : State) (via : Via) (q : Packet) (rec : Option Nat) :
    (State.applyPacket s via q rec).1.pending = s.pending := by
  unfold State.applyPacket; (repeat' split) <;> simp [*]

@[simp] theorem State.readRound_pending (s : State) (own : Bool) (k : OpTrack) (q : Packet) :
    (State.readRound s own k q).1.pending = s.pending := by
  unfold State.readRound; (repeat' split) <;> simp [*]

@[simp] theorem State.takePacket_pending (s : State) (own : Bool) (via : Via) (k : OpTrack) (q : Packet) :
    (State.takePacket s own via k q).s.pending = s.pending := by
  unfold State.takePacket; (repeat' split) <;> simp [*]

@[simp] theorem State.touchStage_pending (s : State) (p a h : Nat) :
    (State.touchStage s p a h).pending = s.pending := by
  unfold State.touchStage; simp only []; (repeat' split) <;> simp [*]

@[simp] theorem State.combineRound_pending (s : State) (l a p : Nat) :
    (State.combineRound s l a p).pending = s.pending := by
  unfold State.combineRound; simp only []; (repeat' split) <;> simp [*]

@[simp] theorem State.writePacked_pending (s : State) (p : Nat) (d : Desc) (off : Nat) (bs : List Byte) :
    (State.writePacked s p d off bs).1.pending = s.pending := by
  unfold State.writePacked; rw [foldl1_pending]; intro t b; dsimp only; split <;> simp

@[simp] theorem State.deliverGet_pending (s : State) (l : Nat) (o : RemoteOp) (off : Nat) (bs : List Byte) :
    (State.deliverGet s l o off bs).1.pending = s.pending := by
  unfold State.deliverGet; simp only []; (repeat' split) <;> simp [*]

@[simp] theorem State.applyOwn_pending (s : State) (l : Nat) (o : RemoteOp) :
    (State.applyOwn s l o).1.pending = s.pending := by
  unfold State.applyOwn; simp only []; (repeat' split) <;> simp [*]

@[simp] theorem State.routePackets_pending (s : State) (via : Via) (ps : List Packet) :
    (State.routePackets s via ps).pending = s.pending := by
  simp [State.routePackets]

@[simp] theorem State.sendMore_pending (s : State) (l : Nat) (i : Nat) (o : RemoteOp) :
    (State.sendMore s l i o).pending = s.pending := by
  unfold State.sendMore; simp only []; (repeat' split) <;> simp [*]

@[simp] theorem State.sendOp_pending (s : State) (l : Nat) (i : Nat) (o : RemoteOp) :
    (State.sendOp s l i o).pending = s.pending := by
  unfold State.sendOp; simp only []; (repeat' split) <;> simp [*]

@[simp] theorem State.sendReady_pending (s : State) (l : Nat) :
    (State.sendReady s l).pending = s.pending := by
  unfold State.sendReady; (try dsimp only); (repeat' split) <;> (first | (simp_all; done) | (rw [foldl_pending]; intro t b; (repeat' split) <;> simp_all))

@[simp] theorem State.judgeDispatch_pending (s : State) (l : Nat) (ops : List RemoteOp) :
    (State.judgeDispatch s l ops).pending = s.pending := by
  unfold State.judgeDispatch; simp only []; (repeat' split) <;> simp [*]

@[simp] theorem State.finishEntry_pending (s : State) (l : Nat) (here : Option (Nat × Nat)) (id : Nat) (pos : Nat) (ops : List RemoteOp) :
    (State.finishEntry s l here id pos ops).pending = s.pending := by
  unfold State.finishEntry; simp only []; (repeat' split) <;> simp [*]

@[simp] theorem State.finishAll_pending (l : Nat) (here : Option (Nat × Nat)) (x2 : Nat) (x3 : State) :
    (State.finishAll l here x2 x3).pending = x3.pending := by
  (induction x2 generalizing x3 with | zero => (simp [State.finishAll] <;> done) | succ n ih => (unfold State.finishAll; (try dsimp only); (repeat' split) <;> simp_all))

@[simp] theorem State.portWork_pending (s : State) (l : Nat) (here : Option (Nat × Nat)) :
    (State.portWork s l here).pending = s.pending := by
  unfold State.portWork; simp only []; (repeat' split) <;> simp [*]

@[simp] theorem State.settle_pending (s : State) :
    (State.settle s).pending = s.pending := by
  simp [State.settle, *]

@[simp] theorem RemotePlan.stop_pending (s : State) (st : Status) :
    (RemotePlan.stop s st).s.pending = s.pending := by
  simp [RemotePlan.stop, *]

@[simp] theorem State.startPlan_pending (l : Nat) (p : Nat) (cycles : Nat) (e : QEntry) (r : RemotePlan) :
    (State.startPlan l p cycles e r).pending = r.s.pending := by
  unfold State.startPlan; simp only []; (repeat' split) <;> simp [*]

@[simp] theorem RemotePlan.heal_pending (s : State) (p x : Nat) (r : RemotePlan) :
    (RemotePlan.heal s p x r).s.pending = r.s.pending := by
  simp [RemotePlan.heal]

@[simp] theorem State.runRemote_pending (s : State) (l cycles : Nat) (mine : Nat → Bool) (plan : State → Nat → Nat → QEntry → RemotePlan) (hplan : ∀ t l p e, (plan t l p e).s.pending = t.pending) :
    (State.runRemote s l cycles mine plan).pending = s.pending := by
  unfold State.runRemote; (repeat' split) <;> simp [*]

@[simp] theorem planOne_pending (s : State) (o : OpSpec) :
    (planOne s o).s.pending = s.pending := by
  unfold planOne; (repeat' split) <;> simp [*]

@[simp] theorem planSend_pending (s : State) (p : Nat) (d : Desc) (o : OpSpec) :
    (planSend s p d o).s.pending = s.pending := by
  unfold planSend; simp only []; (repeat' split) <;> simp [*]

@[simp] theorem planPut_pending (s : State) (_l p : Nat) (e : QEntry) :
    (planPut s _l p e).s.pending = s.pending := by
  unfold planPut; simp only []; (repeat' split) <;> simp [*]

@[simp] theorem planAcc_pending (s : State) (_l p : Nat) (e : QEntry) :
    (planAcc s _l p e).s.pending = s.pending := by
  unfold planAcc; simp only []; (repeat' split) <;> simp [*]

@[simp] theorem planGet_pending (s : State) (_l : Nat) (p : Nat) (e : QEntry) :
    (planGet s _l p e).s.pending = s.pending := by
  unfold planGet; simp only []; (repeat' split) <;> simp [*]

@[simp] theorem planSignal_pending (s : State) (_l : Nat) (_p : Nat) (e : QEntry) :
    (planSignal s _l _p e).s.pending = s.pending := by
  unfold planSignal; (repeat' split) <;> simp [*]

@[simp] theorem planFence_pending (s : State) (_l : Nat) (_p : Nat) (e : QEntry) :
    (planFence s _l _p e).s.pending = s.pending := by
  unfold planFence; (repeat' split) <;> simp [*]

@[simp] theorem planDispatch_pending (s : State) (_l : Nat) (p : Nat) (e : QEntry) :
    (planDispatch s _l p e).s.pending = s.pending := by
  unfold planDispatch; simp only []; (repeat' split) <;> simp [*]

@[simp] theorem State.timeOutOps_pending (s : State) (l : Nat) :
    (State.timeOutOps s l).pending = s.pending := by
  simp [State.timeOutOps, *]

@[simp] theorem State.reissueOp_pending (s : State) (l : Nat) (i : Nat) :
    (State.reissueOp s l i).pending = s.pending := by
  unfold State.reissueOp; simp only []; (repeat' split) <;> simp [*]

@[simp] theorem State.sendStepRecord_pending (s : State) (c : Nat) :
    (State.sendStepRecord s c).pending = s.pending := by
  unfold State.sendStepRecord; (try dsimp only); (repeat' split) <;> (first | (simp_all; done) | (rw [foldl_pending]; intro t b; (repeat' split) <;> simp_all))

@[simp] theorem State.closeOwn_pending (s : State) (c : Nat) :
    (State.closeOwn s c).pending = s.pending := by
  unfold State.closeOwn; simp only []; (repeat' split) <;> simp [*]

@[simp] theorem State.appendHistories_pending (s : State) (c : Nat) :
    (State.appendHistories s c).pending = s.pending := by
  simp [State.appendHistories, *]

@[simp] theorem State.updateLossScale_pending (s : State) (saturated : Bool) :
    (State.updateLossScale s saturated).pending = s.pending := by
  unfold State.updateLossScale; simp only []; (repeat' split) <;> simp [*]

@[simp] theorem State.finaliseStep_pending (s : State) (c : Nat) :
    (State.finaliseStep s c).pending = s.pending := by
  simp [State.finaliseStep, *]

@[simp] theorem State.setRx_pending (s : State) (r : RxStream) :
    (State.setRx s r).pending = s.pending := by
  simp [State.setRx, *]

@[simp] theorem State.answerTaken_pending (t : Taken) (e : Arrived) :
    (State.answerTaken t e).pending = t.s.pending := by
  unfold State.answerTaken; (repeat' split) <;> simp [*]

@[simp] theorem State.takeNext_pending (s : State) (r : RxStream) (e : Arrived) :
    (State.takeNext s r e).1.pending = s.pending := by
  simp [State.takeNext]

@[simp] theorem State.drainHeld_pending (x0 : Nat) (x1 : State × RxStream) :
    (State.drainHeld x0 x1).1.pending = x1.1.pending := by
  (induction x0 generalizing x1 with | zero => (simp [State.drainHeld] <;> done) | succ n ih => (unfold State.drainHeld; (try dsimp only); (repeat' split) <;> simp_all))

@[simp] theorem State.takeReissue_pending (s : State) (r : RxStream) (e : Arrived) :
    (State.takeReissue s r e).1.pending = s.pending := by
  simp [State.takeReissue]

@[simp] theorem State.discardLate_pending (s : State) (q : Packet) :
    (State.discardLate s q).pending = s.pending := by
  simp [State.discardLate, *]

@[simp] theorem State.arriveInOrder_pending (s : State) (e : Arrived) :
    (State.arriveInOrder s e).pending = s.pending := by
  unfold State.arriveInOrder; simp only []; (repeat' split) <;> simp [*]

@[simp] theorem State.refuseUnnumbered_pending (s : State) (e : Arrived) :
    (State.refuseUnnumbered s e).pending = s.pending := by
  unfold State.refuseUnnumbered; (repeat' split) <;> simp [*]

@[simp] theorem State.arrive_pending (s : State) (e : Arrived) :
    (State.arrive s e).pending = s.pending := by
  unfold State.arrive; (repeat' split) <;> simp [*]

@[simp] theorem State.dataPacket_pending (s : State) (port : Nat) (op : Nat) (q : Packet) :
    (State.dataPacket s port op q).pending = s.pending := by
  simp [State.dataPacket, *]

@[simp] theorem State.noteGetWrite_pending (s : State) (l : Nat) (o : RemoteOp) (st : Status) :
    (State.noteGetWrite s l o st).pending = s.pending := by
  unfold State.noteGetWrite; simp only []; (repeat' split) <;> simp [*]

@[simp] theorem State.takeGetData_pending (s : State) (q : Packet) :
    (State.takeGetData s q).pending = s.pending := by
  unfold State.takeGetData; simp only []; (repeat' split) <;> simp [*]

@[simp] theorem State.skipMissing_pending (s : State) (r : RxStream) :
    (State.skipMissing s r).pending = s.pending := by
  unfold State.skipMissing; simp only []; (repeat' split) <;> simp [*]

@[simp] theorem State.wavelengthFails_pending (s : State) (k : Nat) (lane : Nat) :
    (State.wavelengthFails s k lane).pending = s.pending := by
  unfold State.wavelengthFails; simp only []; (repeat' split) <;> simp [*]

@[simp] theorem State.darkPort_pending (s : State) (k : Nat) :
    (State.darkPort s k).pending = s.pending := by
  unfold State.darkPort; simp only []; (repeat' split) <;> simp [*]

@[simp] theorem State.laserFalls_pending (s : State) (j : Nat) :
    (State.laserFalls s j).pending = s.pending := by
  simp [State.laserFalls, *]

@[simp] theorem State.patrol_pending (s : State) (burst : Nat) :
    (State.patrol s burst).pending = s.pending := by
  unfold State.patrol; (repeat' split) <;> simp [*]

@[simp] theorem State.markLost_pending (s : State) (i : Nat) :
    (State.markLost s i).pending = s.pending := by
  simp [State.markLost, *]

@[simp] theorem State.loseStack_pending (s : State) (i : Nat) :
    (State.loseStack s i).pending = s.pending := by
  unfold State.loseStack; (repeat' split) <;> simp [*]

@[simp] theorem State.failSegment_pending (s : State) (d : Nat) (c : Nat) :
    (State.failSegment s d c).pending = s.pending := by
  unfold State.failSegment; simp only []; (repeat' split) <;> simp [*]

@[simp] theorem State.closeGroup_pending (s : State) (g : Nat) (dir : Nat) :
    (State.closeGroup s g dir).pending = s.pending := by
  simp [State.closeGroup, *]

@[simp] theorem State.failLane_pending (s : State) (g : Nat) (dir : Nat) :
    (State.failLane s g dir).pending = s.pending := by
  unfold State.failLane; simp only []; (repeat' split) <;> simp [*]

@[simp] theorem State.forcePriorities_pending (s : State) (v : Tab Nat) :
    (State.forcePriorities s v).pending = s.pending := by
  simp [State.forcePriorities, *]

@[simp] theorem State.startCommit_pending (s : State) :
    (State.startCommit s).pending = s.pending := by
  simp [State.startCommit, *]

@[simp] theorem State.finishCommit_pending (s : State) :
    (State.finishCommit s).pending = s.pending := by
  simp [State.finishCommit, *]

@[simp] theorem State.retarget_pending (s : State) (old : Nat) (new : Nat) :
    (State.retarget s old new).pending = s.pending := by
  simp [State.retarget, *]

@[simp] theorem State.restartLoad_pending (s : State) (role : Nat) :
    (State.restartLoad s role).pending = s.pending := by
  unfold State.restartLoad; (repeat' split) <;> simp [*]

@[simp] theorem State.restartWrite_pending (s : State) (role : Nat) :
    (State.restartWrite s role).pending = s.pending := by
  unfold State.restartWrite; simp only []; (repeat' split) <;> simp [*]

@[simp] theorem State.moveRole_pending (s : State) (new : Nat) (role : Nat) :
    (State.moveRole s new role).pending = s.pending := by
  simp [State.moveRole, *]

@[simp] theorem State.fenceCore_pending (s : State) (c : Nat) :
    (State.fenceCore s c).pending = s.pending := by
  unfold State.fenceCore; simp only []; (repeat' split) <;> simp [*]

@[simp] theorem State.clearPend_pending (s : State) (group : Nat) (bits : Nat) :
    (State.clearPend s group bits).pending = s.pending := by
  rfl

@[simp] theorem State.endInterrupt_pending (s : State) (c : Nat) :
    (State.endInterrupt s c).pending = s.pending := by
  unfold State.endInterrupt; simp only []; (repeat' split) <;> simp [*]

@[simp] theorem State.logRaise_pending (s : State) (src : Nat) :
    (State.logRaise s src).pending = s.pending := by
  unfold State.logRaise; simp only []; (repeat' split) <;> simp [*]

@[simp] theorem State.raiseBits_pending (s : State) (group : Nat) (bits : Nat) :
    (State.raiseBits s group bits).pending = s.pending := by
  unfold State.raiseBits; (try dsimp only); (repeat' split) <;> (first | (simp_all; done) | (rw [foldl_pending]; intro t b; (repeat' split) <;> simp_all) | (rw [foldl1_pending]; intro t b; (repeat' split) <;> simp_all))

@[simp] theorem State.writeSrcCfg_pending (s : State) (src : Nat) (v : Nat) :
    (State.writeSrcCfg s src v).pending = s.pending := by
  unfold State.writeSrcCfg; simp only []; (repeat' split) <;> simp [*]

@[simp] theorem State.ctlWrite_pending (s : State) (off : Nat) (v : Nat) :
    (State.ctlWrite s off v).pending = s.pending := by
  unfold State.ctlWrite; (repeat' split) <;> simp [*]

@[simp] theorem State.ctlAccess_pending (s : State) (off : Nat) (write : Option Nat) :
    (State.ctlAccess s off write).pending = s.pending := by
  unfold State.ctlAccess; (repeat' split) <;> simp [*]

@[simp] theorem State.haltCore_pending (s : State) (c : Nat) (on : Bool) :
    (State.haltCore s c on).pending = s.pending := by
  unfold State.haltCore; (repeat' split) <;> simp [*]

@[simp] theorem State.sramWrite_pending (s : State) (a : Nat) (bs : List Byte) :
    (State.sramWrite s a bs).pending = s.pending := by
  rfl

@[simp] theorem State.sramRead_pending (s : State) (a n : Nat) :
    (State.sramRead s a n).1.pending = s.pending := by
  unfold State.sramRead; (repeat' split) <;> simp [*]

@[simp] theorem State.debugAccess_pending (s : State) (op : DebugOp) :
    (State.debugAccess s op).pending = s.pending := by
  unfold State.debugAccess; (repeat' split) <;> simp [*]

@[simp] theorem State.sendPending_pending (s : State) (v : Nat) :
    (State.sendPending s v).pending = s.pending := by
  unfold State.sendPending; simp only []; (repeat' split) <;> simp [*]

@[simp] theorem State.sendAllPending_pending (s : State) :
    (State.sendAllPending s).pending = s.pending := by
  simp [State.sendAllPending, *]

@[simp] theorem State.unmaskVector_pending (s : State) (v : Nat) :
    (State.unmaskVector s v).pending = s.pending := by
  simp [State.unmaskVector, *]

@[simp] theorem State.maskVector_pending (s : State) (v : Nat) :
    (State.maskVector s v).pending = s.pending := by
  simp [State.maskVector, *]

@[simp] theorem State.withValues_pending (s : State) (index : Nat) (vs : List (Nat × Nat)) :
    (State.withValues s index vs).pending = s.pending := by
  simp [State.withValues, *]

@[simp] theorem State.programSlot_pending (s : State) (r : BitVec 256) :
    (State.programSlot s r).pending = s.pending := by
  simp [State.programSlot, *]

@[simp] theorem State.programRecord_pending (r : BitVec 256) (x1 : Nat) (x2 : List (BitVec 256)) (x3 : State) :
    (State.programRecord r x1 x2 x3).1.pending = x3.pending := by
  induction x2 generalizing r x1 x3 <;> (unfold State.programRecord; (try dsimp only); (repeat' split) <;> simp_all)

@[simp] theorem State.programAll_pending (x0 : List (Nat × Nat × Nat)) (x1 : List (BitVec 256)) (x2 : State) :
    (State.programAll x0 x1 x2).1.pending = x2.pending := by
  (induction x0 generalizing x1 x2 with | nil => (simp [State.programAll] <;> done) | cons a b ih => (unfold State.programAll; (try dsimp only); (repeat' split) <;> simp_all))

@[simp] theorem State.writeSnapshot_pending (s : State) (region : Nat) (generation : Nat) :
    (State.writeSnapshot s region generation).pending = s.pending := by
  simp [State.writeSnapshot, *]

@[simp] theorem State.startCompaction_pending (s : State) :
    (State.startCompaction s).pending = s.pending := by
  unfold State.startCompaction; simp only []; (repeat' split) <;> simp [*]

@[simp] theorem State.compactIfFull_pending (s : State) :
    (State.compactIfFull s).pending = s.pending := by
  unfold State.compactIfFull; (repeat' split) <;> simp [*]

@[simp] theorem State.eraseOld_pending (s : State) (region : Nat) :
    (State.eraseOld s region).pending = s.pending := by
  simp [State.eraseOld, *]

@[simp] theorem State.loadValues_pending (s : State) (v : Tab Nat) :
    (State.loadValues s v).pending = s.pending := by
  simp [State.loadValues, *]

@[simp] theorem State.restoreJournal_pending (s : State) :
    (State.restoreJournal s).pending = s.pending := by
  unfold State.restoreJournal; simp only []; (repeat' split) <;> simp [*]

@[simp] theorem State.refreshAlert_pending (s : State) :
    (State.refreshAlert s).pending = s.pending := by
  unfold State.refreshAlert; simp only []; (repeat' split) <;> simp [*]

@[simp] theorem State.loadTableAt_pending (s : State) (a : Nat) :
    (State.loadTableAt s a).pending = s.pending := by
  unfold State.loadTableAt; simp only []; (repeat' split) <;> simp [*]

@[simp] theorem State.loadTable_pending (s : State) :
    (State.loadTable s).pending = s.pending := by
  unfold State.loadTable; (repeat' split) <;> simp [*]

@[simp] theorem State.clearTable_pending (s : State) :
    (State.clearTable s).pending = s.pending := by
  simp [State.clearTable, *]

@[simp] theorem State.entryStatus_pending (s : State) (st : Status) :
    (State.entryStatus s st).pending = s.pending := by
  unfold State.entryStatus; split <;> simp

@[simp] theorem State.writeEntry_pending (s : State) (high : Bool) (v : Nat) :
    (State.writeEntry s high v).pending = s.pending := by
  simp [State.writeEntry, *]

@[simp] theorem State.writeScale_pending (s : State) (sub : Nat) (v : Nat) :
    (State.writeScale s sub v).pending = s.pending := by
  unfold State.writeScale; simp only []; (repeat' split) <;> simp [*]

@[simp] theorem State.writeTakeControl_pending (s : State) (v : Nat) :
    (State.writeTakeControl s v).pending = s.pending := by
  unfold State.writeTakeControl; simp only []; (repeat' split) <;> simp [*]

@[simp] theorem State.writePower_pending (s : State) (v : Nat) :
    (State.writePower s v).pending = s.pending := by
  unfold State.writePower; simp only []; (repeat' split) <;> simp [*]

@[simp] theorem State.writeDuplex_pending (s : State) (v : Nat) :
    (State.writeDuplex s v).pending = s.pending := by
  simp [State.writeDuplex, *]

@[simp] theorem State.eraseJournal_pending (s : State) :
    (State.eraseJournal s).pending = s.pending := by
  simp [State.eraseJournal, *]

@[simp] theorem State.writeCal_pending (s : State) (n : Nat) (sub : Nat) (v : Nat) :
    (State.writeCal s n sub v).pending = s.pending := by
  unfold State.writeCal; simp only []; (repeat' split) <;> simp [*]

@[simp] theorem State.writeThreshold_pending (s : State) (sub : Nat) (v : Nat) :
    (State.writeThreshold s sub v).pending = s.pending := by
  simp [State.writeThreshold, *]

@[simp] theorem State.commandCompaction_pending (s : State) :
    (State.commandCompaction s).pending = s.pending := by
  simp [State.commandCompaction, *]

@[simp] theorem State.haltServer_pending (s : State) :
    (State.haltServer s).pending = s.pending := by
  simp [State.haltServer, *]

@[simp] theorem State.applyValue_pending (s : State) (index : Nat) (sub : Nat) (v : Nat) :
    (State.applyValue s index sub v).pending = s.pending := by
  simp [State.applyValue, apply_ite State.pending]

@[simp] theorem State.applyValues_pending (s : State) (vs : List (Nat × Nat)) :
    (State.applyValues s vs).pending = s.pending := by
  unfold State.applyValues; simp only []; (repeat' split) <;> simp [*]

@[simp] theorem State.eraseCommand_pending (s : State) :
    (State.eraseCommand s).pending = s.pending := by
  simp [State.eraseCommand, *]

@[simp] theorem State.refuse_pending (s : State) (path : Path) (a : Access) (r : Refused) :
    (State.refuse s path a r).1.pending = s.pending := by
  unfold State.refuse; simp only []; (repeat' split) <;> simp [*]

@[simp] theorem State.carryOut_pending (s : State) (path : Path) (a : Access) (ws : List (Nat × Nat)) :
    (State.carryOut s path a ws).1.pending = s.pending := by
  unfold State.carryOut; simp only []; (repeat' split) <;> simp [*]

@[simp] theorem State.settleRead_pending (s : State) (path : Path) (a : Access) (x : Except Refused (List Byte)) :
    (State.settleRead s path a x).1.pending = s.pending := by
  unfold State.settleRead; simp only []; (repeat' split) <;> simp [*]

@[simp] theorem State.serveAccess_pending (s : State) (path : Path) (a : Access) :
    (State.serveAccess s path a).1.pending = s.pending := by
  unfold State.serveAccess; simp only []; (repeat' split) <;> simp [*]

@[simp] theorem State.completeRequest_pending (s : State) (tag : Nat) (st : Status) (response : Tab Byte) :
    (State.completeRequest s tag st response).pending = s.pending := by
  simp [State.completeRequest, *]

@[simp] theorem State.finishJob_pending (s : State) (j : Job) (rest : List Job) :
    (State.finishJob s j rest).pending = s.pending := by
  unfold State.finishJob; simp only []; (repeat' split) <;> simp [*]

@[simp] theorem State.answerFront_pending (s : State) (j : Job) (a : Access) (as : List Access) (rest : List Job) (r : Reply) :
    (State.answerFront s j a as rest r).pending = s.pending := by
  unfold State.answerFront; simp only []; (repeat' split) <;> simp [*]

@[simp] theorem State.serveOne_pending (s : State) :
    (State.serveOne s).pending = s.pending := by
  unfold State.serveOne; simp only []; (repeat' split) <;> simp [*]

@[simp] theorem State.serveTurns_pending (x0 : Nat) (x1 : State) :
    (State.serveTurns x0 x1).pending = x1.pending := by
  induction x0 generalizing x1 <;> simp_all [State.serveTurns]

@[simp] theorem State.serve_pending (s : State) :
    (State.serve s).pending = s.pending := by
  simp [State.serve, *]

@[simp] theorem State.enqueueJob_pending (s : State) (j : Job) :
    (State.enqueueJob s j).pending = s.pending := by
  unfold State.enqueueJob; simp only []; (repeat' split) <;> simp [*]

@[simp] theorem State.reportAer_pending (s : State) (kind : Nat) :
    (State.reportAer s kind).pending = s.pending := by
  rfl

@[simp] theorem State.tlpViolation_pending (s : State) (kind : Nat) :
    (State.tlpViolation s kind).pending = s.pending := by
  unfold State.tlpViolation; (repeat' split) <;> simp [*]

@[simp] theorem State.unsupportedWrite_pending (s : State) :
    (State.unsupportedWrite s).pending = s.pending := by
  simp [State.unsupportedWrite, *]

@[simp] theorem State.busyIgnored_pending (s : State) :
    (State.busyIgnored s).pending = s.pending := by
  simp [State.busyIgnored, *]

@[simp] theorem State.coeAccess_pending (s : State) (a : Access) :
    (State.coeAccess s a).pending = s.pending := by
  unfold State.coeAccess; (repeat' split) <;> simp [*]

@[simp] theorem State.pcieAccess_pending (s : State) (a : Access) :
    (State.pcieAccess s a).pending = s.pending := by
  unfold State.pcieAccess; simp only []; (repeat' split) <;> simp [*]

@[simp] theorem State.access_pending (s : State) (path : Path) (a : Access) :
    (State.access s path a).pending = s.pending := by
  unfold State.access; (repeat' split) <;> simp [*]

@[simp] theorem State.writeObject_pending (s : State) (path : Path) (index : Nat) (sub : Nat) (v : Nat) :
    (State.writeObject s path index sub v).pending = s.pending := by
  simp [State.writeObject, *]

@[simp] theorem State.endLoad_pending (s : State) (st : Status) (table : Tab (BitVec 128)) :
    (State.endLoad s st table).pending = s.pending := by
  unfold State.endLoad; (repeat' split) <;> simp [*]

@[simp] theorem State.answerKWrite_pending (s : State) (r : Reply) :
    (State.answerKWrite s r).pending = s.pending := by
  unfold State.answerKWrite; simp only []; (repeat' split) <;> simp [*]

@[simp] theorem State.refuseKWrite_pending (s : State) (r : Refused) :
    (State.refuseKWrite s r).pending = s.pending := by
  unfold State.refuseKWrite; (repeat' split) <;> simp [*]

@[simp] theorem State.failRecord_pending (s : State) :
    (State.failRecord s).pending = s.pending := by
  simp [State.failRecord, *]

@[simp] theorem State.recordWrite_pending (s : State) (ws : List (Nat × Nat)) (bad : List (BitVec 256)) :
    (State.recordWrite s ws bad).pending = s.pending := by
  unfold State.recordWrite; simp only []; (repeat' split) <;> simp [*]

@[simp] theorem State.commandDone_pending (s : State) (st : Status) :
    (State.commandDone s st).pending = s.pending := by
  unfold State.commandDone; (repeat' split) <;> simp [*]

@[simp] theorem State.compactNow_pending (s : State) :
    (State.compactNow s).pending = s.pending := by
  unfold State.compactNow; simp only []; (repeat' split) <;> simp [*]

@[simp] theorem State.compactionFails_pending (s : State) :
    (State.compactionFails s).pending = s.pending := by
  unfold State.compactionFails; simp only []; (repeat' split) <;> simp [*]

@[simp] theorem State.finishErase_pending (s : State) (i : Nat) :
    (State.finishErase s i).pending = s.pending := by
  unfold State.finishErase; (repeat' split) <;> simp [*]

@[simp] theorem State.refuseCoe_pending (s : State) (r : Refused) (detail : Nat) :
    (State.refuseCoe s r detail).pending = s.pending := by
  simp [State.refuseCoe, *]

@[simp] theorem State.touchImage_pending (s : State) (a : Nat) :
    (State.touchImage s a).1.pending = s.pending := by
  unfold State.touchImage; simp only []; (repeat' split) <;> simp [*]

@[simp] theorem State.loadReel_pending (s : State) (a : Nat) :
    (State.loadReel s a).1.pending = s.pending := by
  unfold State.loadReel; simp only []; (repeat' split) <;> simp [*]

@[simp] theorem State.useContext_pending (s : State) :
    (State.useContext s).pending = s.pending := by
  simp [State.useContext, *]

@[simp] theorem State.refuseContext_pending (s : State) (st : Status) :
    (State.refuseContext s st).pending = s.pending := by
  simp [State.refuseContext, *]

@[simp] theorem State.healTiles_pending (s : State) (places : Nat → List (Nat × Nat) × List (Nat × Nat)) :
    (State.healTiles s places).1.pending = s.pending := by
  unfold State.healTiles; rw [foldl1_pending]; intro t b; dsimp only; split <;> simp

@[simp] theorem State.saveContext_pending (s : State) (space : Nat) (a : Nat) (n : Nat) :
    (State.saveContext s space a n).1.pending = s.pending := by
  unfold State.saveContext; simp only []; (repeat' split) <;> simp [*]

@[simp] theorem State.putPlaces_pending (s : State) (p : Nat) (x2 : List (Nat × Nat)) (x3 : List Byte) :
    (State.putPlaces s p x2 x3).pending = s.pending := by
  induction x2 generalizing s p x3 <;> simp_all [State.putPlaces]

@[simp] theorem State.putMemories_pending (s : State) (p : Nat) (store : List Byte) (am : List Byte) (regs : List Byte) :
    (State.putMemories s p store am regs).pending = s.pending := by
  simp [State.putMemories, *]

theorem State.putTile_pending (s : State) (l : Nat) (bs : List Byte) {t : _} (h : (State.putTile s l bs) = some t) :
    t.1.pending = s.pending := by
  simp only [State.putTile] at h; (repeat' split at h) <;> first | (simp at h; done) | (injection h with h; subst h; simp; done) | (simp_all; done) | (simp at h; obtain ⟨h, -⟩ := h; subst h; simp; done) | (simp at h; subst h; simp)

theorem State.putTiles_pending (s : State) (x1 : List Nat) (x2 : List Byte) {t : State} (h : (State.putTiles s x1 x2) = some t) :
    t.pending = s.pending := by
  (induction x1 generalizing s x2 with | nil => (unfold State.putTiles at h; split at h; (cases h; rfl); cases h) | cons a b ih => (unfold State.putTiles at h; split at h; (rename_i t1 r1 heq; rw [ih _ _ h]; exact State.putTile_pending _ _ _ heq); cases h))

@[simp] theorem State.placeTile_pending (s : State) (r : Reel) (place : List Nat) (l : Nat) :
    (State.placeTile s r place l).pending = s.pending := by
  unfold State.placeTile; (repeat' split) <;> simp [*]

@[simp] theorem State.placeForContext_pending (s : State) :
    (State.placeForContext s).pending = s.pending := by
  unfold State.placeForContext; (repeat' split) <;> simp [*]

@[simp] theorem State.restoreBytes_pending (s : State) (c : List Byte) :
    (State.restoreBytes s c).1.pending = s.pending := by
  unfold State.restoreBytes; (try dsimp only); (repeat' split) <;> (first | rfl | (rename_i heq; have hh := State.putTiles_pending _ _ _ heq; simp [hh]))

@[simp] theorem State.readSource_pending (s : State) (space a n : Nat) :
    (State.readSource s space a n).1.pending = s.pending := by
  unfold State.readSource; (repeat' split) <;> simp [*]

@[simp] theorem State.restoreContext_pending (s : State) (space : Nat) (a : Nat) (n : Nat) (data : List Byte) :
    (State.restoreContext s space a n data).1.pending = s.pending := by
  unfold State.restoreContext; simp only []; (repeat' split) <;> simp [*]

@[simp] theorem State.readFuses_pending (s : State) :
    (State.readFuses s).pending = s.pending := by
  rfl

@[simp] theorem State.programFirmware_pending (s : State) (bs : List Byte) :
    (State.programFirmware s bs).1.pending = s.pending := by
  simp [State.programFirmware, *]

@[simp] theorem State.writeFirmware_pending (s : State) (space : Nat) (a : Nat) (n : Nat) (data : List Byte) :
    (State.writeFirmware s space a n data).1.pending = s.pending := by
  unfold State.writeFirmware; simp only []; (repeat' split) <;> simp [*]

@[simp] theorem State.useFrees_pending (s : State) (n : Nat) :
    (State.useFrees s n).pending = s.pending := by
  simp [State.useFrees, *]

@[simp] theorem State.attest_pending (s : State) (space : Nat) (a : Nat) (n : Nat) (nonce : List Byte) :
    (State.attest s space a n nonce).1.pending = s.pending := by
  unfold State.attest; simp only []; (repeat' split) <;> simp [*]

@[simp] theorem State.latchOther_pending (s : State) :
    (State.latchOther s).pending = s.pending := by
  simp [State.latchOther, *]

@[simp] theorem State.runCommand_pending (s : State) (cmd : Nat) (space : Nat) (a : Nat) (n : Nat) (data : List Byte) :
    (State.runCommand s cmd space a n data).1.pending = s.pending := by
  unfold State.runCommand; simp only []; (repeat' split) <;> simp [*]

@[simp] theorem State.keepResult_pending (s : State) (st : Status) (len : Nat) :
    (State.keepResult s st len).pending = s.pending := by
  simp [State.keepResult, *]

@[simp] theorem State.awaitData_pending (s : State) (cmd : Nat) (data : List Byte) :
    (State.awaitData s cmd data).pending = s.pending := by
  simp [State.awaitData, *]

@[simp] theorem State.noteRefusedCommand_pending (s : State) (cmd : Nat) (st : Status) :
    (State.noteRefusedCommand s cmd st).pending = s.pending := by
  unfold State.noteRefusedCommand; (repeat' split) <;> simp [*]

@[simp] theorem State.markBusy_pending (s : State) :
    (State.markBusy s).pending = s.pending := by
  simp [State.markBusy, *]

@[simp] theorem State.acceptCommand_pending (s : State) (cmd : Nat) (data : List Byte) :
    (State.acceptCommand s cmd data).pending = s.pending := by
  unfold State.acceptCommand; simp only []; (repeat' split) <;> simp [*]

@[simp] theorem State.writeCmd_pending (s : State) (cmd : Nat) (data : List Byte) :
    (State.writeCmd s cmd data).pending = s.pending := by
  unfold State.writeCmd; (repeat' split) <;> simp [*]

@[simp] theorem State.hostCommand_pending (s : State) (cmd : Nat) (data : List Byte) :
    (State.hostCommand s cmd data).pending = s.pending := by
  unfold State.hostCommand; (repeat' split) <;> simp [*]

@[simp] theorem State.runWaiting_pending (s : State) :
    (State.runWaiting s).pending = s.pending := by
  unfold State.runWaiting; simp only []; (repeat' split) <;> simp [*]

@[simp] theorem State.reportCommand_pending (s : State) (st : Status) (len : Nat) :
    (State.reportCommand s st len).pending = s.pending := by
  simp [State.reportCommand, *]

@[simp] theorem State.setRing_pending (s : State) (r : Nat) (x : Ring) :
    (State.setRing s r x).pending = s.pending := by
  simp [State.setRing, *]

@[simp] theorem State.stopRing_pending (s : State) (r : Nat) :
    (State.stopRing s r).pending = s.pending := by
  simp [State.stopRing, *]

@[simp] theorem State.writeTail_pending (s : State) (r : Nat) (v : Nat) :
    (State.writeTail s r v).pending = s.pending := by
  simp only [State.writeTail, apply_ite State.pending]; simp

@[simp] theorem State.writeEnable_pending (s : State) (r : Nat) (on : Bool) :
    (State.writeEnable s r on).pending = s.pending := by
  simp [State.writeEnable, *]

@[simp] theorem State.startDescriptor_pending (s : State) (r : Nat) (d : BitVec 256) :
    (State.startDescriptor s r d).pending = s.pending := by
  unfold State.startDescriptor; simp only []; (repeat' split) <;> simp [*]

@[simp] theorem State.addWafer_pending (s : State) (w : Nat) :
    (State.addWafer s w).pending = s.pending := by
  simp [State.addWafer, *]

@[simp] theorem State.ingestFlag_pending (s : State) (d : BitVec 256) (st : Status) :
    (State.ingestFlag s d st).pending = s.pending := by
  unfold State.ingestFlag; (repeat' split) <;> simp [*]

@[simp] theorem State.ingestWriteBack_pending (s : State) (r : Nat) (f : InFlight) (st : Status) :
    (State.ingestWriteBack s r f st).pending = s.pending := by
  unfold State.ingestWriteBack; simp only []; (repeat' split) <;> simp [*]

@[simp] theorem State.ingestLog_pending (s : State) (r : Nat) (f : InFlight) (st : Status) :
    (State.ingestLog s r f st).pending = s.pending := by
  unfold State.ingestLog; (repeat' split) <;> simp [*]

@[simp] theorem State.ingestJudge_pending (s : State) (d : BitVec 256) (st : Status) :
    (State.ingestJudge s d st).pending = s.pending := by
  unfold State.ingestJudge; (repeat' split) <;> simp [*]

@[simp] theorem State.completeDescriptor_pending (s : State) (r : Nat) (f : InFlight) (st : Status) :
    (State.completeDescriptor s r f st).pending = s.pending := by
  simp [State.completeDescriptor, *]

@[simp] theorem State.ingestOldest_pending (s : State) (r : Nat) (f : InFlight) (data : List Byte) :
    (State.ingestOldest s r f data).pending = s.pending := by
  unfold State.ingestOldest; simp only []; (repeat' split) <;> simp [*]

@[simp] theorem State.partialData_pending (s : State) (d : BitVec 256) :
    (State.partialData s d).pending = s.pending := by
  simp [State.partialData, *]

theorem State.abortDescriptor_pending (s : State) (r : Nat) {t : State} (h : (State.abortDescriptor s r) = some t) :
    t.pending = s.pending := by
  simp only [State.abortDescriptor] at h; (repeat' split at h) <;> first | (simp at h; done) | (injection h with h; subst h; simp; done) | (simp_all; done) | (simp at h; obtain ⟨h, -⟩ := h; subst h; simp; done) | (simp at h; subst h; simp)

theorem State.abortMove_pending (s : State) (l : Nat) {t : State} (h : (State.abortMove s l) = some t) :
    t.pending = s.pending := by
  simp only [State.abortMove] at h; (repeat' split at h) <;> first | (simp at h; done) | (injection h with h; subst h; simp; done) | (simp_all; done) | (simp at h; obtain ⟨h, -⟩ := h; subst h; simp; done) | (simp at h; subst h; simp)

theorem State.abortCommand_pending (s : State) {t : State} (h : (State.abortCommand s) = some t) :
    t.pending = s.pending := by
  simp only [State.abortCommand] at h; (repeat' split at h) <;> first | (simp at h; done) | (injection h with h; subst h; simp; done) | (simp_all; done) | (simp at h; obtain ⟨h, -⟩ := h; subst h; simp; done) | (simp at h; subst h; simp)

theorem State.abortRead_pending (s : State) (read : HostRead) {t : State} (h : (State.abortRead s read) = some t) :
    t.pending = s.pending := by
  cases read with | ring r => (simp only [State.abortRead] at h; split at h; exact State.abortDescriptor_pending _ _ h; cases h) | moveOf l => exact State.abortMove_pending _ _ h | command => exact State.abortCommand_pending _ h

@[simp] theorem State.putAnswer_pending (s : State) (index : Nat) (vs : List Nat) :
    (State.putAnswer s index vs).pending = s.pending := by
  simp [State.putAnswer, *]

@[simp] theorem State.ringAnswer_pending (s : State) (rec : List Byte) :
    (State.ringAnswer s rec).pending = s.pending := by
  unfold State.ringAnswer; simp only []; (repeat' split) <;> simp [*]

@[simp] theorem State.countAnswer_pending (s : State) (a : TakeAnswers) :
    (State.countAnswer s a).pending = s.pending := by
  unfold State.countAnswer; simp only []; (repeat' split) <;> simp [*]

@[simp] theorem State.dropWafer_pending (s : State) (take : Nat) (w : Nat) :
    (State.dropWafer s take w).pending = s.pending := by
  simp [State.dropWafer, *]

@[simp] theorem State.publish_pending (s : State) (a : TakeAnswers) (w : Nat) :
    (State.publish s a w).pending = s.pending := by
  simp [State.publish, *]

@[simp] theorem State.barIgnored_pending (s : State) (bar : Nat) (off : Nat) (st : Status) :
    (State.barIgnored s bar off st).pending = s.pending := by
  simp [State.barIgnored, *]

@[simp] theorem State.logIf_pending (s : State) (b : Bool) (bar : Nat) (off : Nat) :
    (State.logIf s b bar off).pending = s.pending := by
  unfold State.logIf; (repeat' split) <;> simp [*]

@[simp] theorem State.abortBarRead_pending (s : State) (bar : Nat) (off : Nat) (st : Status) :
    (State.abortBarRead s bar off st).pending = s.pending := by
  simp [State.abortBarRead, *]

@[simp] theorem State.unsupportedRead_pending (s : State) :
    (State.unsupportedRead s).pending = s.pending := by
  unfold State.unsupportedRead; (repeat' split) <;> simp [*]

@[simp] theorem State.windowRead_pending (s : State) (off : Nat) (size : Nat) :
    (State.windowRead s off size).pending = s.pending := by
  unfold State.windowRead; simp only []; (repeat' split) <;> simp [*]

@[simp] theorem State.barRead_pending (s : State) (bar : Nat) (off : Nat) (size : Nat) :
    (State.barRead s bar off size).pending = s.pending := by
  unfold State.barRead; (repeat' split) <;> simp [*]

@[simp] theorem State.windowWrite_pending (s : State) (off : Nat) (bs : List Byte) :
    (State.windowWrite s off bs).pending = s.pending := by
  unfold State.windowWrite; simp only []; (repeat' split) <;> simp [*]

@[simp] theorem State.writePort_pending (s : State) (off : Nat) (size : Nat) (v : Nat) :
    (State.writePort s off size v).pending = s.pending := by
  unfold State.writePort; simp only []; (repeat' split) <;> simp [*]

@[simp] theorem State.writeCmdBlock_pending (s : State) (off : Nat) (size : Nat) (v : Nat) :
    (State.writeCmdBlock s off size v).pending = s.pending := by
  unfold State.writeCmdBlock; simp only []; (repeat' split) <;> simp [*]

@[simp] theorem State.logLocked_pending (s : State) (b : Bool) :
    (State.logLocked s b).pending = s.pending := by
  unfold State.logLocked; (repeat' split) <;> simp [*]

@[simp] theorem State.writeRing_pending (s : State) (r : Nat) (off : Nat) (size : Nat) (v : Nat) :
    (State.writeRing s r off size v).pending = s.pending := by
  unfold State.writeRing; simp only []; (repeat' split) <;> simp [*]

@[simp] theorem State.writeReadIndex_pending (s : State) (v : Nat) (off : Nat) :
    (State.writeReadIndex s v off).pending = s.pending := by
  unfold State.writeReadIndex; simp only []; (repeat' split) <;> simp [*]

@[simp] theorem State.writeAnswers_pending (s : State) (off : Nat) (size : Nat) (v : Nat) :
    (State.writeAnswers s off size v).pending = s.pending := by
  simp only [State.writeAnswers, apply_ite State.pending]; simp

@[simp] theorem State.writeSegment_pending (s : State) (i : Nat) (off : Nat) (size : Nat) (v : Nat) :
    (State.writeSegment s i off size v).pending = s.pending := by
  simp [State.writeSegment, *]

@[simp] theorem State.writeMsixWord_pending (s : State) (w : Nat) (v : Nat) :
    (State.writeMsixWord s w v).pending = s.pending := by
  unfold State.writeMsixWord; simp only []; (repeat' split) <;> simp [*]

@[simp] theorem State.writeMsix_pending (s : State) (w : Nat) (size : Nat) (v : Nat) :
    (State.writeMsix s w size v).pending = s.pending := by
  unfold State.writeMsix; simp only []; (repeat' split) <;> simp [*]

@[simp] theorem State.bar0Write_pending (s : State) (off : Nat) (size : Nat) (v : Nat) :
    (State.bar0Write s off size v).pending = s.pending := by
  unfold State.bar0Write; (repeat' split) <;> simp [*]

@[simp] theorem State.startRequest_pending (s : State) (tag : Nat) :
    (State.startRequest s tag).pending = s.pending := by
  unfold State.startRequest; simp only []; (repeat' split) <;> simp [*]

@[simp] theorem State.writeDoorbell_pending (s : State) (tag : Nat) :
    (State.writeDoorbell s tag).pending = s.pending := by
  unfold State.writeDoorbell; (repeat' split) <;> simp [*]

@[simp] theorem State.bar4Write_pending (s : State) (off : Nat) (size : Nat) (v : Nat) :
    (State.bar4Write s off size v).pending = s.pending := by
  unfold State.bar4Write; simp only []; (repeat' split) <;> simp [*]

@[simp] theorem State.barWrite_pending (s : State) (bar : Nat) (off : Nat) (size : Nat) (value : Nat) :
    (State.barWrite s bar off size value).pending = s.pending := by
  unfold State.barWrite; simp only []; (repeat' split) <;> simp [*]

@[simp] theorem State.openDownload_pending (s : State) (a : Access) :
    (State.openDownload s a).pending = s.pending := by
  unfold State.openDownload; simp only []; (repeat' split) <;> simp [*]

@[simp] theorem State.wholeDownload_pending (s : State) (a : Access) :
    (State.wholeDownload s a).pending = s.pending := by
  simp [State.wholeDownload, *]

@[simp] theorem State.writeFunctionMask_pending (s : State) (on : Bool) :
    (State.writeFunctionMask s on).pending = s.pending := by
  unfold State.writeFunctionMask; (repeat' split) <;> simp [*]

@[simp] theorem State.configWrite_pending (s : State) (f : ConfigField) (v : Nat) :
    (State.configWrite s f v).pending = s.pending := by
  unfold State.configWrite; (repeat' split) <;> simp [*]

@[simp] theorem State.configAccess_pending (s : State) (a : ConfigAccess) :
    (State.configAccess s a).pending = s.pending := by
  unfold State.configAccess; (repeat' split) <;> simp [*]

@[simp] theorem State.configRequest_pending (s : State) (a : ConfigAccess) :
    (State.configRequest s a).pending = s.pending := by
  unfold State.configRequest; (repeat' split) <;> simp [*]

@[simp] theorem State.enterStandby_pending (s : State) :
    (State.enterStandby s).pending = s.pending := by
  unfold State.enterStandby; (repeat' split) <;> simp [*]

@[simp] theorem State.stepTb_pending (s : State) (target : Nat) :
    (State.stepTb s target).pending = s.pending := by
  simp [State.stepTb, *]

@[simp] theorem State.discipline_pending (s : State) (dcTime : Nat) :
    (State.discipline s dcTime).pending = s.pending := by
  unfold State.discipline; simp only []; (repeat' split) <;> simp [*]

@[simp] theorem State.latchPosition_pending (s : State) :
    (State.latchPosition s).pending = s.pending := by
  simp [State.latchPosition, *]

@[simp] theorem State.plantSlate_pending (s : State) :
    (State.plantSlate s).pending = s.pending := by
  unfold State.plantSlate; (repeat' split) <;> simp [*]

@[simp] theorem State.latchPlant_pending (s : State) :
    (State.latchPlant s).pending = s.pending := by
  unfold State.latchPlant; simp only []; (repeat' split) <;> simp [*]

@[simp] theorem State.addMissed_pending (s : State) (n : Nat) :
    (State.addMissed s n).pending = s.pending := by
  rfl

@[simp] theorem State.countMissed_pending (s : State) :
    (State.countMissed s).pending = s.pending := by
  unfold State.countMissed; (repeat' split) <;> simp [*]

@[simp] theorem State.syncLatch_pending (s : State) :
    (State.syncLatch s).pending = s.pending := by
  unfold State.syncLatch; simp only []; (repeat' split) <;> simp [*]

@[simp] theorem State.writeMapped_pending (s : State) (x1 : List Nat) (x2 : List Byte) :
    (State.writeMapped s x1 x2).pending = s.pending := by
  (induction x1 generalizing x2 s with | nil => (simp [State.writeMapped] <;> done) | cons a b ih => (unfold State.writeMapped; (try dsimp only); (repeat' split) <;> simp_all))

@[simp] theorem State.takeOutputs_pending (s : State) (data : List Byte) :
    (State.takeOutputs s data).pending = s.pending := by
  unfold State.takeOutputs; simp only []; (repeat' split) <;> simp

@[simp] theorem State.receivePdo_pending (s : State) (data : List Byte) :
    (State.receivePdo s data).pending = s.pending := by
  unfold State.receivePdo; simp only []; (repeat' split) <;> simp [*]

@[simp] theorem State.losePlant_pending (s : State) :
    (State.losePlant s).pending = s.pending := by
  unfold State.losePlant; simp only []; (repeat' split) <;> simp [*]

@[simp] theorem State.voidSlot_pending (s : State) :
    (State.voidSlot s).pending = s.pending := by
  simp [State.voidSlot, *]

@[simp] theorem State.abandonFoe_pending (s : State) :
    (State.abandonFoe s).pending = s.pending := by
  unfold State.abandonFoe; simp only []; (repeat' split) <;> simp [*]

@[simp] theorem State.leaveAl_pending (s : State) :
    (State.leaveAl s).pending = s.pending := by
  unfold State.leaveAl; (repeat' split) <;> simp [*]

@[simp] theorem State.enterAl_pending (s : State) (target : Nat) (code : Nat) :
    (State.enterAl s target code).pending = s.pending := by
  simp [State.enterAl, *]

@[simp] theorem State.refuseAl_pending (s : State) (code : Nat) :
    (State.refuseAl s code).pending = s.pending := by
  simp [State.refuseAl, *]

@[simp] theorem State.requestAl_pending (s : State) (from_ : Nat) (target : Nat) (check : Nat) (accept : State → State) (haccept : ∀ t, (accept t).pending = t.pending) :
    (State.requestAl s from_ target check accept).pending = s.pending := by
  unfold State.requestAl; simp only []; (repeat' split) <;> simp [*]

@[simp] theorem State.setCycle_pending (s : State) (c : CycleCfg) :
    (State.setCycle s c).pending = s.pending := by
  rfl

@[simp] theorem State.startOp_pending (s : State) :
    (State.startOp s).pending = s.pending := by
  simp [State.startOp, *]

@[simp] theorem State.noteMissed_pending (s : State) :
    (State.noteMissed s).pending = s.pending := by
  simp [State.noteMissed, *]

@[simp] theorem State.refuseFoe_pending (s : State) (code : Nat) :
    (State.refuseFoe s code).pending = s.pending := by
  simp [State.refuseFoe, *]

@[simp] theorem State.openFoe_pending (s : State) :
    (State.openFoe s).pending = s.pending := by
  unfold State.openFoe; simp only []; (repeat' split) <;> simp [*]

@[simp] theorem State.programFoe_pending (s : State) (off : Nat) (data : List Byte) (ok : Bool) :
    (State.programFoe s off data ok).pending = s.pending := by
  unfold State.programFoe; (repeat' split) <;> simp [*]

@[simp] theorem State.takeFoe_pending (s : State) (n : Nat) (data : List Byte) (last : Bool) (ok : Bool) :
    (State.takeFoe s n data last ok).pending = s.pending := by
  unfold State.takeFoe; simp only []; (repeat' split) <;> simp [*]

@[simp] theorem State.foeTooLong_pending (s : State) :
    (State.foeTooLong s).pending = s.pending := by
  simp [State.foeTooLong, *]

@[simp] theorem State.drainFoe_pending (s : State) :
    (State.drainFoe s).pending = s.pending := by
  unfold State.drainFoe; simp only []; (repeat' split) <;> simp [*]

@[simp] theorem State.keepRecord_pending (s : State) (key : Nat) (v : Nat) :
    (State.keepRecord s key v).pending = s.pending := by
  unfold State.keepRecord; simp only []; (repeat' split) <;> simp [*]

@[simp] theorem State.siiRead_pending (s : State) (word : Nat) :
    (State.siiRead s word).pending = s.pending := by
  unfold State.siiRead; (repeat' split) <;> simp [*]

@[simp] theorem State.miiLinkUp_pending (s : State) (port : Nat) :
    (State.miiLinkUp s port).pending = s.pending := by
  unfold State.miiLinkUp; (repeat' split) <;> simp [*]

@[simp] theorem State.trainLink_pending (s : State) :
    (State.trainLink s).pending = s.pending := by
  unfold State.trainLink; (repeat' split) <;> simp [*]

@[simp] theorem State.releaseEcat_pending (s : State) :
    (State.releaseEcat s).pending = s.pending := by
  unfold State.releaseEcat; (repeat' split) <;> simp [*]

@[simp] theorem State.recordFence_pending (s : State) (b : Block) :
    (State.recordFence s b).pending = s.pending := by
  simp [State.recordFence, *]

@[simp] theorem State.isolateWait_pending (s : State) (l : Nat) :
    (State.isolateWait s l).pending = s.pending := by
  unfold State.isolateWait; (repeat' split) <;> simp [*]

@[simp] theorem State.isolateHub_pending (s : State) :
    (State.isolateHub s).pending = s.pending := by
  unfold State.isolateHub; simp only []; (repeat' split) <;> simp [*]

@[simp] theorem State.maskFence_pending (s : State) (x1 : Block) :
    (State.maskFence s x1).pending = s.pending := by
  unfold State.maskFence; simp only []; (repeat' split) <;> simp [*]

@[simp] theorem State.fenceBlock_pending (s : State) (b : Block) :
    (State.fenceBlock s b).pending = s.pending := by
  unfold State.fenceBlock; (repeat' split) <;> simp [*]

@[simp] theorem State.returnBlock_pending (s : State) (b : Block) :
    (State.returnBlock s b).pending = s.pending := by
  unfold State.returnBlock; simp only []; (repeat' split) <;> simp [*]

@[simp] theorem State.testBlock_pending (s : State) (b : Block) (passed : Bool) :
    (State.testBlock s b passed).pending = s.pending := by
  unfold State.testBlock; simp only []; (repeat' split) <;> simp [*]

@[simp] theorem State.testTile_pending (s : State) (p : Nat) (passed : Bool) :
    (State.testTile s p passed).pending = s.pending := by
  unfold State.testTile; simp only []; (repeat' split) <;> simp [*]

@[simp] theorem State.targetAgain_pending (s : State) (c : Nat) :
    (State.targetAgain s c).pending = s.pending := by
  unfold State.targetAgain; (repeat' split) <;> simp [*]

@[simp] theorem State.testCore_pending (s : State) (c : Nat) (passed : Bool) :
    (State.testCore s c passed).pending = s.pending := by
  unfold State.testCore; simp only []; (repeat' split) <;> simp [*]

@[simp] theorem State.dropFoe_pending (s : State) :
    (State.dropFoe s).pending = s.pending := by
  unfold State.dropFoe; (repeat' split) <;> simp [*]

@[simp] theorem State.resetBlocks_pending (s : State) :
    (State.resetBlocks s).pending = s.pending := by
  simp [State.resetBlocks, *]

@[simp] theorem State.assertSource_pending (s : State) (cause : Nat) :
    (State.assertSource s cause).pending = s.pending := by
  unfold State.assertSource; simp only []; (repeat' split) <;> simp [*]

@[simp] theorem State.releaseSource_pending (s : State) (cause : Nat) :
    (State.releaseSource s cause).pending = s.pending := by
  simp [State.releaseSource, *]

@[simp] theorem State.pulseSource_pending (s : State) (cause : Nat) :
    (State.pulseSource s cause).pending = s.pending := by
  simp [State.pulseSource, *]

@[simp] theorem State.loseAlwaysOn_pending (s : State) :
    (State.loseAlwaysOn s).pending = s.pending := by
  simp [State.loseAlwaysOn, *]

@[simp] theorem State.showReading_pending (s : State) (raw : List Nat) (i : Nat) :
    (State.showReading s raw i).pending = s.pending := by
  simp [State.showReading, *]

@[simp] theorem State.showStack_pending (s : State) (raw : List Nat) (i : Nat) :
    (State.showStack s raw i).pending = s.pending := by
  unfold State.showStack; (repeat' split) <;> simp [*]

@[simp] theorem State.showReadings_pending (s : State) (raw : List Nat) :
    (State.showReadings s raw).pending = s.pending := by
  unfold State.showReadings; simp only []; (repeat' split) <;> simp [*]

@[simp] theorem State.tripCheck_pending (s : State) (raw : List Nat) :
    (State.tripCheck s raw).pending = s.pending := by
  unfold State.tripCheck; simp only []; (repeat' split) <;> simp [*]

@[simp] theorem State.latchCfg_pending (s : State) (ohms : Nat) :
    (State.latchCfg s ohms).pending = s.pending := by
  simp [State.latchCfg, *]

@[simp] theorem State.endWake_pending (s : State) (p : Nat) :
    (State.endWake s p).pending = s.pending := by
  unfold State.endWake; (repeat' split) <;> simp [*]

@[simp] theorem State.startDomain_pending (s : State) (x1 : Domain) :
    (State.startDomain s x1).pending = s.pending := by
  unfold State.startDomain; simp only []; (repeat' split) <;> simp [*]

@[simp] theorem State.startFirmware_pending (s : State) (i : Nat) :
    (State.startFirmware s i).pending = s.pending := by
  simp [State.startFirmware, *]

@[simp] theorem State.startRecovery_pending (s : State) :
    (State.startRecovery s).pending = s.pending := by
  simp [State.startRecovery, *]

@[simp] theorem State.reportBoot_pending (s : State) (fellBack : Bool) :
    (State.reportBoot s fellBack).pending = s.pending := by
  unfold State.reportBoot; simp only []; (repeat' split) <;> simp [*]

@[simp] theorem State.copyBody_pending (s : State) (t : Tab Byte) :
    (State.copyBody s t).pending = s.pending := by
  unfold State.copyBody; (repeat' split) <;> simp [*]

@[simp] theorem State.afterTry_pending (s : State) (i r : Nat) :
    (State.afterTry s i r).pending = s.pending := by
  unfold State.afterTry; (repeat' split) <;> simp [*]

@[simp] theorem State.bootRom_pending (s : State) :
    (State.bootRom s).pending = s.pending := by
  unfold State.bootRom; simp only []; (repeat' split) <;> simp [*]

@[simp] theorem State.finishBist_pending (s : State) (f : BistFinding) :
    (State.finishBist s f).pending = s.pending := by
  simp [State.finishBist, *]

@[simp] theorem State.keepGroup_pending (s : State) (vs : List (Nat × Nat)) :
    (State.keepGroup s vs).pending = s.pending := by
  unfold State.keepGroup; simp only []; (repeat' split) <;> simp [*]

@[simp] theorem State.recordBist_pending (s : State) (f : BistFinding) :
    (State.recordBist s f).pending = s.pending := by
  unfold State.recordBist; (repeat' split) <;> simp [*]

@[simp] theorem State.failTile_pending (s : State) (p : Nat) :
    (State.failTile s p).pending = s.pending := by
  simp [State.failTile, *]

@[simp] theorem State.failCore_pending (s : State) (failed : List Nat) (c : Nat) :
    (State.failCore s failed c).pending = s.pending := by
  unfold State.failCore; simp only []; (repeat' split) <;> simp [*]

@[simp] theorem State.failPort_pending (s : State) (k : Nat) :
    (State.failPort s k).pending = s.pending := by
  simp [State.failPort, *]

@[simp] theorem State.markUnusable_pending (s : State) (b : Block) :
    (State.markUnusable s b).pending = s.pending := by
  unfold State.markUnusable; (repeat' split) <;> simp [*]

@[simp] theorem State.loseNetwork_pending (s : State) (x1 : Domain) :
    (State.loseNetwork s x1).pending = s.pending := by
  unfold State.loseNetwork; (repeat' split) <;> simp [*]

@[simp] theorem State.applyBist_pending (s : State) (f : BistFinding) :
    (State.applyBist s f).pending = s.pending := by
  unfold State.applyBist; simp only []; (repeat' split) <;> simp [*]

@[simp] theorem State.loseTile_pending (s : State) (p : Nat) :
    (State.loseTile s p).pending = s.pending := by
  unfold State.loseTile; simp only []; (repeat' split) <;> simp [*]

@[simp] theorem State.loseDomain_pending (s : State) (d : Domain) :
    (State.loseDomain s d).pending = s.pending := by
  unfold State.loseDomain; (repeat' split) <;> simp [*]

@[simp] theorem State.blowFuses_pending (s : State) :
    (State.blowFuses s).pending = s.pending := by
  simp [State.blowFuses, *]

@[simp] theorem State.startLine_pending (s : State) :
    (State.startLine s).pending = s.pending := by
  simp [State.startLine, *]

@[simp] theorem State.startRunning_pending (s : State) :
    (State.startRunning s).pending = s.pending := by
  simp [State.startRunning, *]

@[simp] theorem State.startCalibration_pending (s : State) :
    (State.startCalibration s).pending = s.pending := by
  unfold State.startCalibration; simp only []; (repeat' split) <;> simp [*]

@[simp] theorem State.resumeTakes_pending (s : State) :
    (State.resumeTakes s).pending = s.pending := by
  unfold State.resumeTakes; (repeat' split) <;> simp [*]

@[simp] theorem State.firstSnapshot_pending (s : State) :
    (State.firstSnapshot s).pending = s.pending := by
  unfold State.firstSnapshot; (repeat' split) <;> simp [*]

@[simp] theorem State.comeUp_pending (s : State) :
    (State.comeUp s).pending = s.pending := by
  simp [State.comeUp, *]

@[simp] theorem State.restore_pending (s : State) :
    (State.restore s).pending = s.pending := by
  simp [State.restore, *]

@[simp] theorem State.gateTiles_pending (s : State) :
    (State.gateTiles s).pending = s.pending := by
  simp [State.gateTiles, *]

@[simp] theorem State.gateClocks_pending (s : State) :
    (State.gateClocks s).pending = s.pending := by
  rfl

@[simp] theorem State.standbyPorts_pending (s : State) :
    (State.standbyPorts s).pending = s.pending := by
  unfold State.standbyPorts; (repeat' split) <;> simp [*]

@[simp] theorem State.enterSleep_pending (s : State) :
    (State.enterSleep s).pending = s.pending := by
  simp [State.enterSleep, *]

@[simp] theorem State.wakeTiles_pending (s : State) :
    (State.wakeTiles s).pending = s.pending := by
  simp [State.wakeTiles, *]

@[simp] theorem State.replaceReel_pending (s : State) (r : Reel) :
    (State.replaceReel s r).pending = s.pending := by
  simp [State.replaceReel, *]

@[simp] theorem State.endFills_pending (s : State) :
    (State.endFills s).pending = s.pending := by
  unfold State.endFills; (repeat' split) <;> simp [*]

@[simp] theorem State.leaveSleep_pending (s : State) :
    (State.leaveSleep s).pending = s.pending := by
  unfold State.leaveSleep; simp only []; (repeat' split) <;> simp [*]

@[simp] theorem State.loadIr_pending (s : State) (code : Nat) :
    (State.loadIr s code).pending = s.pending := by
  simp [State.loadIr, *]

@[simp] theorem State.newChallenge_pending (s : State) :
    (State.newChallenge s).pending = s.pending := by
  simp [State.newChallenge, *]

@[simp] theorem State.answerChallenge_pending (s : State) (level : Nat) (keys : List Byte) (sigEd : List Byte) (sigMl : List Byte) :
    (State.answerChallenge s level keys sigEd sigMl).pending = s.pending := by
  unfold State.answerChallenge; simp only []; (repeat' split) <;> simp [*]

@[simp] theorem State.holdForScan_pending (s : State) :
    (State.holdForScan s).pending = s.pending := by
  simp [State.holdForScan, *]

@[simp] theorem State.zeroise_pending (s : State) :
    (State.zeroise s).pending = s.pending := by
  simp [State.zeroise, *]

@[simp] theorem State.zeroiseTables_pending (s : State) :
    (State.zeroiseTables s).pending = s.pending := by
  simp [State.zeroiseTables, *]

@[simp] theorem State.blockFuses_pending (s : State) :
    (State.blockFuses s).pending = s.pending := by
  simp [State.blockFuses, *]

@[simp] theorem State.openScan_pending (s : State) :
    (State.openScan s).pending = s.pending := by
  simp [State.openScan, *]

@[simp] theorem State.scanStep_pending (s : State) (x1 : Nat) :
    (State.scanStep s x1).pending = s.pending := by
  unfold State.scanStep; (repeat' split) <;> simp [*]

@[simp] theorem State.scanSteps_pending (s : State) (x1 : Nat) :
    (State.scanSteps s x1).pending = s.pending := by
  induction x1 generalizing s <;> simp_all [State.scanSteps]

@[simp] theorem State.failScan_pending (s : State) (k : Nat) :
    (State.failScan s k).pending = s.pending := by
  unfold State.failScan; simp only []; (repeat' split) <;> simp [*]

@[simp] theorem State.enableScan_pending (s : State) :
    (State.enableScan s).pending = s.pending := by
  simp [State.enableScan, *]

@[simp] theorem State.rewriteMask_pending (s : State) (p : Nat) (w : Desc) (m : Desc) (now : List (List (Nat × Option Nat))) :
    (State.rewriteMask s p w m now).1.pending = s.pending := by
  simp [State.rewriteMask, *]

@[simp] theorem State.trimRun_pending (s : State) (p : Nat) (x : Nat) (w : Desc) (m : Desc) :
    (State.trimRun s p x w m).s.pending = s.pending := by
  simp [State.trimRun, *]

@[simp] theorem trimEff_pending (s : State) (_l : Nat) (p : Nat) (e : QEntry) :
    (trimEff s _l p e).s.pending = s.pending := by
  unfold trimEff; simp only []; (repeat' split) <;> simp [*]

@[simp] theorem State.scanRun_pending (s : State) (l : Nat) (p : Nat) (x : Nat) (m : Desc) (c : Desc) (ga : Desc) (gb : Desc) :
    (State.scanRun s l p x m c ga gb).s.pending = s.pending := by
  simp [State.scanRun, *]

@[simp] theorem scanEff_pending (s : State) (l : Nat) (p : Nat) (e : QEntry) :
    (scanEff s l p e).s.pending = s.pending := by
  unfold scanEff; simp only []; (repeat' split) <;> simp [*]

@[simp] theorem State.tipinRun_pending (s : State) (l : Nat) (p : Nat) (pos : Nat) (x : Nat) (w : Desc) (m : Desc) (c : Desc) (grow : Nat) :
    (State.tipinRun s l p pos x w m c grow).s.pending = s.pending := by
  unfold State.tipinRun; simp only []; (repeat' split) <;> simp [*]

@[simp] theorem tipinEff_pending (s : State) (l : Nat) (p : Nat) (e : QEntry) :
    (tipinEff s l p e).s.pending = s.pending := by
  unfold tipinEff; simp only []; (repeat' split) <;> simp [*]

@[simp] theorem State.checkRun_pending (s : State) (p x : Nat) (m r : Desc) :
    (State.checkRun s p x m r).s.pending = s.pending := by
  simp [State.checkRun, *]

@[simp] theorem checkEff_pending (s : State) (_l : Nat) (p : Nat) (e : QEntry) :
    (checkEff s _l p e).s.pending = s.pending := by
  unfold checkEff; simp only []; (repeat' split) <;> simp [*]

@[simp] theorem State.randRun_pending (s : State) (l : Nat) (p : Nat) (x : Nat) (d : Desc) :
    (State.randRun s l p x d).s.pending = s.pending := by
  unfold State.randRun; simp only []; (repeat' split) <;> simp [*]

@[simp] theorem randEff_pending (s : State) (l : Nat) (p : Nat) (e : QEntry) :
    (randEff s l p e).s.pending = s.pending := by
  unfold randEff; simp only []; (repeat' split) <;> simp [*]

@[simp] theorem State.takeIdentity_pending (s : State) (k : Nat) (q : Packet) (rack package role : Nat) :
    (State.takeIdentity s k q rack package role).pending = s.pending := by
  unfold State.takeIdentity; (repeat' split) <;> simp [*]

@[simp] theorem State.sramUpset_pending (s : State) (a : Nat) (double : Bool) :
    (State.sramUpset s a double).pending = s.pending := by
  unfold State.sramUpset; simp only []; (repeat' split) <;> simp [*]

@[simp] theorem State.serveAgain_pending (s : State) :
    (State.serveAgain s).pending = s.pending := by
  unfold State.serveAgain; (repeat' split) <;> simp [*]

@[simp] theorem State.readInputs_pending (s : State) :
    (State.readInputs s).pending = s.pending := by
  unfold State.readInputs; (repeat' split) <;> simp [*]

@[simp] theorem State.driveTrst_pending (s : State) (high : Bool) :
    (State.driveTrst s high).pending = s.pending := by
  unfold State.driveTrst; (repeat' split) <;> simp [*]

end Sys2Proof.Machine
end

