-- ==== Sys2Proof/Laws/Tab.lean ====
section
/-!
SUPPORT. The laws of the sparse storages: a read after a write, the keys that a write leaves alone, and the
canonical form that every write keeps.
-/

namespace Sys2Proof.Machine

open Sys2Proof

theorem Tab.look_put_self {α : Type} (t : Tab α) (i : Nat) (v : α) : Tab.look (Tab.put t i v) i = some v := by
  induction t with
  | nil => simp [Tab.put, Tab.look]
  | cons a t ih =>
    obtain ⟨k, w⟩ := a
    simp only [Tab.put]
    split
    · simp [Tab.look]
    · split
      · simp [Tab.look]
      · simp_all [Tab.look]

theorem Tab.look_put_ne {α : Type} (t : Tab α) {i j : Nat} (v : α) (h : j ≠ i) :
    Tab.look (Tab.put t i v) j = Tab.look t j := by
  induction t with
  | nil => simp [Tab.put, Tab.look, h.symm]
  | cons a t ih =>
    obtain ⟨k, w⟩ := a
    simp only [Tab.put]
    split
    · simp [Tab.look, h.symm]
    · split
      · simp_all [Tab.look, h.symm]
      · simp_all [Tab.look]

theorem Tab.look_put {α : Type} (t : Tab α) (i j : Nat) (v : α) :
    Tab.look (Tab.put t i v) j = if j = i then some v else Tab.look t j := by
  split
  · subst_vars; exact Tab.look_put_self t _ v
  · exact Tab.look_put_ne t v (by assumption)

theorem Tab.look_del_self {α : Type} (t : Tab α) (i : Nat) : Tab.look (Tab.del t i) i = none := by
  induction t with
  | nil => rfl
  | cons a t ih =>
    obtain ⟨k, w⟩ := a
    simp only [Tab.del]
    split
    · exact ih
    · simp_all [Tab.look]

theorem Tab.look_del_ne {α : Type} (t : Tab α) {i j : Nat} (h : j ≠ i) : Tab.look (Tab.del t i) j = Tab.look t j := by
  induction t with
  | nil => rfl
  | cons a t ih =>
    obtain ⟨k, w⟩ := a
    simp only [Tab.del]
    split
    · subst_vars; simp [Tab.look, h.symm, ih]
    · simp [Tab.look, ih]

/-- A read after a write to the same key gives the value written, listed or not. -/
@[simp] theorem Tab.read_store_self {α : Type} [DecidableEq α] (t : Tab α) (d : α) (i : Nat) (v : α) :
    Tab.read (Tab.store t d i v) d i = v := by
  unfold Tab.read Tab.store
  split
  · simp_all [Tab.look_del_self]
  · simp [Tab.look_put_self]

/-- A write leaves every other key alone. -/
theorem Tab.read_store_ne {α : Type} [DecidableEq α] (t : Tab α) (d e : α) {i j : Nat} (v : α) (h : j ≠ i) :
    Tab.read (Tab.store t d i v) e j = Tab.read t e j := by
  unfold Tab.read Tab.store
  split
  · rw [Tab.look_del_ne t h]
  · rw [Tab.look_put_ne t v h]

@[simp] theorem Tab.read_put_self {α : Type} (t : Tab α) (d : α) (i : Nat) (v : α) :
    Tab.read (Tab.put t i v) d i = v := by simp [Tab.read, Tab.look_put_self]

theorem Tab.read_put_ne {α : Type} (t : Tab α) (d : α) {i j : Nat} (v : α) (h : j ≠ i) :
    Tab.read (Tab.put t i v) d j = Tab.read t d j := by simp [Tab.read, Tab.look_put_ne t v h]

/-! ## The canonical form -/

theorem Tab.above_put {α : Type} (lo : Nat) (t : Tab α) (i : Nat) (v : α) (h : Tab.above lo t = true) (hi : lo < i) :
    Tab.above lo (Tab.put t i v) = true := by
  induction t generalizing lo with
  | nil => simp [Tab.put, Tab.above, hi]
  | cons a t ih =>
    obtain ⟨k, w⟩ := a
    simp only [Tab.above, Bool.and_eq_true, decide_eq_true_eq] at h
    simp only [Tab.put]
    split
    · simp [Tab.above, *]
    · split
      · subst_vars; simp [Tab.above, *]
      · simp only [Tab.above, Bool.and_eq_true, decide_eq_true_eq]
        exact ⟨h.1, ih k h.2 (by omega)⟩

theorem Tab.above_mono {α : Type} {lo hi : Nat} (t : Tab α) (h : Tab.above hi t = true) (hl : lo ≤ hi) :
    Tab.above lo t = true := by
  cases t with
  | nil => rfl
  | cons a t =>
    obtain ⟨k, w⟩ := a
    simp only [Tab.above, Bool.and_eq_true, decide_eq_true_eq] at h ⊢
    exact ⟨by omega, h.2⟩

theorem Tab.above_del {α : Type} (lo : Nat) (t : Tab α) (i : Nat) (h : Tab.above lo t = true) :
    Tab.above lo (Tab.del t i) = true := by
  induction t generalizing lo with
  | nil => rfl
  | cons a t ih =>
    obtain ⟨k, w⟩ := a
    simp only [Tab.above, Bool.and_eq_true, decide_eq_true_eq] at h
    simp only [Tab.del]
    split
    · exact ih lo (Tab.above_mono t h.2 (by omega))
    · simp only [Tab.above, Bool.and_eq_true, decide_eq_true_eq]
      exact ⟨h.1, ih k h.2⟩

theorem Tab.above_wf {α : Type} {lo : Nat} {t : Tab α} (h : Tab.above lo t = true) : Tab.wf t = true := by
  cases t with
  | nil => rfl
  | cons a t =>
    obtain ⟨k, w⟩ := a
    simp only [Tab.above, Bool.and_eq_true, decide_eq_true_eq] at h
    exact h.2

/-- A write keeps the keys strictly rising. -/
theorem Tab.wf_put {α : Type} (t : Tab α) (i : Nat) (v : α) (h : Tab.wf t = true) : Tab.wf (Tab.put t i v) = true := by
  cases t with
  | nil => rfl
  | cons a t =>
    obtain ⟨k, w⟩ := a
    simp only [Tab.wf] at h
    simp only [Tab.put]
    split
    · simp [Tab.wf, Tab.above, *]
    · split
      · subst_vars; simpa [Tab.wf] using h
      · exact Tab.above_put k t i v h (by omega)

theorem Tab.wf_del {α : Type} (t : Tab α) (i : Nat) (h : Tab.wf t = true) : Tab.wf (Tab.del t i) = true := by
  cases t with
  | nil => rfl
  | cons a t =>
    obtain ⟨k, w⟩ := a
    simp only [Tab.wf] at h
    simp only [Tab.del]
    split
    · exact Tab.above_wf (Tab.above_del k t i h)
    · exact Tab.above_del k t i h

theorem Tab.sparse_put {α : Type} [DecidableEq α] (d : α) (t : Tab α) (i : Nat) (v : α) (h : Tab.sparse d t = true)
    (hv : v ≠ d) : Tab.sparse d (Tab.put t i v) = true := by
  induction t with
  | nil => simp [Tab.put, Tab.sparse, hv]
  | cons a t ih =>
    obtain ⟨k, w⟩ := a
    simp only [Tab.sparse, List.all_cons, Bool.and_eq_true] at h ih ⊢
    simp only [Tab.put]
    have hd : decide (v ≠ d) = true := by simpa using hv
    split
    · simp only [List.all_cons, Bool.and_eq_true]
      exact ⟨hd, h⟩
    · split
      · simp only [List.all_cons, Bool.and_eq_true]
        exact ⟨hd, h.2⟩
      · simp only [List.all_cons, Bool.and_eq_true]
        exact ⟨h.1, ih h.2⟩

theorem Tab.sparse_del {α : Type} [DecidableEq α] (d : α) (t : Tab α) (i : Nat) (h : Tab.sparse d t = true) :
    Tab.sparse d (Tab.del t i) = true := by
  induction t with
  | nil => rfl
  | cons a t ih =>
    obtain ⟨k, w⟩ := a
    simp only [Tab.sparse, List.all_cons, Bool.and_eq_true] at h ih ⊢
    simp only [Tab.del]
    split
    · exact ih h.2
    · simp only [List.all_cons, Bool.and_eq_true]
      exact ⟨h.1, ih h.2⟩

/-- A store keeps the canonical form: keys strictly rising, no entry equal to what an unlisted key reads as. -/
theorem Tab.store_canonical {α : Type} [DecidableEq α] (d : α) (t : Tab α) (i : Nat) (v : α)
    (h : Tab.wf t = true ∧ Tab.sparse d t = true) :
    Tab.wf (Tab.store t d i v) = true ∧ Tab.sparse d (Tab.store t d i v) = true := by
  unfold Tab.store
  split
  · exact ⟨Tab.wf_del t i h.1, Tab.sparse_del d t i h.2⟩
  · exact ⟨Tab.wf_put t i v h.1, Tab.sparse_put d t i v h.2 (by assumption)⟩

theorem Tab.storeList_canonical {α : Type} [DecidableEq α] (d : α) (vs : List α) (t : Tab α) (i : Nat)
    (h : Tab.wf t = true ∧ Tab.sparse d t = true) :
    Tab.wf (Tab.storeList t d i vs) = true ∧ Tab.sparse d (Tab.storeList t d i vs) = true := by
  induction vs generalizing t i with
  | nil => exact h
  | cons v vs ih => exact ih _ _ (Tab.store_canonical d t i v h)

end Sys2Proof.Machine
end

