-- ==== Sys2Proof/Laws/State.lean ====
section
/-!
SUPPORT. One lemma per field per named update of the state: what was written reads back, and every other field stays.
-/

namespace Sys2Proof.Machine

open Sys2Proof

/-- An object reads back what was stored in it. -/
@[simp] theorem State.setObj_obj_self (s : State) (k v : Nat) : (s.setObj k v).obj k = v := by
  unfold State.setObj State.obj Tab.store
  dsimp only
  split
  · simp_all [Tab.look_del_self]
  · simp [Tab.look_put_self]

/-- Storing one object leaves every other object alone. -/
theorem State.setObj_obj_ne (s : State) {k j : Nat} (v : Nat) (h : j ≠ k) : (s.setObj k v).obj j = s.obj j := by
  unfold State.setObj State.obj Tab.store
  dsimp only
  split
  · rw [Tab.look_del_ne _ h]
  · rw [Tab.look_put_ne _ _ h]

theorem State.setObj_obj (s : State) (k j v : Nat) : (s.setObj k v).obj j = if j = k then v else s.obj j := by
  split
  · subst_vars; simp
  · exact State.setObj_obj_ne s v (by assumption)

@[simp] theorem State.addObj_obj_self (s : State) (k bits n : Nat) :
    (s.addObj k bits n).obj k = (s.obj k + n) % 2 ^ bits := by simp only [State.addObj, State.setObj_obj_self]

theorem State.addObj_obj_ne (s : State) {k j : Nat} (bits n : Nat) (h : j ≠ k) : (s.addObj k bits n).obj j = s.obj j :=
  State.setObj_obj_ne s _ h

@[simp] theorem State.incObj_obj_self (s : State) (k : Nat) : (s.incObj k).obj k = (s.obj k + 1) % 2 ^ 32 :=
  State.addObj_obj_self s k 32 1

theorem State.incObj_obj_ne (s : State) {k j : Nat} (h : j ≠ k) : (s.incObj k).obj j = s.obj j :=
  State.setObj_obj_ne s _ h

/-- What reads only the objects reads the same where the objects are the same. -/
theorem State.obj_congr {s t : State} (h : t.objs = s.objs) (k : Nat) : t.obj k = s.obj k := by
  simp only [State.obj, h]

@[simp] theorem State.setLt_lt_self (s : State) (l : Nat) (t : LogTile) : (s.setLt l t).lt l = t := by
  simp [State.setLt, State.lt]

theorem State.setLt_lt_ne (s : State) {l m : Nat} (t : LogTile) (h : m ≠ l) : (s.setLt l t).lt m = s.lt m := by
  simp only [State.setLt, State.lt, Tab.read_put_ne _ _ _ h]

@[simp] theorem State.setPt_pt_self (s : State) (p : Nat) (t : PhysTile) : (s.setPt p t).pt p = t := by
  simp [State.setPt, State.pt]

theorem State.setPt_pt_ne (s : State) {p q : Nat} (t : PhysTile) (h : q ≠ p) : (s.setPt p t).pt q = s.pt q := by
  simp only [State.setPt, State.pt, Tab.read_put_ne _ _ _ h]

@[simp] theorem State.setCore_core_self (s : State) (c : Nat) (k : CoreSt) : (s.setCore c k).core c = k := by
  simp [State.setCore, State.core]

@[simp] theorem State.emit_out (s : State) (o : Out) : (s.emit o).out = s.out ++ [o] := rfl

@[simp] theorem State.useFree_free (s : State) : s.useFree.free = s.free + 1 := rfl

@[simp] theorem State.setObj_time (s : State) (k : Nat) (v : Nat) :
    (State.setObj s k v).time = s.time := by
  first | (simp [State.setObj, *])

@[simp] theorem State.setObj_take (s : State) (k : Nat) (v : Nat) :
    (State.setObj s k v).take = s.take := by
  first | (simp [State.setObj, *])

@[simp] theorem State.setObj_reels (s : State) (k : Nat) (v : Nat) :
    (State.setObj s k v).reels = s.reels := by
  first | (simp [State.setObj, *])

@[simp] theorem State.setObj_phys (s : State) (k : Nat) (v : Nat) :
    (State.setObj s k v).phys = s.phys := by
  first | (simp [State.setObj, *])

@[simp] theorem State.setObj_tiles (s : State) (k : Nat) (v : Nat) :
    (State.setObj s k v).tiles = s.tiles := by
  first | (simp [State.setObj, *])

@[simp] theorem State.setObj_mem (s : State) (k : Nat) (v : Nat) :
    (State.setObj s k v).mem = s.mem := by
  first | (simp [State.setObj, *])

@[simp] theorem State.setObj_route (s : State) (k : Nat) (v : Nat) :
    (State.setObj s k v).route = s.route := by
  first | (simp [State.setObj, *])

@[simp] theorem State.setObj_steps (s : State) (k : Nat) (v : Nat) :
    (State.setObj s k v).steps = s.steps := by
  first | (simp [State.setObj, *])

@[simp] theorem State.setObj_fabric (s : State) (k : Nat) (v : Nat) :
    (State.setObj s k v).fabric = s.fabric := by
  first | (simp [State.setObj, *])

@[simp] theorem State.setObj_host (s : State) (k : Nat) (v : Nat) :
    (State.setObj s k v).host = s.host := by
  first | (simp [State.setObj, *])

@[simp] theorem State.setObj_mailbox (s : State) (k : Nat) (v : Nat) :
    (State.setObj s k v).mailbox = s.mailbox := by
  first | (simp [State.setObj, *])

@[simp] theorem State.setObj_server (s : State) (k : Nat) (v : Nat) :
    (State.setObj s k v).server = s.server := by
  first | (simp [State.setObj, *])

@[simp] theorem State.setObj_ecat (s : State) (k : Nat) (v : Nat) :
    (State.setObj s k v).ecat = s.ecat := by
  first | (simp [State.setObj, *])

@[simp] theorem State.setObj_journal (s : State) (k : Nat) (v : Nat) :
    (State.setObj s k v).journal = s.journal := by
  first | (simp [State.setObj, *])

@[simp] theorem State.setObj_intr (s : State) (k : Nat) (v : Nat) :
    (State.setObj s k v).intr = s.intr := by
  first | (simp [State.setObj, *])

@[simp] theorem State.setObj_early (s : State) (k : Nat) (v : Nat) :
    (State.setObj s k v).early = s.early := by
  first | (simp [State.setObj, *])

@[simp] theorem State.setObj_dailies (s : State) (k : Nat) (v : Nat) :
    (State.setObj s k v).dailies = s.dailies := by
  first | (simp [State.setObj, *])

@[simp] theorem State.setObj_rst (s : State) (k : Nat) (v : Nat) :
    (State.setObj s k v).rst = s.rst := by
  first | (simp [State.setObj, *])

@[simp] theorem State.setObj_sec (s : State) (k : Nat) (v : Nat) :
    (State.setObj s k v).sec = s.sec := by
  first | (simp [State.setObj, *])

@[simp] theorem State.setObj_free (s : State) (k : Nat) (v : Nat) :
    (State.setObj s k v).free = s.free := by
  first | (simp [State.setObj, *])

@[simp] theorem State.setObj_out (s : State) (k : Nat) (v : Nat) :
    (State.setObj s k v).out = s.out := by
  first | (simp [State.setObj, *])

@[simp] theorem State.addObj_time (s : State) (k : Nat) (bits : Nat) (n : Nat) :
    (State.addObj s k bits n).time = s.time := by
  first | (simp [State.addObj, *])

@[simp] theorem State.addObj_take (s : State) (k : Nat) (bits : Nat) (n : Nat) :
    (State.addObj s k bits n).take = s.take := by
  first | (simp [State.addObj, *])

@[simp] theorem State.addObj_reels (s : State) (k : Nat) (bits : Nat) (n : Nat) :
    (State.addObj s k bits n).reels = s.reels := by
  first | (simp [State.addObj, *])

@[simp] theorem State.addObj_phys (s : State) (k : Nat) (bits : Nat) (n : Nat) :
    (State.addObj s k bits n).phys = s.phys := by
  first | (simp [State.addObj, *])

@[simp] theorem State.addObj_tiles (s : State) (k : Nat) (bits : Nat) (n : Nat) :
    (State.addObj s k bits n).tiles = s.tiles := by
  first | (simp [State.addObj, *])

@[simp] theorem State.addObj_mem (s : State) (k : Nat) (bits : Nat) (n : Nat) :
    (State.addObj s k bits n).mem = s.mem := by
  first | (simp [State.addObj, *])

@[simp] theorem State.addObj_route (s : State) (k : Nat) (bits : Nat) (n : Nat) :
    (State.addObj s k bits n).route = s.route := by
  first | (simp [State.addObj, *])

@[simp] theorem State.addObj_steps (s : State) (k : Nat) (bits : Nat) (n : Nat) :
    (State.addObj s k bits n).steps = s.steps := by
  first | (simp [State.addObj, *])

@[simp] theorem State.addObj_fabric (s : State) (k : Nat) (bits : Nat) (n : Nat) :
    (State.addObj s k bits n).fabric = s.fabric := by
  first | (simp [State.addObj, *])

@[simp] theorem State.addObj_host (s : State) (k : Nat) (bits : Nat) (n : Nat) :
    (State.addObj s k bits n).host = s.host := by
  first | (simp [State.addObj, *])

@[simp] theorem State.addObj_mailbox (s : State) (k : Nat) (bits : Nat) (n : Nat) :
    (State.addObj s k bits n).mailbox = s.mailbox := by
  first | (simp [State.addObj, *])

@[simp] theorem State.addObj_server (s : State) (k : Nat) (bits : Nat) (n : Nat) :
    (State.addObj s k bits n).server = s.server := by
  first | (simp [State.addObj, *])

@[simp] theorem State.addObj_ecat (s : State) (k : Nat) (bits : Nat) (n : Nat) :
    (State.addObj s k bits n).ecat = s.ecat := by
  first | (simp [State.addObj, *])

@[simp] theorem State.addObj_journal (s : State) (k : Nat) (bits : Nat) (n : Nat) :
    (State.addObj s k bits n).journal = s.journal := by
  first | (simp [State.addObj, *])

@[simp] theorem State.addObj_intr (s : State) (k : Nat) (bits : Nat) (n : Nat) :
    (State.addObj s k bits n).intr = s.intr := by
  first | (simp [State.addObj, *])

@[simp] theorem State.addObj_early (s : State) (k : Nat) (bits : Nat) (n : Nat) :
    (State.addObj s k bits n).early = s.early := by
  first | (simp [State.addObj, *])

@[simp] theorem State.addObj_dailies (s : State) (k : Nat) (bits : Nat) (n : Nat) :
    (State.addObj s k bits n).dailies = s.dailies := by
  first | (simp [State.addObj, *])

@[simp] theorem State.addObj_rst (s : State) (k : Nat) (bits : Nat) (n : Nat) :
    (State.addObj s k bits n).rst = s.rst := by
  first | (simp [State.addObj, *])

@[simp] theorem State.addObj_sec (s : State) (k : Nat) (bits : Nat) (n : Nat) :
    (State.addObj s k bits n).sec = s.sec := by
  first | (simp [State.addObj, *])

@[simp] theorem State.addObj_free (s : State) (k : Nat) (bits : Nat) (n : Nat) :
    (State.addObj s k bits n).free = s.free := by
  first | (simp [State.addObj, *])

@[simp] theorem State.addObj_out (s : State) (k : Nat) (bits : Nat) (n : Nat) :
    (State.addObj s k bits n).out = s.out := by
  first | (simp [State.addObj, *])

@[simp] theorem State.incObj_time (s : State) (k : Nat) :
    (State.incObj s k).time = s.time := by
  first | (simp [State.incObj, *])

@[simp] theorem State.incObj_take (s : State) (k : Nat) :
    (State.incObj s k).take = s.take := by
  first | (simp [State.incObj, *])

@[simp] theorem State.incObj_reels (s : State) (k : Nat) :
    (State.incObj s k).reels = s.reels := by
  first | (simp [State.incObj, *])

@[simp] theorem State.incObj_phys (s : State) (k : Nat) :
    (State.incObj s k).phys = s.phys := by
  first | (simp [State.incObj, *])

@[simp] theorem State.incObj_tiles (s : State) (k : Nat) :
    (State.incObj s k).tiles = s.tiles := by
  first | (simp [State.incObj, *])

@[simp] theorem State.incObj_mem (s : State) (k : Nat) :
    (State.incObj s k).mem = s.mem := by
  first | (simp [State.incObj, *])

@[simp] theorem State.incObj_route (s : State) (k : Nat) :
    (State.incObj s k).route = s.route := by
  first | (simp [State.incObj, *])

@[simp] theorem State.incObj_steps (s : State) (k : Nat) :
    (State.incObj s k).steps = s.steps := by
  first | (simp [State.incObj, *])

@[simp] theorem State.incObj_fabric (s : State) (k : Nat) :
    (State.incObj s k).fabric = s.fabric := by
  first | (simp [State.incObj, *])

@[simp] theorem State.incObj_host (s : State) (k : Nat) :
    (State.incObj s k).host = s.host := by
  first | (simp [State.incObj, *])

@[simp] theorem State.incObj_mailbox (s : State) (k : Nat) :
    (State.incObj s k).mailbox = s.mailbox := by
  first | (simp [State.incObj, *])

@[simp] theorem State.incObj_server (s : State) (k : Nat) :
    (State.incObj s k).server = s.server := by
  first | (simp [State.incObj, *])

@[simp] theorem State.incObj_ecat (s : State) (k : Nat) :
    (State.incObj s k).ecat = s.ecat := by
  first | (simp [State.incObj, *])

@[simp] theorem State.incObj_journal (s : State) (k : Nat) :
    (State.incObj s k).journal = s.journal := by
  first | (simp [State.incObj, *])

@[simp] theorem State.incObj_intr (s : State) (k : Nat) :
    (State.incObj s k).intr = s.intr := by
  first | (simp [State.incObj, *])

@[simp] theorem State.incObj_early (s : State) (k : Nat) :
    (State.incObj s k).early = s.early := by
  first | (simp [State.incObj, *])

@[simp] theorem State.incObj_dailies (s : State) (k : Nat) :
    (State.incObj s k).dailies = s.dailies := by
  first | (simp [State.incObj, *])

@[simp] theorem State.incObj_rst (s : State) (k : Nat) :
    (State.incObj s k).rst = s.rst := by
  first | (simp [State.incObj, *])

@[simp] theorem State.incObj_sec (s : State) (k : Nat) :
    (State.incObj s k).sec = s.sec := by
  first | (simp [State.incObj, *])

@[simp] theorem State.incObj_free (s : State) (k : Nat) :
    (State.incObj s k).free = s.free := by
  first | (simp [State.incObj, *])

@[simp] theorem State.incObj_out (s : State) (k : Nat) :
    (State.incObj s k).out = s.out := by
  first | (simp [State.incObj, *])

@[simp] theorem State.emit_objs (s : State) (o : Out) :
    (State.emit s o).objs = s.objs := by
  first | (simp [State.emit, *])

@[simp] theorem State.emit_time (s : State) (o : Out) :
    (State.emit s o).time = s.time := by
  first | (simp [State.emit, *])

@[simp] theorem State.emit_take (s : State) (o : Out) :
    (State.emit s o).take = s.take := by
  first | (simp [State.emit, *])

@[simp] theorem State.emit_reels (s : State) (o : Out) :
    (State.emit s o).reels = s.reels := by
  first | (simp [State.emit, *])

@[simp] theorem State.emit_phys (s : State) (o : Out) :
    (State.emit s o).phys = s.phys := by
  first | (simp [State.emit, *])

@[simp] theorem State.emit_tiles (s : State) (o : Out) :
    (State.emit s o).tiles = s.tiles := by
  first | (simp [State.emit, *])

@[simp] theorem State.emit_mem (s : State) (o : Out) :
    (State.emit s o).mem = s.mem := by
  first | (simp [State.emit, *])

@[simp] theorem State.emit_route (s : State) (o : Out) :
    (State.emit s o).route = s.route := by
  first | (simp [State.emit, *])

@[simp] theorem State.emit_steps (s : State) (o : Out) :
    (State.emit s o).steps = s.steps := by
  first | (simp [State.emit, *])

@[simp] theorem State.emit_fabric (s : State) (o : Out) :
    (State.emit s o).fabric = s.fabric := by
  first | (simp [State.emit, *])

@[simp] theorem State.emit_host (s : State) (o : Out) :
    (State.emit s o).host = s.host := by
  first | (simp [State.emit, *])

@[simp] theorem State.emit_mailbox (s : State) (o : Out) :
    (State.emit s o).mailbox = s.mailbox := by
  first | (simp [State.emit, *])

@[simp] theorem State.emit_server (s : State) (o : Out) :
    (State.emit s o).server = s.server := by
  first | (simp [State.emit, *])

@[simp] theorem State.emit_ecat (s : State) (o : Out) :
    (State.emit s o).ecat = s.ecat := by
  first | (simp [State.emit, *])

@[simp] theorem State.emit_journal (s : State) (o : Out) :
    (State.emit s o).journal = s.journal := by
  first | (simp [State.emit, *])

@[simp] theorem State.emit_intr (s : State) (o : Out) :
    (State.emit s o).intr = s.intr := by
  first | (simp [State.emit, *])

@[simp] theorem State.emit_early (s : State) (o : Out) :
    (State.emit s o).early = s.early := by
  first | (simp [State.emit, *])

@[simp] theorem State.emit_dailies (s : State) (o : Out) :
    (State.emit s o).dailies = s.dailies := by
  first | (simp [State.emit, *])

@[simp] theorem State.emit_rst (s : State) (o : Out) :
    (State.emit s o).rst = s.rst := by
  first | (simp [State.emit, *])

@[simp] theorem State.emit_sec (s : State) (o : Out) :
    (State.emit s o).sec = s.sec := by
  first | (simp [State.emit, *])

@[simp] theorem State.emit_free (s : State) (o : Out) :
    (State.emit s o).free = s.free := by
  first | (simp [State.emit, *])

@[simp] theorem State.useFree_objs (s : State) :
    (State.useFree s).objs = s.objs := by
  first | (simp [State.useFree, *])

@[simp] theorem State.useFree_time (s : State) :
    (State.useFree s).time = s.time := by
  first | (simp [State.useFree, *])

@[simp] theorem State.useFree_take (s : State) :
    (State.useFree s).take = s.take := by
  first | (simp [State.useFree, *])

@[simp] theorem State.useFree_reels (s : State) :
    (State.useFree s).reels = s.reels := by
  first | (simp [State.useFree, *])

@[simp] theorem State.useFree_phys (s : State) :
    (State.useFree s).phys = s.phys := by
  first | (simp [State.useFree, *])

@[simp] theorem State.useFree_tiles (s : State) :
    (State.useFree s).tiles = s.tiles := by
  first | (simp [State.useFree, *])

@[simp] theorem State.useFree_mem (s : State) :
    (State.useFree s).mem = s.mem := by
  first | (simp [State.useFree, *])

@[simp] theorem State.useFree_route (s : State) :
    (State.useFree s).route = s.route := by
  first | (simp [State.useFree, *])

@[simp] theorem State.useFree_steps (s : State) :
    (State.useFree s).steps = s.steps := by
  first | (simp [State.useFree, *])

@[simp] theorem State.useFree_fabric (s : State) :
    (State.useFree s).fabric = s.fabric := by
  first | (simp [State.useFree, *])

@[simp] theorem State.useFree_host (s : State) :
    (State.useFree s).host = s.host := by
  first | (simp [State.useFree, *])

@[simp] theorem State.useFree_mailbox (s : State) :
    (State.useFree s).mailbox = s.mailbox := by
  first | (simp [State.useFree, *])

@[simp] theorem State.useFree_server (s : State) :
    (State.useFree s).server = s.server := by
  first | (simp [State.useFree, *])

@[simp] theorem State.useFree_ecat (s : State) :
    (State.useFree s).ecat = s.ecat := by
  first | (simp [State.useFree, *])

@[simp] theorem State.useFree_journal (s : State) :
    (State.useFree s).journal = s.journal := by
  first | (simp [State.useFree, *])

@[simp] theorem State.useFree_intr (s : State) :
    (State.useFree s).intr = s.intr := by
  first | (simp [State.useFree, *])

@[simp] theorem State.useFree_early (s : State) :
    (State.useFree s).early = s.early := by
  first | (simp [State.useFree, *])

@[simp] theorem State.useFree_dailies (s : State) :
    (State.useFree s).dailies = s.dailies := by
  first | (simp [State.useFree, *])

@[simp] theorem State.useFree_rst (s : State) :
    (State.useFree s).rst = s.rst := by
  first | (simp [State.useFree, *])

@[simp] theorem State.useFree_sec (s : State) :
    (State.useFree s).sec = s.sec := by
  first | (simp [State.useFree, *])

@[simp] theorem State.useFree_out (s : State) :
    (State.useFree s).out = s.out := by
  first | (simp [State.useFree, *])

@[simp] theorem State.setLt_objs (s : State) (l : Nat) (t : LogTile) :
    (State.setLt s l t).objs = s.objs := by
  first | (simp [State.setLt, *])

@[simp] theorem State.setLt_time (s : State) (l : Nat) (t : LogTile) :
    (State.setLt s l t).time = s.time := by
  first | (simp [State.setLt, *])

@[simp] theorem State.setLt_take (s : State) (l : Nat) (t : LogTile) :
    (State.setLt s l t).take = s.take := by
  first | (simp [State.setLt, *])

@[simp] theorem State.setLt_reels (s : State) (l : Nat) (t : LogTile) :
    (State.setLt s l t).reels = s.reels := by
  first | (simp [State.setLt, *])

@[simp] theorem State.setLt_phys (s : State) (l : Nat) (t : LogTile) :
    (State.setLt s l t).phys = s.phys := by
  first | (simp [State.setLt, *])

@[simp] theorem State.setLt_mem (s : State) (l : Nat) (t : LogTile) :
    (State.setLt s l t).mem = s.mem := by
  first | (simp [State.setLt, *])

@[simp] theorem State.setLt_route (s : State) (l : Nat) (t : LogTile) :
    (State.setLt s l t).route = s.route := by
  first | (simp [State.setLt, *])

@[simp] theorem State.setLt_steps (s : State) (l : Nat) (t : LogTile) :
    (State.setLt s l t).steps = s.steps := by
  first | (simp [State.setLt, *])

@[simp] theorem State.setLt_fabric (s : State) (l : Nat) (t : LogTile) :
    (State.setLt s l t).fabric = s.fabric := by
  first | (simp [State.setLt, *])

@[simp] theorem State.setLt_host (s : State) (l : Nat) (t : LogTile) :
    (State.setLt s l t).host = s.host := by
  first | (simp [State.setLt, *])

@[simp] theorem State.setLt_mailbox (s : State) (l : Nat) (t : LogTile) :
    (State.setLt s l t).mailbox = s.mailbox := by
  first | (simp [State.setLt, *])

@[simp] theorem State.setLt_server (s : State) (l : Nat) (t : LogTile) :
    (State.setLt s l t).server = s.server := by
  first | (simp [State.setLt, *])

@[simp] theorem State.setLt_ecat (s : State) (l : Nat) (t : LogTile) :
    (State.setLt s l t).ecat = s.ecat := by
  first | (simp [State.setLt, *])

@[simp] theorem State.setLt_journal (s : State) (l : Nat) (t : LogTile) :
    (State.setLt s l t).journal = s.journal := by
  first | (simp [State.setLt, *])

@[simp] theorem State.setLt_intr (s : State) (l : Nat) (t : LogTile) :
    (State.setLt s l t).intr = s.intr := by
  first | (simp [State.setLt, *])

@[simp] theorem State.setLt_early (s : State) (l : Nat) (t : LogTile) :
    (State.setLt s l t).early = s.early := by
  first | (simp [State.setLt, *])

@[simp] theorem State.setLt_dailies (s : State) (l : Nat) (t : LogTile) :
    (State.setLt s l t).dailies = s.dailies := by
  first | (simp [State.setLt, *])

@[simp] theorem State.setLt_rst (s : State) (l : Nat) (t : LogTile) :
    (State.setLt s l t).rst = s.rst := by
  first | (simp [State.setLt, *])

@[simp] theorem State.setLt_sec (s : State) (l : Nat) (t : LogTile) :
    (State.setLt s l t).sec = s.sec := by
  first | (simp [State.setLt, *])

@[simp] theorem State.setLt_free (s : State) (l : Nat) (t : LogTile) :
    (State.setLt s l t).free = s.free := by
  first | (simp [State.setLt, *])

@[simp] theorem State.setLt_out (s : State) (l : Nat) (t : LogTile) :
    (State.setLt s l t).out = s.out := by
  first | (simp [State.setLt, *])

@[simp] theorem State.setPt_objs (s : State) (p : Nat) (t : PhysTile) :
    (State.setPt s p t).objs = s.objs := by
  first | (simp [State.setPt, *])

@[simp] theorem State.setPt_time (s : State) (p : Nat) (t : PhysTile) :
    (State.setPt s p t).time = s.time := by
  first | (simp [State.setPt, *])

@[simp] theorem State.setPt_take (s : State) (p : Nat) (t : PhysTile) :
    (State.setPt s p t).take = s.take := by
  first | (simp [State.setPt, *])

@[simp] theorem State.setPt_reels (s : State) (p : Nat) (t : PhysTile) :
    (State.setPt s p t).reels = s.reels := by
  first | (simp [State.setPt, *])

@[simp] theorem State.setPt_tiles (s : State) (p : Nat) (t : PhysTile) :
    (State.setPt s p t).tiles = s.tiles := by
  first | (simp [State.setPt, *])

@[simp] theorem State.setPt_mem (s : State) (p : Nat) (t : PhysTile) :
    (State.setPt s p t).mem = s.mem := by
  first | (simp [State.setPt, *])

@[simp] theorem State.setPt_route (s : State) (p : Nat) (t : PhysTile) :
    (State.setPt s p t).route = s.route := by
  first | (simp [State.setPt, *])

@[simp] theorem State.setPt_steps (s : State) (p : Nat) (t : PhysTile) :
    (State.setPt s p t).steps = s.steps := by
  first | (simp [State.setPt, *])

@[simp] theorem State.setPt_fabric (s : State) (p : Nat) (t : PhysTile) :
    (State.setPt s p t).fabric = s.fabric := by
  first | (simp [State.setPt, *])

@[simp] theorem State.setPt_host (s : State) (p : Nat) (t : PhysTile) :
    (State.setPt s p t).host = s.host := by
  first | (simp [State.setPt, *])

@[simp] theorem State.setPt_mailbox (s : State) (p : Nat) (t : PhysTile) :
    (State.setPt s p t).mailbox = s.mailbox := by
  first | (simp [State.setPt, *])

@[simp] theorem State.setPt_server (s : State) (p : Nat) (t : PhysTile) :
    (State.setPt s p t).server = s.server := by
  first | (simp [State.setPt, *])

@[simp] theorem State.setPt_ecat (s : State) (p : Nat) (t : PhysTile) :
    (State.setPt s p t).ecat = s.ecat := by
  first | (simp [State.setPt, *])

@[simp] theorem State.setPt_journal (s : State) (p : Nat) (t : PhysTile) :
    (State.setPt s p t).journal = s.journal := by
  first | (simp [State.setPt, *])

@[simp] theorem State.setPt_intr (s : State) (p : Nat) (t : PhysTile) :
    (State.setPt s p t).intr = s.intr := by
  first | (simp [State.setPt, *])

@[simp] theorem State.setPt_early (s : State) (p : Nat) (t : PhysTile) :
    (State.setPt s p t).early = s.early := by
  first | (simp [State.setPt, *])

@[simp] theorem State.setPt_dailies (s : State) (p : Nat) (t : PhysTile) :
    (State.setPt s p t).dailies = s.dailies := by
  first | (simp [State.setPt, *])

@[simp] theorem State.setPt_rst (s : State) (p : Nat) (t : PhysTile) :
    (State.setPt s p t).rst = s.rst := by
  first | (simp [State.setPt, *])

@[simp] theorem State.setPt_sec (s : State) (p : Nat) (t : PhysTile) :
    (State.setPt s p t).sec = s.sec := by
  first | (simp [State.setPt, *])

@[simp] theorem State.setPt_free (s : State) (p : Nat) (t : PhysTile) :
    (State.setPt s p t).free = s.free := by
  first | (simp [State.setPt, *])

@[simp] theorem State.setPt_out (s : State) (p : Nat) (t : PhysTile) :
    (State.setPt s p t).out = s.out := by
  first | (simp [State.setPt, *])

@[simp] theorem State.storeWrite_objs (s : State) (p : Nat) (a : Nat) (bs : List Byte) :
    (State.storeWrite s p a bs).objs = s.objs := by
  first | (simp [State.storeWrite, *])

@[simp] theorem State.storeWrite_time (s : State) (p : Nat) (a : Nat) (bs : List Byte) :
    (State.storeWrite s p a bs).time = s.time := by
  first | (simp [State.storeWrite, *])

@[simp] theorem State.storeWrite_take (s : State) (p : Nat) (a : Nat) (bs : List Byte) :
    (State.storeWrite s p a bs).take = s.take := by
  first | (simp [State.storeWrite, *])

@[simp] theorem State.storeWrite_reels (s : State) (p : Nat) (a : Nat) (bs : List Byte) :
    (State.storeWrite s p a bs).reels = s.reels := by
  first | (simp [State.storeWrite, *])

@[simp] theorem State.storeWrite_tiles (s : State) (p : Nat) (a : Nat) (bs : List Byte) :
    (State.storeWrite s p a bs).tiles = s.tiles := by
  first | (simp [State.storeWrite, *])

@[simp] theorem State.storeWrite_mem (s : State) (p : Nat) (a : Nat) (bs : List Byte) :
    (State.storeWrite s p a bs).mem = s.mem := by
  first | (simp [State.storeWrite, *])

@[simp] theorem State.storeWrite_route (s : State) (p : Nat) (a : Nat) (bs : List Byte) :
    (State.storeWrite s p a bs).route = s.route := by
  first | (simp [State.storeWrite, *])

@[simp] theorem State.storeWrite_steps (s : State) (p : Nat) (a : Nat) (bs : List Byte) :
    (State.storeWrite s p a bs).steps = s.steps := by
  first | (simp [State.storeWrite, *])

@[simp] theorem State.storeWrite_fabric (s : State) (p : Nat) (a : Nat) (bs : List Byte) :
    (State.storeWrite s p a bs).fabric = s.fabric := by
  first | (simp [State.storeWrite, *])

@[simp] theorem State.storeWrite_host (s : State) (p : Nat) (a : Nat) (bs : List Byte) :
    (State.storeWrite s p a bs).host = s.host := by
  first | (simp [State.storeWrite, *])

@[simp] theorem State.storeWrite_mailbox (s : State) (p : Nat) (a : Nat) (bs : List Byte) :
    (State.storeWrite s p a bs).mailbox = s.mailbox := by
  first | (simp [State.storeWrite, *])

@[simp] theorem State.storeWrite_server (s : State) (p : Nat) (a : Nat) (bs : List Byte) :
    (State.storeWrite s p a bs).server = s.server := by
  first | (simp [State.storeWrite, *])

@[simp] theorem State.storeWrite_ecat (s : State) (p : Nat) (a : Nat) (bs : List Byte) :
    (State.storeWrite s p a bs).ecat = s.ecat := by
  first | (simp [State.storeWrite, *])

@[simp] theorem State.storeWrite_journal (s : State) (p : Nat) (a : Nat) (bs : List Byte) :
    (State.storeWrite s p a bs).journal = s.journal := by
  first | (simp [State.storeWrite, *])

@[simp] theorem State.storeWrite_intr (s : State) (p : Nat) (a : Nat) (bs : List Byte) :
    (State.storeWrite s p a bs).intr = s.intr := by
  first | (simp [State.storeWrite, *])

@[simp] theorem State.storeWrite_early (s : State) (p : Nat) (a : Nat) (bs : List Byte) :
    (State.storeWrite s p a bs).early = s.early := by
  first | (simp [State.storeWrite, *])

@[simp] theorem State.storeWrite_dailies (s : State) (p : Nat) (a : Nat) (bs : List Byte) :
    (State.storeWrite s p a bs).dailies = s.dailies := by
  first | (simp [State.storeWrite, *])

@[simp] theorem State.storeWrite_rst (s : State) (p : Nat) (a : Nat) (bs : List Byte) :
    (State.storeWrite s p a bs).rst = s.rst := by
  first | (simp [State.storeWrite, *])

@[simp] theorem State.storeWrite_sec (s : State) (p : Nat) (a : Nat) (bs : List Byte) :
    (State.storeWrite s p a bs).sec = s.sec := by
  first | (simp [State.storeWrite, *])

@[simp] theorem State.storeWrite_free (s : State) (p : Nat) (a : Nat) (bs : List Byte) :
    (State.storeWrite s p a bs).free = s.free := by
  first | (simp [State.storeWrite, *])

@[simp] theorem State.storeWrite_out (s : State) (p : Nat) (a : Nat) (bs : List Byte) :
    (State.storeWrite s p a bs).out = s.out := by
  first | (simp [State.storeWrite, *])

@[simp] theorem State.setCore_objs (s : State) (c : Nat) (k : CoreSt) :
    (State.setCore s c k).objs = s.objs := by
  first | (simp [State.setCore, *])

@[simp] theorem State.setCore_time (s : State) (c : Nat) (k : CoreSt) :
    (State.setCore s c k).time = s.time := by
  first | (simp [State.setCore, *])

@[simp] theorem State.setCore_take (s : State) (c : Nat) (k : CoreSt) :
    (State.setCore s c k).take = s.take := by
  first | (simp [State.setCore, *])

@[simp] theorem State.setCore_reels (s : State) (c : Nat) (k : CoreSt) :
    (State.setCore s c k).reels = s.reels := by
  first | (simp [State.setCore, *])

@[simp] theorem State.setCore_phys (s : State) (c : Nat) (k : CoreSt) :
    (State.setCore s c k).phys = s.phys := by
  first | (simp [State.setCore, *])

@[simp] theorem State.setCore_tiles (s : State) (c : Nat) (k : CoreSt) :
    (State.setCore s c k).tiles = s.tiles := by
  first | (simp [State.setCore, *])

@[simp] theorem State.setCore_mem (s : State) (c : Nat) (k : CoreSt) :
    (State.setCore s c k).mem = s.mem := by
  first | (simp [State.setCore, *])

@[simp] theorem State.setCore_route (s : State) (c : Nat) (k : CoreSt) :
    (State.setCore s c k).route = s.route := by
  first | (simp [State.setCore, *])

@[simp] theorem State.setCore_steps (s : State) (c : Nat) (k : CoreSt) :
    (State.setCore s c k).steps = s.steps := by
  first | (simp [State.setCore, *])

@[simp] theorem State.setCore_fabric (s : State) (c : Nat) (k : CoreSt) :
    (State.setCore s c k).fabric = s.fabric := by
  first | (simp [State.setCore, *])

@[simp] theorem State.setCore_host (s : State) (c : Nat) (k : CoreSt) :
    (State.setCore s c k).host = s.host := by
  first | (simp [State.setCore, *])

@[simp] theorem State.setCore_mailbox (s : State) (c : Nat) (k : CoreSt) :
    (State.setCore s c k).mailbox = s.mailbox := by
  first | (simp [State.setCore, *])

@[simp] theorem State.setCore_server (s : State) (c : Nat) (k : CoreSt) :
    (State.setCore s c k).server = s.server := by
  first | (simp [State.setCore, *])

@[simp] theorem State.setCore_ecat (s : State) (c : Nat) (k : CoreSt) :
    (State.setCore s c k).ecat = s.ecat := by
  first | (simp [State.setCore, *])

@[simp] theorem State.setCore_journal (s : State) (c : Nat) (k : CoreSt) :
    (State.setCore s c k).journal = s.journal := by
  first | (simp [State.setCore, *])

@[simp] theorem State.setCore_early (s : State) (c : Nat) (k : CoreSt) :
    (State.setCore s c k).early = s.early := by
  first | (simp [State.setCore, *])

@[simp] theorem State.setCore_dailies (s : State) (c : Nat) (k : CoreSt) :
    (State.setCore s c k).dailies = s.dailies := by
  first | (simp [State.setCore, *])

@[simp] theorem State.setCore_rst (s : State) (c : Nat) (k : CoreSt) :
    (State.setCore s c k).rst = s.rst := by
  first | (simp [State.setCore, *])

@[simp] theorem State.setCore_sec (s : State) (c : Nat) (k : CoreSt) :
    (State.setCore s c k).sec = s.sec := by
  first | (simp [State.setCore, *])

@[simp] theorem State.setCore_free (s : State) (c : Nat) (k : CoreSt) :
    (State.setCore s c k).free = s.free := by
  first | (simp [State.setCore, *])

@[simp] theorem State.setCore_out (s : State) (c : Nat) (k : CoreSt) :
    (State.setCore s c k).out = s.out := by
  first | (simp [State.setCore, *])

end Sys2Proof.Machine
end

