-- ==== Sys2Proof/Laws/Event.lean ====
section
/-!
SUPPORT. What raising an interrupt source, logging an event, a fault and a failure leave alone.
-/

namespace Sys2Proof.Machine

open Sys2Proof

@[simp] theorem foldl_objs {β : Type} (g : State → β → State) (l : List β) (s : State) (h : ∀ t b, (g t b).objs = t.objs) :
    (l.foldl g s).objs = s.objs := by
  induction l generalizing s with
  | nil => rfl
  | cons a l ih => rw [List.foldl_cons, ih, h]

@[simp] theorem foldl_time {β : Type} (g : State → β → State) (l : List β) (s : State) (h : ∀ t b, (g t b).time = t.time) :
    (l.foldl g s).time = s.time := by
  induction l generalizing s with
  | nil => rfl
  | cons a l ih => rw [List.foldl_cons, ih, h]

@[simp] theorem foldl_take {β : Type} (g : State → β → State) (l : List β) (s : State) (h : ∀ t b, (g t b).take = t.take) :
    (l.foldl g s).take = s.take := by
  induction l generalizing s with
  | nil => rfl
  | cons a l ih => rw [List.foldl_cons, ih, h]

@[simp] theorem foldl_reels {β : Type} (g : State → β → State) (l : List β) (s : State) (h : ∀ t b, (g t b).reels = t.reels) :
    (l.foldl g s).reels = s.reels := by
  induction l generalizing s with
  | nil => rfl
  | cons a l ih => rw [List.foldl_cons, ih, h]

@[simp] theorem foldl_phys {β : Type} (g : State → β → State) (l : List β) (s : State) (h : ∀ t b, (g t b).phys = t.phys) :
    (l.foldl g s).phys = s.phys := by
  induction l generalizing s with
  | nil => rfl
  | cons a l ih => rw [List.foldl_cons, ih, h]

@[simp] theorem foldl_tiles {β : Type} (g : State → β → State) (l : List β) (s : State) (h : ∀ t b, (g t b).tiles = t.tiles) :
    (l.foldl g s).tiles = s.tiles := by
  induction l generalizing s with
  | nil => rfl
  | cons a l ih => rw [List.foldl_cons, ih, h]

@[simp] theorem foldl_mem {β : Type} (g : State → β → State) (l : List β) (s : State) (h : ∀ t b, (g t b).mem = t.mem) :
    (l.foldl g s).mem = s.mem := by
  induction l generalizing s with
  | nil => rfl
  | cons a l ih => rw [List.foldl_cons, ih, h]

@[simp] theorem foldl_route {β : Type} (g : State → β → State) (l : List β) (s : State) (h : ∀ t b, (g t b).route = t.route) :
    (l.foldl g s).route = s.route := by
  induction l generalizing s with
  | nil => rfl
  | cons a l ih => rw [List.foldl_cons, ih, h]

@[simp] theorem foldl_steps {β : Type} (g : State → β → State) (l : List β) (s : State) (h : ∀ t b, (g t b).steps = t.steps) :
    (l.foldl g s).steps = s.steps := by
  induction l generalizing s with
  | nil => rfl
  | cons a l ih => rw [List.foldl_cons, ih, h]

@[simp] theorem foldl_fabric {β : Type} (g : State → β → State) (l : List β) (s : State) (h : ∀ t b, (g t b).fabric = t.fabric) :
    (l.foldl g s).fabric = s.fabric := by
  induction l generalizing s with
  | nil => rfl
  | cons a l ih => rw [List.foldl_cons, ih, h]

@[simp] theorem foldl_host {β : Type} (g : State → β → State) (l : List β) (s : State) (h : ∀ t b, (g t b).host = t.host) :
    (l.foldl g s).host = s.host := by
  induction l generalizing s with
  | nil => rfl
  | cons a l ih => rw [List.foldl_cons, ih, h]

@[simp] theorem foldl_mailbox {β : Type} (g : State → β → State) (l : List β) (s : State) (h : ∀ t b, (g t b).mailbox = t.mailbox) :
    (l.foldl g s).mailbox = s.mailbox := by
  induction l generalizing s with
  | nil => rfl
  | cons a l ih => rw [List.foldl_cons, ih, h]

@[simp] theorem foldl_server {β : Type} (g : State → β → State) (l : List β) (s : State) (h : ∀ t b, (g t b).server = t.server) :
    (l.foldl g s).server = s.server := by
  induction l generalizing s with
  | nil => rfl
  | cons a l ih => rw [List.foldl_cons, ih, h]

@[simp] theorem foldl_ecat {β : Type} (g : State → β → State) (l : List β) (s : State) (h : ∀ t b, (g t b).ecat = t.ecat) :
    (l.foldl g s).ecat = s.ecat := by
  induction l generalizing s with
  | nil => rfl
  | cons a l ih => rw [List.foldl_cons, ih, h]

@[simp] theorem foldl_journal {β : Type} (g : State → β → State) (l : List β) (s : State) (h : ∀ t b, (g t b).journal = t.journal) :
    (l.foldl g s).journal = s.journal := by
  induction l generalizing s with
  | nil => rfl
  | cons a l ih => rw [List.foldl_cons, ih, h]

@[simp] theorem foldl_intr {β : Type} (g : State → β → State) (l : List β) (s : State) (h : ∀ t b, (g t b).intr = t.intr) :
    (l.foldl g s).intr = s.intr := by
  induction l generalizing s with
  | nil => rfl
  | cons a l ih => rw [List.foldl_cons, ih, h]

@[simp] theorem foldl_early {β : Type} (g : State → β → State) (l : List β) (s : State) (h : ∀ t b, (g t b).early = t.early) :
    (l.foldl g s).early = s.early := by
  induction l generalizing s with
  | nil => rfl
  | cons a l ih => rw [List.foldl_cons, ih, h]

@[simp] theorem foldl_dailies {β : Type} (g : State → β → State) (l : List β) (s : State) (h : ∀ t b, (g t b).dailies = t.dailies) :
    (l.foldl g s).dailies = s.dailies := by
  induction l generalizing s with
  | nil => rfl
  | cons a l ih => rw [List.foldl_cons, ih, h]

@[simp] theorem foldl_rst {β : Type} (g : State → β → State) (l : List β) (s : State) (h : ∀ t b, (g t b).rst = t.rst) :
    (l.foldl g s).rst = s.rst := by
  induction l generalizing s with
  | nil => rfl
  | cons a l ih => rw [List.foldl_cons, ih, h]

@[simp] theorem foldl_sec {β : Type} (g : State → β → State) (l : List β) (s : State) (h : ∀ t b, (g t b).sec = t.sec) :
    (l.foldl g s).sec = s.sec := by
  induction l generalizing s with
  | nil => rfl
  | cons a l ih => rw [List.foldl_cons, ih, h]

@[simp] theorem foldl_free {β : Type} (g : State → β → State) (l : List β) (s : State) (h : ∀ t b, (g t b).free = t.free) :
    (l.foldl g s).free = s.free := by
  induction l generalizing s with
  | nil => rfl
  | cons a l ih => rw [List.foldl_cons, ih, h]

@[simp] theorem foldl_out {β : Type} (g : State → β → State) (l : List β) (s : State) (h : ∀ t b, (g t b).out = t.out) :
    (l.foldl g s).out = s.out := by
  induction l generalizing s with
  | nil => rfl
  | cons a l ih => rw [List.foldl_cons, ih, h]

@[simp] theorem State.setPending_time (s : State) (src : Nat) :
    (State.setPending s src).time = s.time := by
  first | (simp [State.setPending, *])

@[simp] theorem State.setPending_take (s : State) (src : Nat) :
    (State.setPending s src).take = s.take := by
  first | (simp [State.setPending, *])

@[simp] theorem State.setPending_reels (s : State) (src : Nat) :
    (State.setPending s src).reels = s.reels := by
  first | (simp [State.setPending, *])

@[simp] theorem State.setPending_phys (s : State) (src : Nat) :
    (State.setPending s src).phys = s.phys := by
  first | (simp [State.setPending, *])

@[simp] theorem State.setPending_tiles (s : State) (src : Nat) :
    (State.setPending s src).tiles = s.tiles := by
  first | (simp [State.setPending, *])

@[simp] theorem State.setPending_mem (s : State) (src : Nat) :
    (State.setPending s src).mem = s.mem := by
  first | (simp [State.setPending, *])

@[simp] theorem State.setPending_route (s : State) (src : Nat) :
    (State.setPending s src).route = s.route := by
  first | (simp [State.setPending, *])

@[simp] theorem State.setPending_steps (s : State) (src : Nat) :
    (State.setPending s src).steps = s.steps := by
  first | (simp [State.setPending, *])

@[simp] theorem State.setPending_fabric (s : State) (src : Nat) :
    (State.setPending s src).fabric = s.fabric := by
  first | (simp [State.setPending, *])

@[simp] theorem State.setPending_host (s : State) (src : Nat) :
    (State.setPending s src).host = s.host := by
  first | (simp [State.setPending, *])

@[simp] theorem State.setPending_mailbox (s : State) (src : Nat) :
    (State.setPending s src).mailbox = s.mailbox := by
  first | (simp [State.setPending, *])

@[simp] theorem State.setPending_server (s : State) (src : Nat) :
    (State.setPending s src).server = s.server := by
  first | (simp [State.setPending, *])

@[simp] theorem State.setPending_ecat (s : State) (src : Nat) :
    (State.setPending s src).ecat = s.ecat := by
  first | (simp [State.setPending, *])

@[simp] theorem State.setPending_journal (s : State) (src : Nat) :
    (State.setPending s src).journal = s.journal := by
  first | (simp [State.setPending, *])

@[simp] theorem State.setPending_early (s : State) (src : Nat) :
    (State.setPending s src).early = s.early := by
  first | (simp [State.setPending, *])

@[simp] theorem State.setPending_dailies (s : State) (src : Nat) :
    (State.setPending s src).dailies = s.dailies := by
  first | (simp [State.setPending, *])

@[simp] theorem State.setPending_rst (s : State) (src : Nat) :
    (State.setPending s src).rst = s.rst := by
  first | (simp [State.setPending, *])

@[simp] theorem State.setPending_sec (s : State) (src : Nat) :
    (State.setPending s src).sec = s.sec := by
  first | (simp [State.setPending, *])

@[simp] theorem State.setPending_free (s : State) (src : Nat) :
    (State.setPending s src).free = s.free := by
  first | (simp [State.setPending, *])

@[simp] theorem State.setPending_out (s : State) (src : Nat) :
    (State.setPending s src).out = s.out := by
  first | (simp [State.setPending, *])

@[simp] theorem State.wakeBlock_objs (s : State) (b : Block) :
    (State.wakeBlock s b).objs = s.objs := by
  unfold State.wakeBlock; split <;> rfl

@[simp] theorem State.wakeBlock_time (s : State) (b : Block) :
    (State.wakeBlock s b).time = s.time := by
  unfold State.wakeBlock; split <;> rfl

@[simp] theorem State.wakeBlock_take (s : State) (b : Block) :
    (State.wakeBlock s b).take = s.take := by
  unfold State.wakeBlock; split <;> rfl

@[simp] theorem State.wakeBlock_reels (s : State) (b : Block) :
    (State.wakeBlock s b).reels = s.reels := by
  unfold State.wakeBlock; split <;> rfl

@[simp] theorem State.wakeBlock_phys (s : State) (b : Block) :
    (State.wakeBlock s b).phys = s.phys := by
  unfold State.wakeBlock; split <;> rfl

@[simp] theorem State.wakeBlock_tiles (s : State) (b : Block) :
    (State.wakeBlock s b).tiles = s.tiles := by
  unfold State.wakeBlock; split <;> rfl

@[simp] theorem State.wakeBlock_mem (s : State) (b : Block) :
    (State.wakeBlock s b).mem = s.mem := by
  unfold State.wakeBlock; split <;> rfl

@[simp] theorem State.wakeBlock_route (s : State) (b : Block) :
    (State.wakeBlock s b).route = s.route := by
  unfold State.wakeBlock; split <;> rfl

@[simp] theorem State.wakeBlock_steps (s : State) (b : Block) :
    (State.wakeBlock s b).steps = s.steps := by
  unfold State.wakeBlock; split <;> rfl

@[simp] theorem State.wakeBlock_fabric (s : State) (b : Block) :
    (State.wakeBlock s b).fabric = s.fabric := by
  unfold State.wakeBlock; split <;> rfl

@[simp] theorem State.wakeBlock_host (s : State) (b : Block) :
    (State.wakeBlock s b).host = s.host := by
  unfold State.wakeBlock; split <;> rfl

@[simp] theorem State.wakeBlock_mailbox (s : State) (b : Block) :
    (State.wakeBlock s b).mailbox = s.mailbox := by
  unfold State.wakeBlock; split <;> rfl

@[simp] theorem State.wakeBlock_server (s : State) (b : Block) :
    (State.wakeBlock s b).server = s.server := by
  unfold State.wakeBlock; split <;> rfl

@[simp] theorem State.wakeBlock_ecat (s : State) (b : Block) :
    (State.wakeBlock s b).ecat = s.ecat := by
  unfold State.wakeBlock; split <;> rfl

@[simp] theorem State.wakeBlock_journal (s : State) (b : Block) :
    (State.wakeBlock s b).journal = s.journal := by
  unfold State.wakeBlock; split <;> rfl

@[simp] theorem State.wakeBlock_intr (s : State) (b : Block) :
    (State.wakeBlock s b).intr = s.intr := by
  unfold State.wakeBlock; split <;> rfl

@[simp] theorem State.wakeBlock_early (s : State) (b : Block) :
    (State.wakeBlock s b).early = s.early := by
  unfold State.wakeBlock; split <;> rfl

@[simp] theorem State.wakeBlock_dailies (s : State) (b : Block) :
    (State.wakeBlock s b).dailies = s.dailies := by
  unfold State.wakeBlock; split <;> rfl

@[simp] theorem State.wakeBlock_sec (s : State) (b : Block) :
    (State.wakeBlock s b).sec = s.sec := by
  unfold State.wakeBlock; split <;> rfl

@[simp] theorem State.wakeBlock_free (s : State) (b : Block) :
    (State.wakeBlock s b).free = s.free := by
  unfold State.wakeBlock; split <;> rfl

@[simp] theorem State.wakeBlock_out (s : State) (b : Block) :
    (State.wakeBlock s b).out = s.out := by
  unfold State.wakeBlock; split <;> rfl

@[simp] theorem State.interruptCore_objs (s : State) (c : Nat) :
    (State.interruptCore s c).objs = s.objs := by
  unfold State.interruptCore; simp only []; (repeat' split) <;> simp [*]

@[simp] theorem State.interruptCore_time (s : State) (c : Nat) :
    (State.interruptCore s c).time = s.time := by
  unfold State.interruptCore; simp only []; (repeat' split) <;> simp [*]

@[simp] theorem State.interruptCore_take (s : State) (c : Nat) :
    (State.interruptCore s c).take = s.take := by
  unfold State.interruptCore; simp only []; (repeat' split) <;> simp [*]

@[simp] theorem State.interruptCore_reels (s : State) (c : Nat) :
    (State.interruptCore s c).reels = s.reels := by
  unfold State.interruptCore; simp only []; (repeat' split) <;> simp [*]

@[simp] theorem State.interruptCore_phys (s : State) (c : Nat) :
    (State.interruptCore s c).phys = s.phys := by
  unfold State.interruptCore; simp only []; (repeat' split) <;> simp [*]

@[simp] theorem State.interruptCore_tiles (s : State) (c : Nat) :
    (State.interruptCore s c).tiles = s.tiles := by
  unfold State.interruptCore; simp only []; (repeat' split) <;> simp [*]

@[simp] theorem State.interruptCore_mem (s : State) (c : Nat) :
    (State.interruptCore s c).mem = s.mem := by
  unfold State.interruptCore; simp only []; (repeat' split) <;> simp [*]

@[simp] theorem State.interruptCore_route (s : State) (c : Nat) :
    (State.interruptCore s c).route = s.route := by
  unfold State.interruptCore; simp only []; (repeat' split) <;> simp [*]

@[simp] theorem State.interruptCore_steps (s : State) (c : Nat) :
    (State.interruptCore s c).steps = s.steps := by
  unfold State.interruptCore; simp only []; (repeat' split) <;> simp [*]

@[simp] theorem State.interruptCore_fabric (s : State) (c : Nat) :
    (State.interruptCore s c).fabric = s.fabric := by
  unfold State.interruptCore; simp only []; (repeat' split) <;> simp [*]

@[simp] theorem State.interruptCore_host (s : State) (c : Nat) :
    (State.interruptCore s c).host = s.host := by
  unfold State.interruptCore; simp only []; (repeat' split) <;> simp [*]

@[simp] theorem State.interruptCore_mailbox (s : State) (c : Nat) :
    (State.interruptCore s c).mailbox = s.mailbox := by
  unfold State.interruptCore; simp only []; (repeat' split) <;> simp [*]

@[simp] theorem State.interruptCore_server (s : State) (c : Nat) :
    (State.interruptCore s c).server = s.server := by
  unfold State.interruptCore; simp only []; (repeat' split) <;> simp [*]

@[simp] theorem State.interruptCore_ecat (s : State) (c : Nat) :
    (State.interruptCore s c).ecat = s.ecat := by
  unfold State.interruptCore; simp only []; (repeat' split) <;> simp [*]

@[simp] theorem State.interruptCore_journal (s : State) (c : Nat) :
    (State.interruptCore s c).journal = s.journal := by
  unfold State.interruptCore; simp only []; (repeat' split) <;> simp [*]

@[simp] theorem State.interruptCore_early (s : State) (c : Nat) :
    (State.interruptCore s c).early = s.early := by
  unfold State.interruptCore; simp only []; (repeat' split) <;> simp [*]

@[simp] theorem State.interruptCore_dailies (s : State) (c : Nat) :
    (State.interruptCore s c).dailies = s.dailies := by
  unfold State.interruptCore; simp only []; (repeat' split) <;> simp [*]

@[simp] theorem State.interruptCore_sec (s : State) (c : Nat) :
    (State.interruptCore s c).sec = s.sec := by
  unfold State.interruptCore; simp only []; (repeat' split) <;> simp [*]

@[simp] theorem State.interruptCore_free (s : State) (c : Nat) :
    (State.interruptCore s c).free = s.free := by
  unfold State.interruptCore; simp only []; (repeat' split) <;> simp [*]

@[simp] theorem State.interruptCore_out (s : State) (c : Nat) :
    (State.interruptCore s c).out = s.out := by
  unfold State.interruptCore; simp only []; (repeat' split) <;> simp [*]

@[simp] theorem State.interruptCores_objs (s : State) :
    (State.interruptCores s).objs = s.objs := by
  first | (simp [State.interruptCores, *])

@[simp] theorem State.interruptCores_time (s : State) :
    (State.interruptCores s).time = s.time := by
  first | (simp [State.interruptCores, *])

@[simp] theorem State.interruptCores_take (s : State) :
    (State.interruptCores s).take = s.take := by
  first | (simp [State.interruptCores, *])

@[simp] theorem State.interruptCores_reels (s : State) :
    (State.interruptCores s).reels = s.reels := by
  first | (simp [State.interruptCores, *])

@[simp] theorem State.interruptCores_phys (s : State) :
    (State.interruptCores s).phys = s.phys := by
  first | (simp [State.interruptCores, *])

@[simp] theorem State.interruptCores_tiles (s : State) :
    (State.interruptCores s).tiles = s.tiles := by
  first | (simp [State.interruptCores, *])

@[simp] theorem State.interruptCores_mem (s : State) :
    (State.interruptCores s).mem = s.mem := by
  first | (simp [State.interruptCores, *])

@[simp] theorem State.interruptCores_route (s : State) :
    (State.interruptCores s).route = s.route := by
  first | (simp [State.interruptCores, *])

@[simp] theorem State.interruptCores_steps (s : State) :
    (State.interruptCores s).steps = s.steps := by
  first | (simp [State.interruptCores, *])

@[simp] theorem State.interruptCores_fabric (s : State) :
    (State.interruptCores s).fabric = s.fabric := by
  first | (simp [State.interruptCores, *])

@[simp] theorem State.interruptCores_host (s : State) :
    (State.interruptCores s).host = s.host := by
  first | (simp [State.interruptCores, *])

@[simp] theorem State.interruptCores_mailbox (s : State) :
    (State.interruptCores s).mailbox = s.mailbox := by
  first | (simp [State.interruptCores, *])

@[simp] theorem State.interruptCores_server (s : State) :
    (State.interruptCores s).server = s.server := by
  first | (simp [State.interruptCores, *])

@[simp] theorem State.interruptCores_ecat (s : State) :
    (State.interruptCores s).ecat = s.ecat := by
  first | (simp [State.interruptCores, *])

@[simp] theorem State.interruptCores_journal (s : State) :
    (State.interruptCores s).journal = s.journal := by
  first | (simp [State.interruptCores, *])

@[simp] theorem State.interruptCores_early (s : State) :
    (State.interruptCores s).early = s.early := by
  first | (simp [State.interruptCores, *])

@[simp] theorem State.interruptCores_dailies (s : State) :
    (State.interruptCores s).dailies = s.dailies := by
  first | (simp [State.interruptCores, *])

@[simp] theorem State.interruptCores_sec (s : State) :
    (State.interruptCores s).sec = s.sec := by
  first | (simp [State.interruptCores, *])

@[simp] theorem State.interruptCores_free (s : State) :
    (State.interruptCores s).free = s.free := by
  first | (simp [State.interruptCores, *])

@[simp] theorem State.interruptCores_out (s : State) :
    (State.interruptCores s).out = s.out := by
  first | (simp [State.interruptCores, *])

@[simp] theorem State.sendVector_objs (s : State) (v : Nat) :
    (State.sendVector s v).objs = s.objs := by
  first | (unfold State.sendVector; simp only []; (repeat' split) <;> simp [*])

@[simp] theorem State.sendVector_time (s : State) (v : Nat) :
    (State.sendVector s v).time = s.time := by
  first | (unfold State.sendVector; simp only []; (repeat' split) <;> simp [*])

@[simp] theorem State.sendVector_take (s : State) (v : Nat) :
    (State.sendVector s v).take = s.take := by
  first | (unfold State.sendVector; simp only []; (repeat' split) <;> simp [*])

@[simp] theorem State.sendVector_reels (s : State) (v : Nat) :
    (State.sendVector s v).reels = s.reels := by
  first | (unfold State.sendVector; simp only []; (repeat' split) <;> simp [*])

@[simp] theorem State.sendVector_phys (s : State) (v : Nat) :
    (State.sendVector s v).phys = s.phys := by
  first | (unfold State.sendVector; simp only []; (repeat' split) <;> simp [*])

@[simp] theorem State.sendVector_tiles (s : State) (v : Nat) :
    (State.sendVector s v).tiles = s.tiles := by
  first | (unfold State.sendVector; simp only []; (repeat' split) <;> simp [*])

@[simp] theorem State.sendVector_mem (s : State) (v : Nat) :
    (State.sendVector s v).mem = s.mem := by
  first | (unfold State.sendVector; simp only []; (repeat' split) <;> simp [*])

@[simp] theorem State.sendVector_route (s : State) (v : Nat) :
    (State.sendVector s v).route = s.route := by
  first | (unfold State.sendVector; simp only []; (repeat' split) <;> simp [*])

@[simp] theorem State.sendVector_steps (s : State) (v : Nat) :
    (State.sendVector s v).steps = s.steps := by
  first | (unfold State.sendVector; simp only []; (repeat' split) <;> simp [*])

@[simp] theorem State.sendVector_fabric (s : State) (v : Nat) :
    (State.sendVector s v).fabric = s.fabric := by
  first | (unfold State.sendVector; simp only []; (repeat' split) <;> simp [*])

@[simp] theorem State.sendVector_mailbox (s : State) (v : Nat) :
    (State.sendVector s v).mailbox = s.mailbox := by
  first | (unfold State.sendVector; simp only []; (repeat' split) <;> simp [*])

@[simp] theorem State.sendVector_server (s : State) (v : Nat) :
    (State.sendVector s v).server = s.server := by
  first | (unfold State.sendVector; simp only []; (repeat' split) <;> simp [*])

@[simp] theorem State.sendVector_ecat (s : State) (v : Nat) :
    (State.sendVector s v).ecat = s.ecat := by
  first | (unfold State.sendVector; simp only []; (repeat' split) <;> simp [*])

@[simp] theorem State.sendVector_journal (s : State) (v : Nat) :
    (State.sendVector s v).journal = s.journal := by
  first | (unfold State.sendVector; simp only []; (repeat' split) <;> simp [*])

@[simp] theorem State.sendVector_intr (s : State) (v : Nat) :
    (State.sendVector s v).intr = s.intr := by
  first | (unfold State.sendVector; simp only []; (repeat' split) <;> simp [*])

@[simp] theorem State.sendVector_early (s : State) (v : Nat) :
    (State.sendVector s v).early = s.early := by
  first | (unfold State.sendVector; simp only []; (repeat' split) <;> simp [*])

@[simp] theorem State.sendVector_dailies (s : State) (v : Nat) :
    (State.sendVector s v).dailies = s.dailies := by
  first | (unfold State.sendVector; simp only []; (repeat' split) <;> simp [*])

@[simp] theorem State.sendVector_rst (s : State) (v : Nat) :
    (State.sendVector s v).rst = s.rst := by
  first | (unfold State.sendVector; simp only []; (repeat' split) <;> simp [*])

@[simp] theorem State.sendVector_sec (s : State) (v : Nat) :
    (State.sendVector s v).sec = s.sec := by
  first | (unfold State.sendVector; simp only []; (repeat' split) <;> simp [*])

@[simp] theorem State.sendVector_free (s : State) (v : Nat) :
    (State.sendVector s v).free = s.free := by
  first | (unfold State.sendVector; simp only []; (repeat' split) <;> simp [*])

@[simp] theorem State.testRelease_time (s : State) (g : Nat) :
    (State.testRelease s g).time = s.time := by
  first | (unfold State.testRelease; simp only []; (repeat' split) <;> simp [*])

@[simp] theorem State.testRelease_take (s : State) (g : Nat) :
    (State.testRelease s g).take = s.take := by
  first | (unfold State.testRelease; simp only []; (repeat' split) <;> simp [*])

@[simp] theorem State.testRelease_reels (s : State) (g : Nat) :
    (State.testRelease s g).reels = s.reels := by
  first | (unfold State.testRelease; simp only []; (repeat' split) <;> simp [*])

@[simp] theorem State.testRelease_phys (s : State) (g : Nat) :
    (State.testRelease s g).phys = s.phys := by
  first | (unfold State.testRelease; simp only []; (repeat' split) <;> simp [*])

@[simp] theorem State.testRelease_tiles (s : State) (g : Nat) :
    (State.testRelease s g).tiles = s.tiles := by
  first | (unfold State.testRelease; simp only []; (repeat' split) <;> simp [*])

@[simp] theorem State.testRelease_mem (s : State) (g : Nat) :
    (State.testRelease s g).mem = s.mem := by
  first | (unfold State.testRelease; simp only []; (repeat' split) <;> simp [*])

@[simp] theorem State.testRelease_route (s : State) (g : Nat) :
    (State.testRelease s g).route = s.route := by
  first | (unfold State.testRelease; simp only []; (repeat' split) <;> simp [*])

@[simp] theorem State.testRelease_steps (s : State) (g : Nat) :
    (State.testRelease s g).steps = s.steps := by
  first | (unfold State.testRelease; simp only []; (repeat' split) <;> simp [*])

@[simp] theorem State.testRelease_fabric (s : State) (g : Nat) :
    (State.testRelease s g).fabric = s.fabric := by
  first | (unfold State.testRelease; simp only []; (repeat' split) <;> simp [*])

@[simp] theorem State.testRelease_mailbox (s : State) (g : Nat) :
    (State.testRelease s g).mailbox = s.mailbox := by
  first | (unfold State.testRelease; simp only []; (repeat' split) <;> simp [*])

@[simp] theorem State.testRelease_server (s : State) (g : Nat) :
    (State.testRelease s g).server = s.server := by
  first | (unfold State.testRelease; simp only []; (repeat' split) <;> simp [*])

@[simp] theorem State.testRelease_ecat (s : State) (g : Nat) :
    (State.testRelease s g).ecat = s.ecat := by
  first | (unfold State.testRelease; simp only []; (repeat' split) <;> simp [*])

@[simp] theorem State.testRelease_journal (s : State) (g : Nat) :
    (State.testRelease s g).journal = s.journal := by
  first | (unfold State.testRelease; simp only []; (repeat' split) <;> simp [*])

@[simp] theorem State.testRelease_early (s : State) (g : Nat) :
    (State.testRelease s g).early = s.early := by
  first | (unfold State.testRelease; simp only []; (repeat' split) <;> simp [*])

@[simp] theorem State.testRelease_dailies (s : State) (g : Nat) :
    (State.testRelease s g).dailies = s.dailies := by
  first | (unfold State.testRelease; simp only []; (repeat' split) <;> simp [*])

@[simp] theorem State.testRelease_rst (s : State) (g : Nat) :
    (State.testRelease s g).rst = s.rst := by
  first | (unfold State.testRelease; simp only []; (repeat' split) <;> simp [*])

@[simp] theorem State.testRelease_sec (s : State) (g : Nat) :
    (State.testRelease s g).sec = s.sec := by
  first | (unfold State.testRelease; simp only []; (repeat' split) <;> simp [*])

@[simp] theorem State.testRelease_free (s : State) (g : Nat) :
    (State.testRelease s g).free = s.free := by
  first | (unfold State.testRelease; simp only []; (repeat' split) <;> simp [*])

@[simp] theorem State.raise_time (s : State) (src : Nat) :
    (State.raise s src).time = s.time := by
  first | (unfold State.raise; (repeat' split) <;> simp [*])

@[simp] theorem State.raise_take (s : State) (src : Nat) :
    (State.raise s src).take = s.take := by
  first | (unfold State.raise; (repeat' split) <;> simp [*])

@[simp] theorem State.raise_reels (s : State) (src : Nat) :
    (State.raise s src).reels = s.reels := by
  first | (unfold State.raise; (repeat' split) <;> simp [*])

@[simp] theorem State.raise_phys (s : State) (src : Nat) :
    (State.raise s src).phys = s.phys := by
  first | (unfold State.raise; (repeat' split) <;> simp [*])

@[simp] theorem State.raise_tiles (s : State) (src : Nat) :
    (State.raise s src).tiles = s.tiles := by
  first | (unfold State.raise; (repeat' split) <;> simp [*])

@[simp] theorem State.raise_mem (s : State) (src : Nat) :
    (State.raise s src).mem = s.mem := by
  first | (unfold State.raise; (repeat' split) <;> simp [*])

@[simp] theorem State.raise_route (s : State) (src : Nat) :
    (State.raise s src).route = s.route := by
  first | (unfold State.raise; (repeat' split) <;> simp [*])

@[simp] theorem State.raise_steps (s : State) (src : Nat) :
    (State.raise s src).steps = s.steps := by
  first | (unfold State.raise; (repeat' split) <;> simp [*])

@[simp] theorem State.raise_fabric (s : State) (src : Nat) :
    (State.raise s src).fabric = s.fabric := by
  first | (unfold State.raise; (repeat' split) <;> simp [*])

@[simp] theorem State.raise_mailbox (s : State) (src : Nat) :
    (State.raise s src).mailbox = s.mailbox := by
  first | (unfold State.raise; (repeat' split) <;> simp [*])

@[simp] theorem State.raise_server (s : State) (src : Nat) :
    (State.raise s src).server = s.server := by
  first | (unfold State.raise; (repeat' split) <;> simp [*])

@[simp] theorem State.raise_ecat (s : State) (src : Nat) :
    (State.raise s src).ecat = s.ecat := by
  first | (unfold State.raise; (repeat' split) <;> simp [*])

@[simp] theorem State.raise_journal (s : State) (src : Nat) :
    (State.raise s src).journal = s.journal := by
  first | (unfold State.raise; (repeat' split) <;> simp [*])

@[simp] theorem State.raise_early (s : State) (src : Nat) :
    (State.raise s src).early = s.early := by
  first | (unfold State.raise; (repeat' split) <;> simp [*])

@[simp] theorem State.raise_dailies (s : State) (src : Nat) :
    (State.raise s src).dailies = s.dailies := by
  first | (unfold State.raise; (repeat' split) <;> simp [*])

@[simp] theorem State.raise_sec (s : State) (src : Nat) :
    (State.raise s src).sec = s.sec := by
  first | (unfold State.raise; (repeat' split) <;> simp [*])

@[simp] theorem State.raise_free (s : State) (src : Nat) :
    (State.raise s src).free = s.free := by
  first | (unfold State.raise; (repeat' split) <;> simp [*])

@[simp] theorem State.newEntry_time (s : State) (code : Nat) (unit : Nat) (status : Nat) (detail : Nat) (ts : Nat) (take : Nat) (repeats : Nat) :
    (State.newEntry s code unit status detail ts take repeats).time = s.time := by
  first | (simp only [State.newEntry, apply_ite State.time, State.raise_time, State.incObj_time, State.addObj_time, State.setObj_time, ite_self])

@[simp] theorem State.newEntry_take (s : State) (code : Nat) (unit : Nat) (status : Nat) (detail : Nat) (ts : Nat) (take : Nat) (repeats : Nat) :
    (State.newEntry s code unit status detail ts take repeats).take = s.take := by
  first | (simp only [State.newEntry, apply_ite State.take, State.raise_take, State.incObj_take, State.addObj_take, State.setObj_take, ite_self])

@[simp] theorem State.newEntry_reels (s : State) (code : Nat) (unit : Nat) (status : Nat) (detail : Nat) (ts : Nat) (take : Nat) (repeats : Nat) :
    (State.newEntry s code unit status detail ts take repeats).reels = s.reels := by
  first | (simp only [State.newEntry, apply_ite State.reels, State.raise_reels, State.incObj_reels, State.addObj_reels, State.setObj_reels, ite_self])

@[simp] theorem State.newEntry_phys (s : State) (code : Nat) (unit : Nat) (status : Nat) (detail : Nat) (ts : Nat) (take : Nat) (repeats : Nat) :
    (State.newEntry s code unit status detail ts take repeats).phys = s.phys := by
  first | (simp only [State.newEntry, apply_ite State.phys, State.raise_phys, State.incObj_phys, State.addObj_phys, State.setObj_phys, ite_self])

@[simp] theorem State.newEntry_tiles (s : State) (code : Nat) (unit : Nat) (status : Nat) (detail : Nat) (ts : Nat) (take : Nat) (repeats : Nat) :
    (State.newEntry s code unit status detail ts take repeats).tiles = s.tiles := by
  first | (simp only [State.newEntry, apply_ite State.tiles, State.raise_tiles, State.incObj_tiles, State.addObj_tiles, State.setObj_tiles, ite_self])

@[simp] theorem State.newEntry_mem (s : State) (code : Nat) (unit : Nat) (status : Nat) (detail : Nat) (ts : Nat) (take : Nat) (repeats : Nat) :
    (State.newEntry s code unit status detail ts take repeats).mem = s.mem := by
  first | (simp only [State.newEntry, apply_ite State.mem, State.raise_mem, State.incObj_mem, State.addObj_mem, State.setObj_mem, ite_self])

@[simp] theorem State.newEntry_route (s : State) (code : Nat) (unit : Nat) (status : Nat) (detail : Nat) (ts : Nat) (take : Nat) (repeats : Nat) :
    (State.newEntry s code unit status detail ts take repeats).route = s.route := by
  first | (simp only [State.newEntry, apply_ite State.route, State.raise_route, State.incObj_route, State.addObj_route, State.setObj_route, ite_self])

@[simp] theorem State.newEntry_steps (s : State) (code : Nat) (unit : Nat) (status : Nat) (detail : Nat) (ts : Nat) (take : Nat) (repeats : Nat) :
    (State.newEntry s code unit status detail ts take repeats).steps = s.steps := by
  first | (simp only [State.newEntry, apply_ite State.steps, State.raise_steps, State.incObj_steps, State.addObj_steps, State.setObj_steps, ite_self])

@[simp] theorem State.newEntry_fabric (s : State) (code : Nat) (unit : Nat) (status : Nat) (detail : Nat) (ts : Nat) (take : Nat) (repeats : Nat) :
    (State.newEntry s code unit status detail ts take repeats).fabric = s.fabric := by
  first | (simp only [State.newEntry, apply_ite State.fabric, State.raise_fabric, State.incObj_fabric, State.addObj_fabric, State.setObj_fabric, ite_self])

@[simp] theorem State.newEntry_mailbox (s : State) (code : Nat) (unit : Nat) (status : Nat) (detail : Nat) (ts : Nat) (take : Nat) (repeats : Nat) :
    (State.newEntry s code unit status detail ts take repeats).mailbox = s.mailbox := by
  first | (simp only [State.newEntry, apply_ite State.mailbox, State.raise_mailbox, State.incObj_mailbox, State.addObj_mailbox, State.setObj_mailbox, ite_self])

@[simp] theorem State.newEntry_server (s : State) (code : Nat) (unit : Nat) (status : Nat) (detail : Nat) (ts : Nat) (take : Nat) (repeats : Nat) :
    (State.newEntry s code unit status detail ts take repeats).server = s.server := by
  first | (simp only [State.newEntry, apply_ite State.server, State.raise_server, State.incObj_server, State.addObj_server, State.setObj_server, ite_self])

@[simp] theorem State.newEntry_ecat (s : State) (code : Nat) (unit : Nat) (status : Nat) (detail : Nat) (ts : Nat) (take : Nat) (repeats : Nat) :
    (State.newEntry s code unit status detail ts take repeats).ecat = s.ecat := by
  first | (simp only [State.newEntry, apply_ite State.ecat, State.raise_ecat, State.incObj_ecat, State.addObj_ecat, State.setObj_ecat, ite_self])

@[simp] theorem State.newEntry_journal (s : State) (code : Nat) (unit : Nat) (status : Nat) (detail : Nat) (ts : Nat) (take : Nat) (repeats : Nat) :
    (State.newEntry s code unit status detail ts take repeats).journal = s.journal := by
  first | (simp only [State.newEntry, apply_ite State.journal, State.raise_journal, State.incObj_journal, State.addObj_journal, State.setObj_journal, ite_self])

@[simp] theorem State.newEntry_early (s : State) (code : Nat) (unit : Nat) (status : Nat) (detail : Nat) (ts : Nat) (take : Nat) (repeats : Nat) :
    (State.newEntry s code unit status detail ts take repeats).early = s.early := by
  first | (simp only [State.newEntry, apply_ite State.early, State.raise_early, State.incObj_early, State.addObj_early, State.setObj_early, ite_self])

@[simp] theorem State.newEntry_dailies (s : State) (code : Nat) (unit : Nat) (status : Nat) (detail : Nat) (ts : Nat) (take : Nat) (repeats : Nat) :
    (State.newEntry s code unit status detail ts take repeats).dailies = s.dailies := by
  first | (simp only [State.newEntry, apply_ite State.dailies, State.raise_dailies, State.incObj_dailies, State.addObj_dailies, State.setObj_dailies, ite_self])

@[simp] theorem State.newEntry_sec (s : State) (code : Nat) (unit : Nat) (status : Nat) (detail : Nat) (ts : Nat) (take : Nat) (repeats : Nat) :
    (State.newEntry s code unit status detail ts take repeats).sec = s.sec := by
  first | (simp only [State.newEntry, apply_ite State.sec, State.raise_sec, State.incObj_sec, State.addObj_sec, State.setObj_sec, ite_self])

@[simp] theorem State.newEntry_free (s : State) (code : Nat) (unit : Nat) (status : Nat) (detail : Nat) (ts : Nat) (take : Nat) (repeats : Nat) :
    (State.newEntry s code unit status detail ts take repeats).free = s.free := by
  first | (simp only [State.newEntry, apply_ite State.free, State.raise_free, State.incObj_free, State.addObj_free, State.setObj_free, ite_self])

@[simp] theorem State.earlyEvent_objs (s : State) (code : Nat) (unit : Nat) (status : Nat) (detail : Nat) :
    (State.earlyEvent s code unit status detail).objs = s.objs := by
  first | (unfold State.earlyEvent; (repeat' split) <;> simp [*])

@[simp] theorem State.earlyEvent_time (s : State) (code : Nat) (unit : Nat) (status : Nat) (detail : Nat) :
    (State.earlyEvent s code unit status detail).time = s.time := by
  first | (unfold State.earlyEvent; (repeat' split) <;> simp [*])

@[simp] theorem State.earlyEvent_take (s : State) (code : Nat) (unit : Nat) (status : Nat) (detail : Nat) :
    (State.earlyEvent s code unit status detail).take = s.take := by
  first | (unfold State.earlyEvent; (repeat' split) <;> simp [*])

@[simp] theorem State.earlyEvent_reels (s : State) (code : Nat) (unit : Nat) (status : Nat) (detail : Nat) :
    (State.earlyEvent s code unit status detail).reels = s.reels := by
  first | (unfold State.earlyEvent; (repeat' split) <;> simp [*])

@[simp] theorem State.earlyEvent_phys (s : State) (code : Nat) (unit : Nat) (status : Nat) (detail : Nat) :
    (State.earlyEvent s code unit status detail).phys = s.phys := by
  first | (unfold State.earlyEvent; (repeat' split) <;> simp [*])

@[simp] theorem State.earlyEvent_tiles (s : State) (code : Nat) (unit : Nat) (status : Nat) (detail : Nat) :
    (State.earlyEvent s code unit status detail).tiles = s.tiles := by
  first | (unfold State.earlyEvent; (repeat' split) <;> simp [*])

@[simp] theorem State.earlyEvent_mem (s : State) (code : Nat) (unit : Nat) (status : Nat) (detail : Nat) :
    (State.earlyEvent s code unit status detail).mem = s.mem := by
  first | (unfold State.earlyEvent; (repeat' split) <;> simp [*])

@[simp] theorem State.earlyEvent_route (s : State) (code : Nat) (unit : Nat) (status : Nat) (detail : Nat) :
    (State.earlyEvent s code unit status detail).route = s.route := by
  first | (unfold State.earlyEvent; (repeat' split) <;> simp [*])

@[simp] theorem State.earlyEvent_steps (s : State) (code : Nat) (unit : Nat) (status : Nat) (detail : Nat) :
    (State.earlyEvent s code unit status detail).steps = s.steps := by
  first | (unfold State.earlyEvent; (repeat' split) <;> simp [*])

@[simp] theorem State.earlyEvent_fabric (s : State) (code : Nat) (unit : Nat) (status : Nat) (detail : Nat) :
    (State.earlyEvent s code unit status detail).fabric = s.fabric := by
  first | (unfold State.earlyEvent; (repeat' split) <;> simp [*])

@[simp] theorem State.earlyEvent_host (s : State) (code : Nat) (unit : Nat) (status : Nat) (detail : Nat) :
    (State.earlyEvent s code unit status detail).host = s.host := by
  first | (unfold State.earlyEvent; (repeat' split) <;> simp [*])

@[simp] theorem State.earlyEvent_mailbox (s : State) (code : Nat) (unit : Nat) (status : Nat) (detail : Nat) :
    (State.earlyEvent s code unit status detail).mailbox = s.mailbox := by
  first | (unfold State.earlyEvent; (repeat' split) <;> simp [*])

@[simp] theorem State.earlyEvent_server (s : State) (code : Nat) (unit : Nat) (status : Nat) (detail : Nat) :
    (State.earlyEvent s code unit status detail).server = s.server := by
  first | (unfold State.earlyEvent; (repeat' split) <;> simp [*])

@[simp] theorem State.earlyEvent_ecat (s : State) (code : Nat) (unit : Nat) (status : Nat) (detail : Nat) :
    (State.earlyEvent s code unit status detail).ecat = s.ecat := by
  first | (unfold State.earlyEvent; (repeat' split) <;> simp [*])

@[simp] theorem State.earlyEvent_journal (s : State) (code : Nat) (unit : Nat) (status : Nat) (detail : Nat) :
    (State.earlyEvent s code unit status detail).journal = s.journal := by
  first | (unfold State.earlyEvent; (repeat' split) <;> simp [*])

@[simp] theorem State.earlyEvent_intr (s : State) (code : Nat) (unit : Nat) (status : Nat) (detail : Nat) :
    (State.earlyEvent s code unit status detail).intr = s.intr := by
  first | (unfold State.earlyEvent; (repeat' split) <;> simp [*])

@[simp] theorem State.earlyEvent_dailies (s : State) (code : Nat) (unit : Nat) (status : Nat) (detail : Nat) :
    (State.earlyEvent s code unit status detail).dailies = s.dailies := by
  first | (unfold State.earlyEvent; (repeat' split) <;> simp [*])

@[simp] theorem State.earlyEvent_rst (s : State) (code : Nat) (unit : Nat) (status : Nat) (detail : Nat) :
    (State.earlyEvent s code unit status detail).rst = s.rst := by
  first | (unfold State.earlyEvent; (repeat' split) <;> simp [*])

@[simp] theorem State.earlyEvent_sec (s : State) (code : Nat) (unit : Nat) (status : Nat) (detail : Nat) :
    (State.earlyEvent s code unit status detail).sec = s.sec := by
  first | (unfold State.earlyEvent; (repeat' split) <;> simp [*])

@[simp] theorem State.earlyEvent_free (s : State) (code : Nat) (unit : Nat) (status : Nat) (detail : Nat) :
    (State.earlyEvent s code unit status detail).free = s.free := by
  first | (unfold State.earlyEvent; (repeat' split) <;> simp [*])

@[simp] theorem State.earlyEvent_out (s : State) (code : Nat) (unit : Nat) (status : Nat) (detail : Nat) :
    (State.earlyEvent s code unit status detail).out = s.out := by
  first | (unfold State.earlyEvent; (repeat' split) <;> simp [*])

@[simp] theorem State.log_time (s : State) (code : Nat) (unit : Nat) (status : Status) (detail : Nat) :
    (State.log s code unit status detail).time = s.time := by
  first | (simp only [State.log, apply_ite State.time, State.earlyEvent_time, State.newEntry_time, State.setObj_time, ite_self])

@[simp] theorem State.log_take (s : State) (code : Nat) (unit : Nat) (status : Status) (detail : Nat) :
    (State.log s code unit status detail).take = s.take := by
  first | (simp only [State.log, apply_ite State.take, State.earlyEvent_take, State.newEntry_take, State.setObj_take, ite_self])

@[simp] theorem State.log_reels (s : State) (code : Nat) (unit : Nat) (status : Status) (detail : Nat) :
    (State.log s code unit status detail).reels = s.reels := by
  first | (simp only [State.log, apply_ite State.reels, State.earlyEvent_reels, State.newEntry_reels, State.setObj_reels, ite_self])

@[simp] theorem State.log_phys (s : State) (code : Nat) (unit : Nat) (status : Status) (detail : Nat) :
    (State.log s code unit status detail).phys = s.phys := by
  first | (simp only [State.log, apply_ite State.phys, State.earlyEvent_phys, State.newEntry_phys, State.setObj_phys, ite_self])

@[simp] theorem State.log_tiles (s : State) (code : Nat) (unit : Nat) (status : Status) (detail : Nat) :
    (State.log s code unit status detail).tiles = s.tiles := by
  first | (simp only [State.log, apply_ite State.tiles, State.earlyEvent_tiles, State.newEntry_tiles, State.setObj_tiles, ite_self])

@[simp] theorem State.log_mem (s : State) (code : Nat) (unit : Nat) (status : Status) (detail : Nat) :
    (State.log s code unit status detail).mem = s.mem := by
  first | (simp only [State.log, apply_ite State.mem, State.earlyEvent_mem, State.newEntry_mem, State.setObj_mem, ite_self])

@[simp] theorem State.log_route (s : State) (code : Nat) (unit : Nat) (status : Status) (detail : Nat) :
    (State.log s code unit status detail).route = s.route := by
  first | (simp only [State.log, apply_ite State.route, State.earlyEvent_route, State.newEntry_route, State.setObj_route, ite_self])

@[simp] theorem State.log_steps (s : State) (code : Nat) (unit : Nat) (status : Status) (detail : Nat) :
    (State.log s code unit status detail).steps = s.steps := by
  first | (simp only [State.log, apply_ite State.steps, State.earlyEvent_steps, State.newEntry_steps, State.setObj_steps, ite_self])

@[simp] theorem State.log_fabric (s : State) (code : Nat) (unit : Nat) (status : Status) (detail : Nat) :
    (State.log s code unit status detail).fabric = s.fabric := by
  first | (simp only [State.log, apply_ite State.fabric, State.earlyEvent_fabric, State.newEntry_fabric, State.setObj_fabric, ite_self])

@[simp] theorem State.log_mailbox (s : State) (code : Nat) (unit : Nat) (status : Status) (detail : Nat) :
    (State.log s code unit status detail).mailbox = s.mailbox := by
  first | (simp only [State.log, apply_ite State.mailbox, State.earlyEvent_mailbox, State.newEntry_mailbox, State.setObj_mailbox, ite_self])

@[simp] theorem State.log_server (s : State) (code : Nat) (unit : Nat) (status : Status) (detail : Nat) :
    (State.log s code unit status detail).server = s.server := by
  first | (simp only [State.log, apply_ite State.server, State.earlyEvent_server, State.newEntry_server, State.setObj_server, ite_self])

@[simp] theorem State.log_ecat (s : State) (code : Nat) (unit : Nat) (status : Status) (detail : Nat) :
    (State.log s code unit status detail).ecat = s.ecat := by
  first | (simp only [State.log, apply_ite State.ecat, State.earlyEvent_ecat, State.newEntry_ecat, State.setObj_ecat, ite_self])

@[simp] theorem State.log_journal (s : State) (code : Nat) (unit : Nat) (status : Status) (detail : Nat) :
    (State.log s code unit status detail).journal = s.journal := by
  first | (simp only [State.log, apply_ite State.journal, State.earlyEvent_journal, State.newEntry_journal, State.setObj_journal, ite_self])

@[simp] theorem State.log_dailies (s : State) (code : Nat) (unit : Nat) (status : Status) (detail : Nat) :
    (State.log s code unit status detail).dailies = s.dailies := by
  first | (simp only [State.log, apply_ite State.dailies, State.earlyEvent_dailies, State.newEntry_dailies, State.setObj_dailies, ite_self])

@[simp] theorem State.log_sec (s : State) (code : Nat) (unit : Nat) (status : Status) (detail : Nat) :
    (State.log s code unit status detail).sec = s.sec := by
  first | (simp only [State.log, apply_ite State.sec, State.earlyEvent_sec, State.newEntry_sec, State.setObj_sec, ite_self])

@[simp] theorem State.log_free (s : State) (code : Nat) (unit : Nat) (status : Status) (detail : Nat) :
    (State.log s code unit status detail).free = s.free := by
  first | (simp only [State.log, apply_ite State.free, State.earlyEvent_free, State.newEntry_free, State.setObj_free, ite_self])

@[simp] theorem State.event_time (s : State) (src : Nat) (unit : Nat) (status : Status) (detail : Nat) :
    (State.event s src unit status detail).time = s.time := by
  first | (unfold State.event; (repeat' split) <;> simp [*])

@[simp] theorem State.event_take (s : State) (src : Nat) (unit : Nat) (status : Status) (detail : Nat) :
    (State.event s src unit status detail).take = s.take := by
  first | (unfold State.event; (repeat' split) <;> simp [*])

@[simp] theorem State.event_reels (s : State) (src : Nat) (unit : Nat) (status : Status) (detail : Nat) :
    (State.event s src unit status detail).reels = s.reels := by
  first | (unfold State.event; (repeat' split) <;> simp [*])

@[simp] theorem State.event_phys (s : State) (src : Nat) (unit : Nat) (status : Status) (detail : Nat) :
    (State.event s src unit status detail).phys = s.phys := by
  first | (unfold State.event; (repeat' split) <;> simp [*])

@[simp] theorem State.event_tiles (s : State) (src : Nat) (unit : Nat) (status : Status) (detail : Nat) :
    (State.event s src unit status detail).tiles = s.tiles := by
  first | (unfold State.event; (repeat' split) <;> simp [*])

@[simp] theorem State.event_mem (s : State) (src : Nat) (unit : Nat) (status : Status) (detail : Nat) :
    (State.event s src unit status detail).mem = s.mem := by
  first | (unfold State.event; (repeat' split) <;> simp [*])

@[simp] theorem State.event_route (s : State) (src : Nat) (unit : Nat) (status : Status) (detail : Nat) :
    (State.event s src unit status detail).route = s.route := by
  first | (unfold State.event; (repeat' split) <;> simp [*])

@[simp] theorem State.event_steps (s : State) (src : Nat) (unit : Nat) (status : Status) (detail : Nat) :
    (State.event s src unit status detail).steps = s.steps := by
  first | (unfold State.event; (repeat' split) <;> simp [*])

@[simp] theorem State.event_fabric (s : State) (src : Nat) (unit : Nat) (status : Status) (detail : Nat) :
    (State.event s src unit status detail).fabric = s.fabric := by
  first | (unfold State.event; (repeat' split) <;> simp [*])

@[simp] theorem State.event_mailbox (s : State) (src : Nat) (unit : Nat) (status : Status) (detail : Nat) :
    (State.event s src unit status detail).mailbox = s.mailbox := by
  first | (unfold State.event; (repeat' split) <;> simp [*])

@[simp] theorem State.event_server (s : State) (src : Nat) (unit : Nat) (status : Status) (detail : Nat) :
    (State.event s src unit status detail).server = s.server := by
  first | (unfold State.event; (repeat' split) <;> simp [*])

@[simp] theorem State.event_ecat (s : State) (src : Nat) (unit : Nat) (status : Status) (detail : Nat) :
    (State.event s src unit status detail).ecat = s.ecat := by
  first | (unfold State.event; (repeat' split) <;> simp [*])

@[simp] theorem State.event_journal (s : State) (src : Nat) (unit : Nat) (status : Status) (detail : Nat) :
    (State.event s src unit status detail).journal = s.journal := by
  first | (unfold State.event; (repeat' split) <;> simp [*])

@[simp] theorem State.event_dailies (s : State) (src : Nat) (unit : Nat) (status : Status) (detail : Nat) :
    (State.event s src unit status detail).dailies = s.dailies := by
  first | (unfold State.event; (repeat' split) <;> simp [*])

@[simp] theorem State.event_sec (s : State) (src : Nat) (unit : Nat) (status : Status) (detail : Nat) :
    (State.event s src unit status detail).sec = s.sec := by
  first | (unfold State.event; (repeat' split) <;> simp [*])

@[simp] theorem State.event_free (s : State) (src : Nat) (unit : Nat) (status : Status) (detail : Nat) :
    (State.event s src unit status detail).free = s.free := by
  first | (unfold State.event; (repeat' split) <;> simp [*])

@[simp] theorem State.maskFault_objs (s : State) :
    (State.maskFault s).objs = s.objs := by
  first | (unfold State.maskFault; simp only []; (repeat' split) <;> simp [*])

@[simp] theorem State.maskFault_time (s : State) :
    (State.maskFault s).time = s.time := by
  first | (unfold State.maskFault; simp only []; (repeat' split) <;> simp [*])

@[simp] theorem State.maskFault_reels (s : State) :
    (State.maskFault s).reels = s.reels := by
  first | (unfold State.maskFault; simp only []; (repeat' split) <;> simp [*])

@[simp] theorem State.maskFault_phys (s : State) :
    (State.maskFault s).phys = s.phys := by
  first | (unfold State.maskFault; simp only []; (repeat' split) <;> simp [*])

@[simp] theorem State.maskFault_tiles (s : State) :
    (State.maskFault s).tiles = s.tiles := by
  first | (unfold State.maskFault; simp only []; (repeat' split) <;> simp [*])

@[simp] theorem State.maskFault_mem (s : State) :
    (State.maskFault s).mem = s.mem := by
  first | (unfold State.maskFault; simp only []; (repeat' split) <;> simp [*])

@[simp] theorem State.maskFault_route (s : State) :
    (State.maskFault s).route = s.route := by
  first | (unfold State.maskFault; simp only []; (repeat' split) <;> simp [*])

@[simp] theorem State.maskFault_steps (s : State) :
    (State.maskFault s).steps = s.steps := by
  first | (unfold State.maskFault; simp only []; (repeat' split) <;> simp [*])

@[simp] theorem State.maskFault_fabric (s : State) :
    (State.maskFault s).fabric = s.fabric := by
  first | (unfold State.maskFault; simp only []; (repeat' split) <;> simp [*])

@[simp] theorem State.maskFault_host (s : State) :
    (State.maskFault s).host = s.host := by
  first | (unfold State.maskFault; simp only []; (repeat' split) <;> simp [*])

@[simp] theorem State.maskFault_mailbox (s : State) :
    (State.maskFault s).mailbox = s.mailbox := by
  first | (unfold State.maskFault; simp only []; (repeat' split) <;> simp [*])

@[simp] theorem State.maskFault_server (s : State) :
    (State.maskFault s).server = s.server := by
  first | (unfold State.maskFault; simp only []; (repeat' split) <;> simp [*])

@[simp] theorem State.maskFault_ecat (s : State) :
    (State.maskFault s).ecat = s.ecat := by
  first | (unfold State.maskFault; simp only []; (repeat' split) <;> simp [*])

@[simp] theorem State.maskFault_journal (s : State) :
    (State.maskFault s).journal = s.journal := by
  first | (unfold State.maskFault; simp only []; (repeat' split) <;> simp [*])

@[simp] theorem State.maskFault_intr (s : State) :
    (State.maskFault s).intr = s.intr := by
  first | (unfold State.maskFault; simp only []; (repeat' split) <;> simp [*])

@[simp] theorem State.maskFault_early (s : State) :
    (State.maskFault s).early = s.early := by
  first | (unfold State.maskFault; simp only []; (repeat' split) <;> simp [*])

@[simp] theorem State.maskFault_rst (s : State) :
    (State.maskFault s).rst = s.rst := by
  first | (unfold State.maskFault; simp only []; (repeat' split) <;> simp [*])

@[simp] theorem State.maskFault_sec (s : State) :
    (State.maskFault s).sec = s.sec := by
  first | (unfold State.maskFault; simp only []; (repeat' split) <;> simp [*])

@[simp] theorem State.maskFault_free (s : State) :
    (State.maskFault s).free = s.free := by
  first | (unfold State.maskFault; simp only []; (repeat' split) <;> simp [*])

@[simp] theorem State.maskFault_out (s : State) :
    (State.maskFault s).out = s.out := by
  first | (unfold State.maskFault; simp only []; (repeat' split) <;> simp [*])

@[simp] theorem State.markFaultAnswers_objs (s : State) :
    (State.markFaultAnswers s).objs = s.objs := by
  first | (simp [State.markFaultAnswers, *])

@[simp] theorem State.markFaultAnswers_time (s : State) :
    (State.markFaultAnswers s).time = s.time := by
  first | (simp [State.markFaultAnswers, *])

@[simp] theorem State.markFaultAnswers_reels (s : State) :
    (State.markFaultAnswers s).reels = s.reels := by
  first | (simp [State.markFaultAnswers, *])

@[simp] theorem State.markFaultAnswers_phys (s : State) :
    (State.markFaultAnswers s).phys = s.phys := by
  first | (simp [State.markFaultAnswers, *])

@[simp] theorem State.markFaultAnswers_tiles (s : State) :
    (State.markFaultAnswers s).tiles = s.tiles := by
  first | (simp [State.markFaultAnswers, *])

@[simp] theorem State.markFaultAnswers_mem (s : State) :
    (State.markFaultAnswers s).mem = s.mem := by
  first | (simp [State.markFaultAnswers, *])

@[simp] theorem State.markFaultAnswers_route (s : State) :
    (State.markFaultAnswers s).route = s.route := by
  first | (simp [State.markFaultAnswers, *])

@[simp] theorem State.markFaultAnswers_steps (s : State) :
    (State.markFaultAnswers s).steps = s.steps := by
  first | (simp [State.markFaultAnswers, *])

@[simp] theorem State.markFaultAnswers_fabric (s : State) :
    (State.markFaultAnswers s).fabric = s.fabric := by
  first | (simp [State.markFaultAnswers, *])

@[simp] theorem State.markFaultAnswers_host (s : State) :
    (State.markFaultAnswers s).host = s.host := by
  first | (simp [State.markFaultAnswers, *])

@[simp] theorem State.markFaultAnswers_mailbox (s : State) :
    (State.markFaultAnswers s).mailbox = s.mailbox := by
  first | (simp [State.markFaultAnswers, *])

@[simp] theorem State.markFaultAnswers_server (s : State) :
    (State.markFaultAnswers s).server = s.server := by
  first | (simp [State.markFaultAnswers, *])

@[simp] theorem State.markFaultAnswers_ecat (s : State) :
    (State.markFaultAnswers s).ecat = s.ecat := by
  first | (simp [State.markFaultAnswers, *])

@[simp] theorem State.markFaultAnswers_journal (s : State) :
    (State.markFaultAnswers s).journal = s.journal := by
  first | (simp [State.markFaultAnswers, *])

@[simp] theorem State.markFaultAnswers_intr (s : State) :
    (State.markFaultAnswers s).intr = s.intr := by
  first | (simp [State.markFaultAnswers, *])

@[simp] theorem State.markFaultAnswers_early (s : State) :
    (State.markFaultAnswers s).early = s.early := by
  first | (simp [State.markFaultAnswers, *])

@[simp] theorem State.markFaultAnswers_dailies (s : State) :
    (State.markFaultAnswers s).dailies = s.dailies := by
  first | (simp [State.markFaultAnswers, *])

@[simp] theorem State.markFaultAnswers_rst (s : State) :
    (State.markFaultAnswers s).rst = s.rst := by
  first | (simp [State.markFaultAnswers, *])

@[simp] theorem State.markFaultAnswers_sec (s : State) :
    (State.markFaultAnswers s).sec = s.sec := by
  first | (simp [State.markFaultAnswers, *])

@[simp] theorem State.markFaultAnswers_free (s : State) :
    (State.markFaultAnswers s).free = s.free := by
  first | (simp [State.markFaultAnswers, *])

@[simp] theorem State.markFaultAnswers_out (s : State) :
    (State.markFaultAnswers s).out = s.out := by
  first | (simp [State.markFaultAnswers, *])

@[simp] theorem State.countFault_objs (s : State) :
    (State.countFault s).objs = s.objs := by
  first | (simp [State.countFault, *])

@[simp] theorem State.countFault_time (s : State) :
    (State.countFault s).time = s.time := by
  first | (simp [State.countFault, *])

@[simp] theorem State.countFault_reels (s : State) :
    (State.countFault s).reels = s.reels := by
  first | (simp [State.countFault, *])

@[simp] theorem State.countFault_phys (s : State) :
    (State.countFault s).phys = s.phys := by
  first | (simp [State.countFault, *])

@[simp] theorem State.countFault_tiles (s : State) :
    (State.countFault s).tiles = s.tiles := by
  first | (simp [State.countFault, *])

@[simp] theorem State.countFault_mem (s : State) :
    (State.countFault s).mem = s.mem := by
  first | (simp [State.countFault, *])

@[simp] theorem State.countFault_route (s : State) :
    (State.countFault s).route = s.route := by
  first | (simp [State.countFault, *])

@[simp] theorem State.countFault_steps (s : State) :
    (State.countFault s).steps = s.steps := by
  first | (simp [State.countFault, *])

@[simp] theorem State.countFault_fabric (s : State) :
    (State.countFault s).fabric = s.fabric := by
  first | (simp [State.countFault, *])

@[simp] theorem State.countFault_host (s : State) :
    (State.countFault s).host = s.host := by
  first | (simp [State.countFault, *])

@[simp] theorem State.countFault_mailbox (s : State) :
    (State.countFault s).mailbox = s.mailbox := by
  first | (simp [State.countFault, *])

@[simp] theorem State.countFault_server (s : State) :
    (State.countFault s).server = s.server := by
  first | (simp [State.countFault, *])

@[simp] theorem State.countFault_ecat (s : State) :
    (State.countFault s).ecat = s.ecat := by
  first | (simp [State.countFault, *])

@[simp] theorem State.countFault_journal (s : State) :
    (State.countFault s).journal = s.journal := by
  first | (simp [State.countFault, *])

@[simp] theorem State.countFault_intr (s : State) :
    (State.countFault s).intr = s.intr := by
  first | (simp [State.countFault, *])

@[simp] theorem State.countFault_early (s : State) :
    (State.countFault s).early = s.early := by
  first | (simp [State.countFault, *])

@[simp] theorem State.countFault_rst (s : State) :
    (State.countFault s).rst = s.rst := by
  first | (simp [State.countFault, *])

@[simp] theorem State.countFault_sec (s : State) :
    (State.countFault s).sec = s.sec := by
  first | (simp [State.countFault, *])

@[simp] theorem State.countFault_free (s : State) :
    (State.countFault s).free = s.free := by
  first | (simp [State.countFault, *])

@[simp] theorem State.countFault_out (s : State) :
    (State.countFault s).out = s.out := by
  first | (simp [State.countFault, *])

@[simp] theorem State.failTake_time (s : State) :
    (State.failTake s).time = s.time := by
  first | (unfold State.failTake; simp only []; (repeat' split) <;> simp [*])

@[simp] theorem State.failTake_reels (s : State) :
    (State.failTake s).reels = s.reels := by
  first | (unfold State.failTake; simp only []; (repeat' split) <;> simp [*])

@[simp] theorem State.failTake_phys (s : State) :
    (State.failTake s).phys = s.phys := by
  first | (unfold State.failTake; simp only []; (repeat' split) <;> simp [*])

@[simp] theorem State.failTake_tiles (s : State) :
    (State.failTake s).tiles = s.tiles := by
  first | (unfold State.failTake; simp only []; (repeat' split) <;> simp [*])

@[simp] theorem State.failTake_mem (s : State) :
    (State.failTake s).mem = s.mem := by
  first | (unfold State.failTake; simp only []; (repeat' split) <;> simp [*])

@[simp] theorem State.failTake_route (s : State) :
    (State.failTake s).route = s.route := by
  first | (unfold State.failTake; simp only []; (repeat' split) <;> simp [*])

@[simp] theorem State.failTake_steps (s : State) :
    (State.failTake s).steps = s.steps := by
  first | (unfold State.failTake; simp only []; (repeat' split) <;> simp [*])

@[simp] theorem State.failTake_fabric (s : State) :
    (State.failTake s).fabric = s.fabric := by
  first | (unfold State.failTake; simp only []; (repeat' split) <;> simp [*])

@[simp] theorem State.failTake_mailbox (s : State) :
    (State.failTake s).mailbox = s.mailbox := by
  first | (unfold State.failTake; simp only []; (repeat' split) <;> simp [*])

@[simp] theorem State.failTake_server (s : State) :
    (State.failTake s).server = s.server := by
  first | (unfold State.failTake; simp only []; (repeat' split) <;> simp [*])

@[simp] theorem State.failTake_ecat (s : State) :
    (State.failTake s).ecat = s.ecat := by
  first | (unfold State.failTake; simp only []; (repeat' split) <;> simp [*])

@[simp] theorem State.failTake_journal (s : State) :
    (State.failTake s).journal = s.journal := by
  first | (unfold State.failTake; simp only []; (repeat' split) <;> simp [*])

@[simp] theorem State.failTake_dailies (s : State) :
    (State.failTake s).dailies = s.dailies := by
  first | (unfold State.failTake; simp only []; (repeat' split) <;> simp [*])

@[simp] theorem State.failTake_sec (s : State) :
    (State.failTake s).sec = s.sec := by
  first | (unfold State.failTake; simp only []; (repeat' split) <;> simp [*])

@[simp] theorem State.failTake_free (s : State) :
    (State.failTake s).free = s.free := by
  first | (unfold State.failTake; simp only []; (repeat' split) <;> simp [*])

@[simp] theorem State.failOn_time (s : State) (st : Status) :
    (State.failOn s st).time = s.time := by
  first | (unfold State.failOn; (repeat' split) <;> simp [*])

@[simp] theorem State.failOn_reels (s : State) (st : Status) :
    (State.failOn s st).reels = s.reels := by
  first | (unfold State.failOn; (repeat' split) <;> simp [*])

@[simp] theorem State.failOn_phys (s : State) (st : Status) :
    (State.failOn s st).phys = s.phys := by
  first | (unfold State.failOn; (repeat' split) <;> simp [*])

@[simp] theorem State.failOn_tiles (s : State) (st : Status) :
    (State.failOn s st).tiles = s.tiles := by
  first | (unfold State.failOn; (repeat' split) <;> simp [*])

@[simp] theorem State.failOn_mem (s : State) (st : Status) :
    (State.failOn s st).mem = s.mem := by
  first | (unfold State.failOn; (repeat' split) <;> simp [*])

@[simp] theorem State.failOn_route (s : State) (st : Status) :
    (State.failOn s st).route = s.route := by
  first | (unfold State.failOn; (repeat' split) <;> simp [*])

@[simp] theorem State.failOn_steps (s : State) (st : Status) :
    (State.failOn s st).steps = s.steps := by
  first | (unfold State.failOn; (repeat' split) <;> simp [*])

@[simp] theorem State.failOn_fabric (s : State) (st : Status) :
    (State.failOn s st).fabric = s.fabric := by
  first | (unfold State.failOn; (repeat' split) <;> simp [*])

@[simp] theorem State.failOn_mailbox (s : State) (st : Status) :
    (State.failOn s st).mailbox = s.mailbox := by
  first | (unfold State.failOn; (repeat' split) <;> simp [*])

@[simp] theorem State.failOn_server (s : State) (st : Status) :
    (State.failOn s st).server = s.server := by
  first | (unfold State.failOn; (repeat' split) <;> simp [*])

@[simp] theorem State.failOn_ecat (s : State) (st : Status) :
    (State.failOn s st).ecat = s.ecat := by
  first | (unfold State.failOn; (repeat' split) <;> simp [*])

@[simp] theorem State.failOn_journal (s : State) (st : Status) :
    (State.failOn s st).journal = s.journal := by
  first | (unfold State.failOn; (repeat' split) <;> simp [*])

@[simp] theorem State.failOn_dailies (s : State) (st : Status) :
    (State.failOn s st).dailies = s.dailies := by
  first | (unfold State.failOn; (repeat' split) <;> simp [*])

@[simp] theorem State.failOn_sec (s : State) (st : Status) :
    (State.failOn s st).sec = s.sec := by
  first | (unfold State.failOn; (repeat' split) <;> simp [*])

@[simp] theorem State.failOn_free (s : State) (st : Status) :
    (State.failOn s st).free = s.free := by
  first | (unfold State.failOn; (repeat' split) <;> simp [*])

@[simp] theorem State.countTb_objs (s : State) (dt : Nat) :
    (State.countTb s dt).objs = s.objs := by
  unfold State.countTb; (try dsimp only); (repeat' split) <;> (first | rfl | simp)

@[simp] theorem State.countTb_take (s : State) (dt : Nat) :
    (State.countTb s dt).take = s.take := by
  unfold State.countTb; (try dsimp only); (repeat' split) <;> (first | rfl | simp)

@[simp] theorem State.countTb_reels (s : State) (dt : Nat) :
    (State.countTb s dt).reels = s.reels := by
  unfold State.countTb; (try dsimp only); (repeat' split) <;> (first | rfl | simp)

@[simp] theorem State.countTb_phys (s : State) (dt : Nat) :
    (State.countTb s dt).phys = s.phys := by
  unfold State.countTb; (try dsimp only); (repeat' split) <;> (first | rfl | simp)

@[simp] theorem State.countTb_tiles (s : State) (dt : Nat) :
    (State.countTb s dt).tiles = s.tiles := by
  unfold State.countTb; (try dsimp only); (repeat' split) <;> (first | rfl | simp)

@[simp] theorem State.countTb_mem (s : State) (dt : Nat) :
    (State.countTb s dt).mem = s.mem := by
  unfold State.countTb; (try dsimp only); (repeat' split) <;> (first | rfl | simp)

@[simp] theorem State.countTb_route (s : State) (dt : Nat) :
    (State.countTb s dt).route = s.route := by
  unfold State.countTb; (try dsimp only); (repeat' split) <;> (first | rfl | simp)

@[simp] theorem State.countTb_steps (s : State) (dt : Nat) :
    (State.countTb s dt).steps = s.steps := by
  unfold State.countTb; (try dsimp only); (repeat' split) <;> (first | rfl | simp)

@[simp] theorem State.countTb_fabric (s : State) (dt : Nat) :
    (State.countTb s dt).fabric = s.fabric := by
  unfold State.countTb; (try dsimp only); (repeat' split) <;> (first | rfl | simp)

@[simp] theorem State.countTb_host (s : State) (dt : Nat) :
    (State.countTb s dt).host = s.host := by
  unfold State.countTb; (try dsimp only); (repeat' split) <;> (first | rfl | simp)

@[simp] theorem State.countTb_mailbox (s : State) (dt : Nat) :
    (State.countTb s dt).mailbox = s.mailbox := by
  unfold State.countTb; (try dsimp only); (repeat' split) <;> (first | rfl | simp)

@[simp] theorem State.countTb_server (s : State) (dt : Nat) :
    (State.countTb s dt).server = s.server := by
  unfold State.countTb; (try dsimp only); (repeat' split) <;> (first | rfl | simp)

@[simp] theorem State.countTb_ecat (s : State) (dt : Nat) :
    (State.countTb s dt).ecat = s.ecat := by
  unfold State.countTb; (try dsimp only); (repeat' split) <;> (first | rfl | simp)

@[simp] theorem State.countTb_journal (s : State) (dt : Nat) :
    (State.countTb s dt).journal = s.journal := by
  unfold State.countTb; (try dsimp only); (repeat' split) <;> (first | rfl | simp)

@[simp] theorem State.countTb_intr (s : State) (dt : Nat) :
    (State.countTb s dt).intr = s.intr := by
  unfold State.countTb; (try dsimp only); (repeat' split) <;> (first | rfl | simp)

@[simp] theorem State.countTb_early (s : State) (dt : Nat) :
    (State.countTb s dt).early = s.early := by
  unfold State.countTb; (try dsimp only); (repeat' split) <;> (first | rfl | simp)

@[simp] theorem State.countTb_dailies (s : State) (dt : Nat) :
    (State.countTb s dt).dailies = s.dailies := by
  unfold State.countTb; (try dsimp only); (repeat' split) <;> (first | rfl | simp)

@[simp] theorem State.countTb_rst (s : State) (dt : Nat) :
    (State.countTb s dt).rst = s.rst := by
  unfold State.countTb; (try dsimp only); (repeat' split) <;> (first | rfl | simp)

@[simp] theorem State.countTb_sec (s : State) (dt : Nat) :
    (State.countTb s dt).sec = s.sec := by
  unfold State.countTb; (try dsimp only); (repeat' split) <;> (first | rfl | simp)

@[simp] theorem State.countTb_out (s : State) (dt : Nat) :
    (State.countTb s dt).out = s.out := by
  unfold State.countTb; (try dsimp only); (repeat' split) <;> (first | rfl | simp)

@[simp] theorem State.latchLot_objs (s : State) :
    (State.latchLot s).objs = s.objs := by
  rfl

@[simp] theorem State.latchLot_take (s : State) :
    (State.latchLot s).take = s.take := by
  rfl

@[simp] theorem State.latchLot_reels (s : State) :
    (State.latchLot s).reels = s.reels := by
  rfl

@[simp] theorem State.latchLot_phys (s : State) :
    (State.latchLot s).phys = s.phys := by
  rfl

@[simp] theorem State.latchLot_tiles (s : State) :
    (State.latchLot s).tiles = s.tiles := by
  rfl

@[simp] theorem State.latchLot_mem (s : State) :
    (State.latchLot s).mem = s.mem := by
  rfl

@[simp] theorem State.latchLot_route (s : State) :
    (State.latchLot s).route = s.route := by
  rfl

@[simp] theorem State.latchLot_steps (s : State) :
    (State.latchLot s).steps = s.steps := by
  rfl

@[simp] theorem State.latchLot_fabric (s : State) :
    (State.latchLot s).fabric = s.fabric := by
  rfl

@[simp] theorem State.latchLot_host (s : State) :
    (State.latchLot s).host = s.host := by
  rfl

@[simp] theorem State.latchLot_mailbox (s : State) :
    (State.latchLot s).mailbox = s.mailbox := by
  rfl

@[simp] theorem State.latchLot_server (s : State) :
    (State.latchLot s).server = s.server := by
  rfl

@[simp] theorem State.latchLot_ecat (s : State) :
    (State.latchLot s).ecat = s.ecat := by
  rfl

@[simp] theorem State.latchLot_journal (s : State) :
    (State.latchLot s).journal = s.journal := by
  rfl

@[simp] theorem State.latchLot_intr (s : State) :
    (State.latchLot s).intr = s.intr := by
  rfl

@[simp] theorem State.latchLot_early (s : State) :
    (State.latchLot s).early = s.early := by
  rfl

@[simp] theorem State.latchLot_dailies (s : State) :
    (State.latchLot s).dailies = s.dailies := by
  rfl

@[simp] theorem State.latchLot_rst (s : State) :
    (State.latchLot s).rst = s.rst := by
  rfl

@[simp] theorem State.latchLot_sec (s : State) :
    (State.latchLot s).sec = s.sec := by
  rfl

@[simp] theorem State.latchLot_free (s : State) :
    (State.latchLot s).free = s.free := by
  rfl

@[simp] theorem State.latchLot_out (s : State) :
    (State.latchLot s).out = s.out := by
  rfl

@[simp] theorem State.latchInputsAt_objs (s : State) (t : Nat) :
    (State.latchInputsAt s t).objs = s.objs := by
  unfold State.latchInputsAt; (try dsimp only); (repeat' split) <;> (first | rfl | simp)

@[simp] theorem State.latchInputsAt_time (s : State) (t : Nat) :
    (State.latchInputsAt s t).time = s.time := by
  unfold State.latchInputsAt; (try dsimp only); (repeat' split) <;> (first | rfl | simp)

@[simp] theorem State.latchInputsAt_take (s : State) (t : Nat) :
    (State.latchInputsAt s t).take = s.take := by
  unfold State.latchInputsAt; (try dsimp only); (repeat' split) <;> (first | rfl | simp)

@[simp] theorem State.latchInputsAt_reels (s : State) (t : Nat) :
    (State.latchInputsAt s t).reels = s.reels := by
  unfold State.latchInputsAt; (try dsimp only); (repeat' split) <;> (first | rfl | simp)

@[simp] theorem State.latchInputsAt_phys (s : State) (t : Nat) :
    (State.latchInputsAt s t).phys = s.phys := by
  unfold State.latchInputsAt; (try dsimp only); (repeat' split) <;> (first | rfl | simp)

@[simp] theorem State.latchInputsAt_tiles (s : State) (t : Nat) :
    (State.latchInputsAt s t).tiles = s.tiles := by
  unfold State.latchInputsAt; (try dsimp only); (repeat' split) <;> (first | rfl | simp)

@[simp] theorem State.latchInputsAt_mem (s : State) (t : Nat) :
    (State.latchInputsAt s t).mem = s.mem := by
  unfold State.latchInputsAt; (try dsimp only); (repeat' split) <;> (first | rfl | simp)

@[simp] theorem State.latchInputsAt_route (s : State) (t : Nat) :
    (State.latchInputsAt s t).route = s.route := by
  unfold State.latchInputsAt; (try dsimp only); (repeat' split) <;> (first | rfl | simp)

@[simp] theorem State.latchInputsAt_steps (s : State) (t : Nat) :
    (State.latchInputsAt s t).steps = s.steps := by
  unfold State.latchInputsAt; (try dsimp only); (repeat' split) <;> (first | rfl | simp)

@[simp] theorem State.latchInputsAt_fabric (s : State) (t : Nat) :
    (State.latchInputsAt s t).fabric = s.fabric := by
  unfold State.latchInputsAt; (try dsimp only); (repeat' split) <;> (first | rfl | simp)

@[simp] theorem State.latchInputsAt_host (s : State) (t : Nat) :
    (State.latchInputsAt s t).host = s.host := by
  unfold State.latchInputsAt; (try dsimp only); (repeat' split) <;> (first | rfl | simp)

@[simp] theorem State.latchInputsAt_mailbox (s : State) (t : Nat) :
    (State.latchInputsAt s t).mailbox = s.mailbox := by
  unfold State.latchInputsAt; (try dsimp only); (repeat' split) <;> (first | rfl | simp)

@[simp] theorem State.latchInputsAt_server (s : State) (t : Nat) :
    (State.latchInputsAt s t).server = s.server := by
  unfold State.latchInputsAt; (try dsimp only); (repeat' split) <;> (first | rfl | simp)

@[simp] theorem State.latchInputsAt_journal (s : State) (t : Nat) :
    (State.latchInputsAt s t).journal = s.journal := by
  unfold State.latchInputsAt; (try dsimp only); (repeat' split) <;> (first | rfl | simp)

@[simp] theorem State.latchInputsAt_intr (s : State) (t : Nat) :
    (State.latchInputsAt s t).intr = s.intr := by
  unfold State.latchInputsAt; (try dsimp only); (repeat' split) <;> (first | rfl | simp)

@[simp] theorem State.latchInputsAt_early (s : State) (t : Nat) :
    (State.latchInputsAt s t).early = s.early := by
  unfold State.latchInputsAt; (try dsimp only); (repeat' split) <;> (first | rfl | simp)

@[simp] theorem State.latchInputsAt_dailies (s : State) (t : Nat) :
    (State.latchInputsAt s t).dailies = s.dailies := by
  unfold State.latchInputsAt; (try dsimp only); (repeat' split) <;> (first | rfl | simp)

@[simp] theorem State.latchInputsAt_rst (s : State) (t : Nat) :
    (State.latchInputsAt s t).rst = s.rst := by
  unfold State.latchInputsAt; (try dsimp only); (repeat' split) <;> (first | rfl | simp)

@[simp] theorem State.latchInputsAt_sec (s : State) (t : Nat) :
    (State.latchInputsAt s t).sec = s.sec := by
  unfold State.latchInputsAt; (try dsimp only); (repeat' split) <;> (first | rfl | simp)

@[simp] theorem State.latchInputsAt_free (s : State) (t : Nat) :
    (State.latchInputsAt s t).free = s.free := by
  unfold State.latchInputsAt; (try dsimp only); (repeat' split) <;> (first | rfl | simp)

@[simp] theorem State.latchInputsAt_out (s : State) (t : Nat) :
    (State.latchInputsAt s t).out = s.out := by
  unfold State.latchInputsAt; (try dsimp only); (repeat' split) <;> (first | rfl | simp)

@[simp] theorem State.freeRun_objs (s : State) (since : Nat) :
    (State.freeRun s since).objs = s.objs := by
  unfold State.freeRun; (try dsimp only); (repeat' split) <;> (first | rfl | simp)

@[simp] theorem State.freeRun_take (s : State) (since : Nat) :
    (State.freeRun s since).take = s.take := by
  unfold State.freeRun; (try dsimp only); (repeat' split) <;> (first | rfl | simp)

@[simp] theorem State.freeRun_reels (s : State) (since : Nat) :
    (State.freeRun s since).reels = s.reels := by
  unfold State.freeRun; (try dsimp only); (repeat' split) <;> (first | rfl | simp)

@[simp] theorem State.freeRun_phys (s : State) (since : Nat) :
    (State.freeRun s since).phys = s.phys := by
  unfold State.freeRun; (try dsimp only); (repeat' split) <;> (first | rfl | simp)

@[simp] theorem State.freeRun_tiles (s : State) (since : Nat) :
    (State.freeRun s since).tiles = s.tiles := by
  unfold State.freeRun; (try dsimp only); (repeat' split) <;> (first | rfl | simp)

@[simp] theorem State.freeRun_mem (s : State) (since : Nat) :
    (State.freeRun s since).mem = s.mem := by
  unfold State.freeRun; (try dsimp only); (repeat' split) <;> (first | rfl | simp)

@[simp] theorem State.freeRun_route (s : State) (since : Nat) :
    (State.freeRun s since).route = s.route := by
  unfold State.freeRun; (try dsimp only); (repeat' split) <;> (first | rfl | simp)

@[simp] theorem State.freeRun_steps (s : State) (since : Nat) :
    (State.freeRun s since).steps = s.steps := by
  unfold State.freeRun; (try dsimp only); (repeat' split) <;> (first | rfl | simp)

@[simp] theorem State.freeRun_fabric (s : State) (since : Nat) :
    (State.freeRun s since).fabric = s.fabric := by
  unfold State.freeRun; (try dsimp only); (repeat' split) <;> (first | rfl | simp)

@[simp] theorem State.freeRun_host (s : State) (since : Nat) :
    (State.freeRun s since).host = s.host := by
  unfold State.freeRun; (try dsimp only); (repeat' split) <;> (first | rfl | simp)

@[simp] theorem State.freeRun_mailbox (s : State) (since : Nat) :
    (State.freeRun s since).mailbox = s.mailbox := by
  unfold State.freeRun; (try dsimp only); (repeat' split) <;> (first | rfl | simp)

@[simp] theorem State.freeRun_server (s : State) (since : Nat) :
    (State.freeRun s since).server = s.server := by
  unfold State.freeRun; (try dsimp only); (repeat' split) <;> (first | rfl | simp)

@[simp] theorem State.freeRun_journal (s : State) (since : Nat) :
    (State.freeRun s since).journal = s.journal := by
  unfold State.freeRun; (try dsimp only); (repeat' split) <;> (first | rfl | simp)

@[simp] theorem State.freeRun_intr (s : State) (since : Nat) :
    (State.freeRun s since).intr = s.intr := by
  unfold State.freeRun; (try dsimp only); (repeat' split) <;> (first | rfl | simp)

@[simp] theorem State.freeRun_early (s : State) (since : Nat) :
    (State.freeRun s since).early = s.early := by
  unfold State.freeRun; (try dsimp only); (repeat' split) <;> (first | rfl | simp)

@[simp] theorem State.freeRun_dailies (s : State) (since : Nat) :
    (State.freeRun s since).dailies = s.dailies := by
  unfold State.freeRun; (try dsimp only); (repeat' split) <;> (first | rfl | simp)

@[simp] theorem State.freeRun_rst (s : State) (since : Nat) :
    (State.freeRun s since).rst = s.rst := by
  unfold State.freeRun; (try dsimp only); (repeat' split) <;> (first | rfl | simp)

@[simp] theorem State.freeRun_sec (s : State) (since : Nat) :
    (State.freeRun s since).sec = s.sec := by
  unfold State.freeRun; (try dsimp only); (repeat' split) <;> (first | rfl | simp)

@[simp] theorem State.freeRun_free (s : State) (since : Nat) :
    (State.freeRun s since).free = s.free := by
  unfold State.freeRun; (try dsimp only); (repeat' split) <;> (first | rfl | simp)

@[simp] theorem State.freeRun_out (s : State) (since : Nat) :
    (State.freeRun s since).out = s.out := by
  unfold State.freeRun; (try dsimp only); (repeat' split) <;> (first | rfl | simp)

@[simp] theorem State.sync1Latch_objs (s : State) :
    (State.sync1Latch s).objs = s.objs := by
  unfold State.sync1Latch; (try dsimp only); (repeat' split) <;> (first | rfl | simp)

@[simp] theorem State.sync1Latch_time (s : State) :
    (State.sync1Latch s).time = s.time := by
  unfold State.sync1Latch; (try dsimp only); (repeat' split) <;> (first | rfl | simp)

@[simp] theorem State.sync1Latch_take (s : State) :
    (State.sync1Latch s).take = s.take := by
  unfold State.sync1Latch; (try dsimp only); (repeat' split) <;> (first | rfl | simp)

@[simp] theorem State.sync1Latch_reels (s : State) :
    (State.sync1Latch s).reels = s.reels := by
  unfold State.sync1Latch; (try dsimp only); (repeat' split) <;> (first | rfl | simp)

@[simp] theorem State.sync1Latch_phys (s : State) :
    (State.sync1Latch s).phys = s.phys := by
  unfold State.sync1Latch; (try dsimp only); (repeat' split) <;> (first | rfl | simp)

@[simp] theorem State.sync1Latch_tiles (s : State) :
    (State.sync1Latch s).tiles = s.tiles := by
  unfold State.sync1Latch; (try dsimp only); (repeat' split) <;> (first | rfl | simp)

@[simp] theorem State.sync1Latch_mem (s : State) :
    (State.sync1Latch s).mem = s.mem := by
  unfold State.sync1Latch; (try dsimp only); (repeat' split) <;> (first | rfl | simp)

@[simp] theorem State.sync1Latch_route (s : State) :
    (State.sync1Latch s).route = s.route := by
  unfold State.sync1Latch; (try dsimp only); (repeat' split) <;> (first | rfl | simp)

@[simp] theorem State.sync1Latch_steps (s : State) :
    (State.sync1Latch s).steps = s.steps := by
  unfold State.sync1Latch; (try dsimp only); (repeat' split) <;> (first | rfl | simp)

@[simp] theorem State.sync1Latch_fabric (s : State) :
    (State.sync1Latch s).fabric = s.fabric := by
  unfold State.sync1Latch; (try dsimp only); (repeat' split) <;> (first | rfl | simp)

@[simp] theorem State.sync1Latch_host (s : State) :
    (State.sync1Latch s).host = s.host := by
  unfold State.sync1Latch; (try dsimp only); (repeat' split) <;> (first | rfl | simp)

@[simp] theorem State.sync1Latch_mailbox (s : State) :
    (State.sync1Latch s).mailbox = s.mailbox := by
  unfold State.sync1Latch; (try dsimp only); (repeat' split) <;> (first | rfl | simp)

@[simp] theorem State.sync1Latch_server (s : State) :
    (State.sync1Latch s).server = s.server := by
  unfold State.sync1Latch; (try dsimp only); (repeat' split) <;> (first | rfl | simp)

@[simp] theorem State.sync1Latch_journal (s : State) :
    (State.sync1Latch s).journal = s.journal := by
  unfold State.sync1Latch; (try dsimp only); (repeat' split) <;> (first | rfl | simp)

@[simp] theorem State.sync1Latch_intr (s : State) :
    (State.sync1Latch s).intr = s.intr := by
  unfold State.sync1Latch; (try dsimp only); (repeat' split) <;> (first | rfl | simp)

@[simp] theorem State.sync1Latch_early (s : State) :
    (State.sync1Latch s).early = s.early := by
  unfold State.sync1Latch; (try dsimp only); (repeat' split) <;> (first | rfl | simp)

@[simp] theorem State.sync1Latch_dailies (s : State) :
    (State.sync1Latch s).dailies = s.dailies := by
  unfold State.sync1Latch; (try dsimp only); (repeat' split) <;> (first | rfl | simp)

@[simp] theorem State.sync1Latch_rst (s : State) :
    (State.sync1Latch s).rst = s.rst := by
  unfold State.sync1Latch; (try dsimp only); (repeat' split) <;> (first | rfl | simp)

@[simp] theorem State.sync1Latch_sec (s : State) :
    (State.sync1Latch s).sec = s.sec := by
  unfold State.sync1Latch; (try dsimp only); (repeat' split) <;> (first | rfl | simp)

@[simp] theorem State.sync1Latch_free (s : State) :
    (State.sync1Latch s).free = s.free := by
  unfold State.sync1Latch; (try dsimp only); (repeat' split) <;> (first | rfl | simp)

@[simp] theorem State.sync1Latch_out (s : State) :
    (State.sync1Latch s).out = s.out := by
  unfold State.sync1Latch; (try dsimp only); (repeat' split) <;> (first | rfl | simp)

@[simp] theorem State.advance_objs (s : State) (dt : Nat) :
    (State.advance s dt).objs = s.objs := by
  simp [State.advance]

@[simp] theorem State.advance_take (s : State) (dt : Nat) :
    (State.advance s dt).take = s.take := by
  simp [State.advance]

@[simp] theorem State.advance_reels (s : State) (dt : Nat) :
    (State.advance s dt).reels = s.reels := by
  simp [State.advance]

@[simp] theorem State.advance_phys (s : State) (dt : Nat) :
    (State.advance s dt).phys = s.phys := by
  simp [State.advance]

@[simp] theorem State.advance_tiles (s : State) (dt : Nat) :
    (State.advance s dt).tiles = s.tiles := by
  simp [State.advance]

@[simp] theorem State.advance_mem (s : State) (dt : Nat) :
    (State.advance s dt).mem = s.mem := by
  simp [State.advance]

@[simp] theorem State.advance_route (s : State) (dt : Nat) :
    (State.advance s dt).route = s.route := by
  simp [State.advance]

@[simp] theorem State.advance_steps (s : State) (dt : Nat) :
    (State.advance s dt).steps = s.steps := by
  simp [State.advance]

@[simp] theorem State.advance_fabric (s : State) (dt : Nat) :
    (State.advance s dt).fabric = s.fabric := by
  simp [State.advance]

@[simp] theorem State.advance_host (s : State) (dt : Nat) :
    (State.advance s dt).host = s.host := by
  simp [State.advance]

@[simp] theorem State.advance_mailbox (s : State) (dt : Nat) :
    (State.advance s dt).mailbox = s.mailbox := by
  simp [State.advance]

@[simp] theorem State.advance_server (s : State) (dt : Nat) :
    (State.advance s dt).server = s.server := by
  simp [State.advance]

@[simp] theorem State.advance_journal (s : State) (dt : Nat) :
    (State.advance s dt).journal = s.journal := by
  simp [State.advance]

@[simp] theorem State.advance_intr (s : State) (dt : Nat) :
    (State.advance s dt).intr = s.intr := by
  simp [State.advance]

@[simp] theorem State.advance_early (s : State) (dt : Nat) :
    (State.advance s dt).early = s.early := by
  simp [State.advance]

@[simp] theorem State.advance_dailies (s : State) (dt : Nat) :
    (State.advance s dt).dailies = s.dailies := by
  simp [State.advance]

@[simp] theorem State.advance_rst (s : State) (dt : Nat) :
    (State.advance s dt).rst = s.rst := by
  simp [State.advance]

@[simp] theorem State.advance_sec (s : State) (dt : Nat) :
    (State.advance s dt).sec = s.sec := by
  simp [State.advance]

@[simp] theorem State.advance_out (s : State) (dt : Nat) :
    (State.advance s dt).out = s.out := by
  simp [State.advance]

@[simp] theorem State.ignorePulse_time (s : State) :
    (State.ignorePulse s).time = s.time := by
  first | (unfold State.ignorePulse; (repeat' split) <;> simp [*])

@[simp] theorem State.ignorePulse_take (s : State) :
    (State.ignorePulse s).take = s.take := by
  first | (unfold State.ignorePulse; (repeat' split) <;> simp [*])

@[simp] theorem State.ignorePulse_reels (s : State) :
    (State.ignorePulse s).reels = s.reels := by
  first | (unfold State.ignorePulse; (repeat' split) <;> simp [*])

@[simp] theorem State.ignorePulse_phys (s : State) :
    (State.ignorePulse s).phys = s.phys := by
  first | (unfold State.ignorePulse; (repeat' split) <;> simp [*])

@[simp] theorem State.ignorePulse_tiles (s : State) :
    (State.ignorePulse s).tiles = s.tiles := by
  first | (unfold State.ignorePulse; (repeat' split) <;> simp [*])

@[simp] theorem State.ignorePulse_mem (s : State) :
    (State.ignorePulse s).mem = s.mem := by
  first | (unfold State.ignorePulse; (repeat' split) <;> simp [*])

@[simp] theorem State.ignorePulse_route (s : State) :
    (State.ignorePulse s).route = s.route := by
  first | (unfold State.ignorePulse; (repeat' split) <;> simp [*])

@[simp] theorem State.ignorePulse_steps (s : State) :
    (State.ignorePulse s).steps = s.steps := by
  first | (unfold State.ignorePulse; (repeat' split) <;> simp [*])

@[simp] theorem State.ignorePulse_fabric (s : State) :
    (State.ignorePulse s).fabric = s.fabric := by
  first | (unfold State.ignorePulse; (repeat' split) <;> simp [*])

@[simp] theorem State.ignorePulse_mailbox (s : State) :
    (State.ignorePulse s).mailbox = s.mailbox := by
  first | (unfold State.ignorePulse; (repeat' split) <;> simp [*])

@[simp] theorem State.ignorePulse_server (s : State) :
    (State.ignorePulse s).server = s.server := by
  first | (unfold State.ignorePulse; (repeat' split) <;> simp [*])

@[simp] theorem State.ignorePulse_ecat (s : State) :
    (State.ignorePulse s).ecat = s.ecat := by
  first | (unfold State.ignorePulse; (repeat' split) <;> simp [*])

@[simp] theorem State.ignorePulse_journal (s : State) :
    (State.ignorePulse s).journal = s.journal := by
  first | (unfold State.ignorePulse; (repeat' split) <;> simp [*])

@[simp] theorem State.ignorePulse_dailies (s : State) :
    (State.ignorePulse s).dailies = s.dailies := by
  first | (unfold State.ignorePulse; (repeat' split) <;> simp [*])

@[simp] theorem State.ignorePulse_sec (s : State) :
    (State.ignorePulse s).sec = s.sec := by
  first | (unfold State.ignorePulse; (repeat' split) <;> simp [*])

@[simp] theorem State.ignorePulse_free (s : State) :
    (State.ignorePulse s).free = s.free := by
  first | (unfold State.ignorePulse; (repeat' split) <;> simp [*])

@[simp] theorem State.noteEccLost_time (s : State) (a : Nat) :
    (State.noteEccLost s a).time = s.time := by
  first | (simp [State.noteEccLost, *])

@[simp] theorem State.noteEccLost_reels (s : State) (a : Nat) :
    (State.noteEccLost s a).reels = s.reels := by
  first | (simp [State.noteEccLost, *])

@[simp] theorem State.noteEccLost_phys (s : State) (a : Nat) :
    (State.noteEccLost s a).phys = s.phys := by
  first | (simp [State.noteEccLost, *])

@[simp] theorem State.noteEccLost_tiles (s : State) (a : Nat) :
    (State.noteEccLost s a).tiles = s.tiles := by
  first | (simp [State.noteEccLost, *])

@[simp] theorem State.noteEccLost_mem (s : State) (a : Nat) :
    (State.noteEccLost s a).mem = s.mem := by
  first | (simp [State.noteEccLost, *])

@[simp] theorem State.noteEccLost_route (s : State) (a : Nat) :
    (State.noteEccLost s a).route = s.route := by
  first | (simp [State.noteEccLost, *])

@[simp] theorem State.noteEccLost_steps (s : State) (a : Nat) :
    (State.noteEccLost s a).steps = s.steps := by
  first | (simp [State.noteEccLost, *])

@[simp] theorem State.noteEccLost_fabric (s : State) (a : Nat) :
    (State.noteEccLost s a).fabric = s.fabric := by
  first | (simp [State.noteEccLost, *])

@[simp] theorem State.noteEccLost_mailbox (s : State) (a : Nat) :
    (State.noteEccLost s a).mailbox = s.mailbox := by
  first | (simp [State.noteEccLost, *])

@[simp] theorem State.noteEccLost_server (s : State) (a : Nat) :
    (State.noteEccLost s a).server = s.server := by
  first | (simp [State.noteEccLost, *])

@[simp] theorem State.noteEccLost_ecat (s : State) (a : Nat) :
    (State.noteEccLost s a).ecat = s.ecat := by
  first | (simp [State.noteEccLost, *])

@[simp] theorem State.noteEccLost_journal (s : State) (a : Nat) :
    (State.noteEccLost s a).journal = s.journal := by
  first | (simp [State.noteEccLost, *])

@[simp] theorem State.noteEccLost_dailies (s : State) (a : Nat) :
    (State.noteEccLost s a).dailies = s.dailies := by
  first | (simp [State.noteEccLost, *])

@[simp] theorem State.noteEccLost_sec (s : State) (a : Nat) :
    (State.noteEccLost s a).sec = s.sec := by
  first | (simp [State.noteEccLost, *])

@[simp] theorem State.noteEccLost_free (s : State) (a : Nat) :
    (State.noteEccLost s a).free = s.free := by
  first | (simp [State.noteEccLost, *])

@[simp] theorem State.commandEvent_time (s : State) (l : Nat) (x : Nat) (st : Status) :
    (State.commandEvent s l x st).time = s.time := by
  first | (unfold State.commandEvent; (repeat' split) <;> simp [*])

@[simp] theorem State.commandEvent_take (s : State) (l : Nat) (x : Nat) (st : Status) :
    (State.commandEvent s l x st).take = s.take := by
  first | (unfold State.commandEvent; (repeat' split) <;> simp [*])

@[simp] theorem State.commandEvent_reels (s : State) (l : Nat) (x : Nat) (st : Status) :
    (State.commandEvent s l x st).reels = s.reels := by
  first | (unfold State.commandEvent; (repeat' split) <;> simp [*])

@[simp] theorem State.commandEvent_phys (s : State) (l : Nat) (x : Nat) (st : Status) :
    (State.commandEvent s l x st).phys = s.phys := by
  first | (unfold State.commandEvent; (repeat' split) <;> simp [*])

@[simp] theorem State.commandEvent_tiles (s : State) (l : Nat) (x : Nat) (st : Status) :
    (State.commandEvent s l x st).tiles = s.tiles := by
  first | (unfold State.commandEvent; (repeat' split) <;> simp [*])

@[simp] theorem State.commandEvent_mem (s : State) (l : Nat) (x : Nat) (st : Status) :
    (State.commandEvent s l x st).mem = s.mem := by
  first | (unfold State.commandEvent; (repeat' split) <;> simp [*])

@[simp] theorem State.commandEvent_route (s : State) (l : Nat) (x : Nat) (st : Status) :
    (State.commandEvent s l x st).route = s.route := by
  first | (unfold State.commandEvent; (repeat' split) <;> simp [*])

@[simp] theorem State.commandEvent_steps (s : State) (l : Nat) (x : Nat) (st : Status) :
    (State.commandEvent s l x st).steps = s.steps := by
  first | (unfold State.commandEvent; (repeat' split) <;> simp [*])

@[simp] theorem State.commandEvent_fabric (s : State) (l : Nat) (x : Nat) (st : Status) :
    (State.commandEvent s l x st).fabric = s.fabric := by
  first | (unfold State.commandEvent; (repeat' split) <;> simp [*])

@[simp] theorem State.commandEvent_mailbox (s : State) (l : Nat) (x : Nat) (st : Status) :
    (State.commandEvent s l x st).mailbox = s.mailbox := by
  first | (unfold State.commandEvent; (repeat' split) <;> simp [*])

@[simp] theorem State.commandEvent_server (s : State) (l : Nat) (x : Nat) (st : Status) :
    (State.commandEvent s l x st).server = s.server := by
  first | (unfold State.commandEvent; (repeat' split) <;> simp [*])

@[simp] theorem State.commandEvent_ecat (s : State) (l : Nat) (x : Nat) (st : Status) :
    (State.commandEvent s l x st).ecat = s.ecat := by
  first | (unfold State.commandEvent; (repeat' split) <;> simp [*])

@[simp] theorem State.commandEvent_journal (s : State) (l : Nat) (x : Nat) (st : Status) :
    (State.commandEvent s l x st).journal = s.journal := by
  first | (unfold State.commandEvent; (repeat' split) <;> simp [*])

@[simp] theorem State.commandEvent_dailies (s : State) (l : Nat) (x : Nat) (st : Status) :
    (State.commandEvent s l x st).dailies = s.dailies := by
  first | (unfold State.commandEvent; (repeat' split) <;> simp [*])

@[simp] theorem State.commandEvent_sec (s : State) (l : Nat) (x : Nat) (st : Status) :
    (State.commandEvent s l x st).sec = s.sec := by
  first | (unfold State.commandEvent; (repeat' split) <;> simp [*])

@[simp] theorem State.commandEvent_free (s : State) (l : Nat) (x : Nat) (st : Status) :
    (State.commandEvent s l x st).free = s.free := by
  first | (unfold State.commandEvent; (repeat' split) <;> simp [*])

@[simp] theorem State.countFindings_time (s : State) (l : Nat) (p : Nat) (rejected : Nat) (oor : Nat) :
    (State.countFindings s l p rejected oor).time = s.time := by
  first | (unfold State.countFindings; simp only []; (repeat' split) <;> simp [*])

@[simp] theorem State.countFindings_take (s : State) (l : Nat) (p : Nat) (rejected : Nat) (oor : Nat) :
    (State.countFindings s l p rejected oor).take = s.take := by
  first | (unfold State.countFindings; simp only []; (repeat' split) <;> simp [*])

@[simp] theorem State.countFindings_reels (s : State) (l : Nat) (p : Nat) (rejected : Nat) (oor : Nat) :
    (State.countFindings s l p rejected oor).reels = s.reels := by
  first | (unfold State.countFindings; simp only []; (repeat' split) <;> simp [*])

@[simp] theorem State.countFindings_tiles (s : State) (l : Nat) (p : Nat) (rejected : Nat) (oor : Nat) :
    (State.countFindings s l p rejected oor).tiles = s.tiles := by
  first | (unfold State.countFindings; simp only []; (repeat' split) <;> simp [*])

@[simp] theorem State.countFindings_mem (s : State) (l : Nat) (p : Nat) (rejected : Nat) (oor : Nat) :
    (State.countFindings s l p rejected oor).mem = s.mem := by
  first | (unfold State.countFindings; simp only []; (repeat' split) <;> simp [*])

@[simp] theorem State.countFindings_route (s : State) (l : Nat) (p : Nat) (rejected : Nat) (oor : Nat) :
    (State.countFindings s l p rejected oor).route = s.route := by
  first | (unfold State.countFindings; simp only []; (repeat' split) <;> simp [*])

@[simp] theorem State.countFindings_steps (s : State) (l : Nat) (p : Nat) (rejected : Nat) (oor : Nat) :
    (State.countFindings s l p rejected oor).steps = s.steps := by
  first | (unfold State.countFindings; simp only []; (repeat' split) <;> simp [*])

@[simp] theorem State.countFindings_fabric (s : State) (l : Nat) (p : Nat) (rejected : Nat) (oor : Nat) :
    (State.countFindings s l p rejected oor).fabric = s.fabric := by
  first | (unfold State.countFindings; simp only []; (repeat' split) <;> simp [*])

@[simp] theorem State.countFindings_mailbox (s : State) (l : Nat) (p : Nat) (rejected : Nat) (oor : Nat) :
    (State.countFindings s l p rejected oor).mailbox = s.mailbox := by
  first | (unfold State.countFindings; simp only []; (repeat' split) <;> simp [*])

@[simp] theorem State.countFindings_server (s : State) (l : Nat) (p : Nat) (rejected : Nat) (oor : Nat) :
    (State.countFindings s l p rejected oor).server = s.server := by
  first | (unfold State.countFindings; simp only []; (repeat' split) <;> simp [*])

@[simp] theorem State.countFindings_ecat (s : State) (l : Nat) (p : Nat) (rejected : Nat) (oor : Nat) :
    (State.countFindings s l p rejected oor).ecat = s.ecat := by
  first | (unfold State.countFindings; simp only []; (repeat' split) <;> simp [*])

@[simp] theorem State.countFindings_journal (s : State) (l : Nat) (p : Nat) (rejected : Nat) (oor : Nat) :
    (State.countFindings s l p rejected oor).journal = s.journal := by
  first | (unfold State.countFindings; simp only []; (repeat' split) <;> simp [*])

@[simp] theorem State.countFindings_dailies (s : State) (l : Nat) (p : Nat) (rejected : Nat) (oor : Nat) :
    (State.countFindings s l p rejected oor).dailies = s.dailies := by
  first | (unfold State.countFindings; simp only []; (repeat' split) <;> simp [*])

@[simp] theorem State.countFindings_sec (s : State) (l : Nat) (p : Nat) (rejected : Nat) (oor : Nat) :
    (State.countFindings s l p rejected oor).sec = s.sec := by
  first | (unfold State.countFindings; simp only []; (repeat' split) <;> simp [*])

@[simp] theorem State.countFindings_free (s : State) (l : Nat) (p : Nat) (rejected : Nat) (oor : Nat) :
    (State.countFindings s l p rejected oor).free = s.free := by
  first | (unfold State.countFindings; simp only []; (repeat' split) <;> simp [*])

@[simp] theorem State.activate_objs (s : State) (p : Nat) :
    (State.activate s p).objs = s.objs := by
  first | (unfold State.activate; simp only []; (repeat' split) <;> simp [*])

@[simp] theorem State.activate_time (s : State) (p : Nat) :
    (State.activate s p).time = s.time := by
  first | (unfold State.activate; simp only []; (repeat' split) <;> simp [*])

@[simp] theorem State.activate_take (s : State) (p : Nat) :
    (State.activate s p).take = s.take := by
  first | (unfold State.activate; simp only []; (repeat' split) <;> simp [*])

@[simp] theorem State.activate_reels (s : State) (p : Nat) :
    (State.activate s p).reels = s.reels := by
  first | (unfold State.activate; simp only []; (repeat' split) <;> simp [*])

@[simp] theorem State.activate_tiles (s : State) (p : Nat) :
    (State.activate s p).tiles = s.tiles := by
  first | (unfold State.activate; simp only []; (repeat' split) <;> simp [*])

@[simp] theorem State.activate_mem (s : State) (p : Nat) :
    (State.activate s p).mem = s.mem := by
  first | (unfold State.activate; simp only []; (repeat' split) <;> simp [*])

@[simp] theorem State.activate_route (s : State) (p : Nat) :
    (State.activate s p).route = s.route := by
  first | (unfold State.activate; simp only []; (repeat' split) <;> simp [*])

@[simp] theorem State.activate_steps (s : State) (p : Nat) :
    (State.activate s p).steps = s.steps := by
  first | (unfold State.activate; simp only []; (repeat' split) <;> simp [*])

@[simp] theorem State.activate_fabric (s : State) (p : Nat) :
    (State.activate s p).fabric = s.fabric := by
  first | (unfold State.activate; simp only []; (repeat' split) <;> simp [*])

@[simp] theorem State.activate_host (s : State) (p : Nat) :
    (State.activate s p).host = s.host := by
  first | (unfold State.activate; simp only []; (repeat' split) <;> simp [*])

@[simp] theorem State.activate_mailbox (s : State) (p : Nat) :
    (State.activate s p).mailbox = s.mailbox := by
  first | (unfold State.activate; simp only []; (repeat' split) <;> simp [*])

@[simp] theorem State.activate_server (s : State) (p : Nat) :
    (State.activate s p).server = s.server := by
  first | (unfold State.activate; simp only []; (repeat' split) <;> simp [*])

@[simp] theorem State.activate_ecat (s : State) (p : Nat) :
    (State.activate s p).ecat = s.ecat := by
  first | (unfold State.activate; simp only []; (repeat' split) <;> simp [*])

@[simp] theorem State.activate_journal (s : State) (p : Nat) :
    (State.activate s p).journal = s.journal := by
  first | (unfold State.activate; simp only []; (repeat' split) <;> simp [*])

@[simp] theorem State.activate_intr (s : State) (p : Nat) :
    (State.activate s p).intr = s.intr := by
  first | (unfold State.activate; simp only []; (repeat' split) <;> simp [*])

@[simp] theorem State.activate_early (s : State) (p : Nat) :
    (State.activate s p).early = s.early := by
  first | (unfold State.activate; simp only []; (repeat' split) <;> simp [*])

@[simp] theorem State.activate_dailies (s : State) (p : Nat) :
    (State.activate s p).dailies = s.dailies := by
  first | (unfold State.activate; simp only []; (repeat' split) <;> simp [*])

@[simp] theorem State.activate_sec (s : State) (p : Nat) :
    (State.activate s p).sec = s.sec := by
  first | (unfold State.activate; simp only []; (repeat' split) <;> simp [*])

@[simp] theorem State.activate_free (s : State) (p : Nat) :
    (State.activate s p).free = s.free := by
  first | (unfold State.activate; simp only []; (repeat' split) <;> simp [*])

@[simp] theorem State.activate_out (s : State) (p : Nat) :
    (State.activate s p).out = s.out := by
  first | (unfold State.activate; simp only []; (repeat' split) <;> simp [*])

end Sys2Proof.Machine
end

