-- ==== Sys2Proof/Laws/Objects.lean ====
section
/-!
SUPPORT. Raising a source, logging an event, counting a fault and failing a take change no object but HOST_EVENTS,
RELEASES and the event log.
-/

namespace Sys2Proof.Machine

open Sys2Proof

theorem eventObject_log {k seq f : Nat} (h : eventObject k = false) (h1 : f < 256) : k ≠ logKey seq f := by
  intro e
  subst e
  have hm := Nat.mod_lt seq (show 0 < 256 by decide)
  simp only [eventObject, logKey, objKey, Bool.or_eq_false_iff] at h
  obtain ⟨-, h⟩ := h
  exact of_decide_eq_false h ⟨by omega, by omega⟩

theorem eventObject_header {k : Nat} (h : eventObject k = false) :
    k ≠ Obj.nextSeq ∧ k ≠ Obj.logOverruns := by
  simp only [eventObject, Bool.or_eq_false_iff] at h
  have h3 := of_decide_eq_false h.1.2
  simp only [Obj.nextSeq, Obj.logOverruns]
  omega

theorem eventObject_group {k g : Nat} (h : eventObject k = false) (hg : g < 16) :
    k ≠ Obj.hostEvents + g ∧ k ≠ Obj.releases + g := by
  simp only [eventObject, Bool.or_eq_false_iff] at h
  have h1 := of_decide_eq_false h.1.1.1
  have h2 := of_decide_eq_false h.1.1.2
  simp only [Obj.hostEvents, Obj.releases]
  omega

theorem State.interruptCores_obj (s : State) (k : Nat) : s.interruptCores.obj k = s.obj k :=
  State.obj_congr (by
    unfold State.interruptCores
    rw [foldl_objs]
    exact fun t c => State.interruptCore_objs t c) k

/-- A key that raising a source does not write: neither HOST_EVENTS nor RELEASES of a group. -/
def NoGroup (k : Nat) : Prop := ∀ g, g < 16 → k ≠ Obj.hostEvents + g ∧ k ≠ Obj.releases + g

theorem NoGroup.of_eventObject {k : Nat} (h : eventObject k = false) : NoGroup k := fun _ hg => eventObject_group h hg

theorem State.setPending_obj (s : State) {k src : Nat} (hs : src < 512) (hk : NoGroup k) :
    (s.setPending src).obj k = s.obj k := by
  have h := (hk (src / 32) (by omega)).1
  have : (s.setPending src).obj k = (s.setObj (Obj.hostEvents + src / 32)
      (s.obj (Obj.hostEvents + src / 32) ||| 2 ^ (src % 32))).obj k := rfl
  rw [this, State.setObj_obj_ne s _ h]

theorem State.testRelease_obj (s : State) {k g : Nat} (hg : g < 16) (hk : NoGroup k) :
    (s.testRelease g).obj k = s.obj k := by
  unfold State.testRelease
  split
  · rw [State.incObj_obj_ne _ (hk g hg).2]
    exact State.obj_congr (by simp) k
  · rfl

theorem State.raise_obj_group (s : State) {k src : Nat} (hs : src < 512) (hk : NoGroup k) :
    (s.raise src).obj k = s.obj k := by
  unfold State.raise
  split
  · rfl
  · rw [State.testRelease_obj _ (by omega) hk, State.interruptCores_obj, State.setPending_obj s hs hk]

theorem State.raise_obj (s : State) {k src : Nat} (hs : src < 512) (hk : eventObject k = false) :
    (s.raise src).obj k = s.obj k := State.raise_obj_group s hs (.of_eventObject hk)

theorem State.newEntry_obj (s : State) (code unit st detail ts take rep : Nat) {k : Nat} (hk : eventObject k = false) :
    (s.newEntry code unit st detail ts take rep).obj k = s.obj k := by
  have hl := fun f (h : f < 256) => eventObject_log (seq := s.obj Obj.nextSeq) hk h
  have hh := eventObject_header hk
  simp only [State.newEntry]
  split
  · rw [State.raise_obj _ (by decide) hk, State.incObj_obj_ne _ hh.2, State.raise_obj _ (by decide) hk,
      State.addObj_obj_ne _ _ _ hh.1]
    simp only [State.setObj_obj_ne _ _ (hl _ (show 8 < 256 by decide)), State.setObj_obj_ne _ _ (hl _ (show 7 < 256 by decide)),
      State.setObj_obj_ne _ _ (hl _ (show 6 < 256 by decide)), State.setObj_obj_ne _ _ (hl _ (show 5 < 256 by decide)),
      State.setObj_obj_ne _ _ (hl _ (show 4 < 256 by decide)), State.setObj_obj_ne _ _ (hl _ (show 3 < 256 by decide)),
      State.setObj_obj_ne _ _ (hl _ (show 2 < 256 by decide)), State.setObj_obj_ne _ _ (hl _ (show 1 < 256 by decide))]
  · rw [State.raise_obj _ (by decide) hk, State.addObj_obj_ne _ _ _ hh.1]
    simp only [State.setObj_obj_ne _ _ (hl _ (show 8 < 256 by decide)), State.setObj_obj_ne _ _ (hl _ (show 7 < 256 by decide)),
      State.setObj_obj_ne _ _ (hl _ (show 6 < 256 by decide)), State.setObj_obj_ne _ _ (hl _ (show 5 < 256 by decide)),
      State.setObj_obj_ne _ _ (hl _ (show 4 < 256 by decide)), State.setObj_obj_ne _ _ (hl _ (show 3 < 256 by decide)),
      State.setObj_obj_ne _ _ (hl _ (show 2 < 256 by decide)), State.setObj_obj_ne _ _ (hl _ (show 1 < 256 by decide))]

theorem State.earlyEvent_obj (s : State) (code unit st detail k : Nat) :
    (s.earlyEvent code unit st detail).obj k = s.obj k := by
  unfold State.earlyEvent
  split <;> rfl

theorem State.log_obj (s : State) (code unit : Nat) (st : Status) (detail : Nat) {k : Nat} (hk : eventObject k = false) :
    (s.log code unit st detail).obj k = s.obj k := by
  simp only [State.log]
  split
  · rfl
  · split
    · exact State.earlyEvent_obj s _ _ _ _ k
    · split
      · exact State.setObj_obj_ne _ _ (eventObject_log hk (by decide))
      · exact State.newEntry_obj s _ _ _ _ _ _ _ hk

/-- An event writes no object but those of `eventObject`. -/
theorem State.event_obj (s : State) {src : Nat} (unit : Nat) (st : Status) (detail : Nat) {k : Nat} (hs : src < 512)
    (hk : eventObject k = false) : (s.event src unit st detail).obj k = s.obj k := by
  unfold State.event
  split
  · rw [State.raise_obj _ hs hk, State.log_obj _ _ _ _ _ hk]
  · exact State.log_obj _ _ _ _ _ hk

theorem State.countFault_obj (s : State) (k : Nat) : s.countFault.obj k = s.obj k :=
  State.obj_congr (State.countFault_objs s) k

theorem State.failTake_obj (s : State) {k : Nat} (hk : eventObject k = false) : s.failTake.obj k = s.obj k := by
  unfold State.failTake
  dsimp only
  split
  · exact State.event_obj _ _ _ _ (by decide) hk
  · rfl

theorem State.failOn_obj (s : State) (st : Status) {k : Nat} (hk : eventObject k = false) :
    (s.failOn st).obj k = s.obj k := by
  unfold State.failOn
  split
  · exact State.failTake_obj s hk
  · rfl

theorem State.advance_obj (s : State) (dt k : Nat) : (s.advance dt).obj k = s.obj k :=
  State.obj_congr (State.advance_objs s dt) k

/-! ## What stands in the log -/

theorem noGroup_log (seq : Nat) {f : Nat} (hf : f < 256) : NoGroup (logKey seq f) := by
  intro g hg
  simp only [logKey, objKey, Obj.hostEvents, Obj.releases]
  omega

theorem noGroup_nextSeq : NoGroup Obj.nextSeq := by
  intro g hg
  simp only [Obj.hostEvents, Obj.releases, Obj.nextSeq]
  omega

theorem logKey_inj {a b f g : Nat} (hf : f < 256) (hg : g < 256) (h : logKey a f = logKey b g) : f = g := by
  simp only [logKey, objKey] at h
  omega

theorem logKey_ne_header (seq f : Nat) (hf : f < 256) : logKey seq f ≠ Obj.nextSeq ∧ logKey seq f ≠ Obj.logOverruns := by
  simp only [logKey, objKey, Obj.nextSeq, Obj.logOverruns]
  omega

theorem logKey_mod (seq f : Nat) : logKey (((seq + 1) % 2 ^ 32 + 2 ^ 32 - 1) % 2 ^ 32) f = logKey seq f := by
  have h : (((seq + 1) % 2 ^ 32 + 2 ^ 32 - 1) % 2 ^ 32) % 256 = seq % 256 := by omega
  unfold logKey
  rw [h]

/-- A new entry carries its code, and NEXT_SEQ counts it. -/
theorem State.newEntry_entry (s : State) (code unit st detail ts take rep : Nat) :
    (s.newEntry code unit st detail ts take rep).obj (logKey (s.obj Obj.nextSeq) 4) = code ∧
      (s.newEntry code unit st detail ts take rep).obj Obj.nextSeq = (s.obj Obj.nextSeq + 1) % 2 ^ 32 := by
  have hl := fun f (h : f < 256) => logKey_ne_header (s.obj Obj.nextSeq) f h
  have hne : ∀ {f}, f < 256 → f ≠ 4 → logKey (s.obj Obj.nextSeq) 4 ≠ logKey (s.obj Obj.nextSeq) f :=
    fun h h1 e => h1 (logKey_inj (by decide) h e).symm
  have h5 := hne (show 5 < 256 by decide) (by decide)
  have h6 := hne (show 6 < 256 by decide) (by decide)
  have h7 := hne (show 7 < 256 by decide) (by decide)
  have h8 := hne (show 8 < 256 by decide) (by decide)
  have hn := fun f (h : f < 256) => (hl f h).1.symm
  simp only [State.newEntry]
  have key : ∀ t : State, t.obj (logKey (s.obj Obj.nextSeq) 4) = code ∧ t.obj Obj.nextSeq = (s.obj Obj.nextSeq + 1) % 2 ^ 32 →
      ∀ src, src < 512 → (t.raise src).obj (logKey (s.obj Obj.nextSeq) 4) = code ∧
        (t.raise src).obj Obj.nextSeq = (s.obj Obj.nextSeq + 1) % 2 ^ 32 := by
    intro t ht src hs
    rw [State.raise_obj_group t hs (noGroup_log _ (by decide)), State.raise_obj_group t hs noGroup_nextSeq]
    exact ht
  have base : ∀ v, (((((((((s.setObj (logKey (s.obj Obj.nextSeq) 1) (s.obj Obj.nextSeq)).setObj
      (logKey (s.obj Obj.nextSeq) 2) ts).setObj (logKey (s.obj Obj.nextSeq) 3) take).setObj
      (logKey (s.obj Obj.nextSeq) 4) code).setObj (logKey (s.obj Obj.nextSeq) 5) st).setObj
      (logKey (s.obj Obj.nextSeq) 6) unit).setObj (logKey (s.obj Obj.nextSeq) 7) v).setObj
      (logKey (s.obj Obj.nextSeq) 8) rep).addObj Obj.nextSeq 32 1).obj (logKey (s.obj Obj.nextSeq) 4) = code := by
    intro v
    rw [State.addObj_obj_ne _ _ _ (hl 4 (by decide)).1, State.setObj_obj_ne _ _ h8, State.setObj_obj_ne _ _ h7,
      State.setObj_obj_ne _ _ h6, State.setObj_obj_ne _ _ h5, State.setObj_obj_self]
  have next : ∀ v, (((((((((s.setObj (logKey (s.obj Obj.nextSeq) 1) (s.obj Obj.nextSeq)).setObj
      (logKey (s.obj Obj.nextSeq) 2) ts).setObj (logKey (s.obj Obj.nextSeq) 3) take).setObj
      (logKey (s.obj Obj.nextSeq) 4) code).setObj (logKey (s.obj Obj.nextSeq) 5) st).setObj
      (logKey (s.obj Obj.nextSeq) 6) unit).setObj (logKey (s.obj Obj.nextSeq) 7) v).setObj
      (logKey (s.obj Obj.nextSeq) 8) rep).addObj Obj.nextSeq 32 1).obj Obj.nextSeq = (s.obj Obj.nextSeq + 1) % 2 ^ 32 := by
    intro v
    rw [State.addObj_obj_self]
    rw [State.setObj_obj_ne _ _ (hn 8 (by decide)), State.setObj_obj_ne _ _ (hn 7 (by decide)),
      State.setObj_obj_ne _ _ (hn 6 (by decide)), State.setObj_obj_ne _ _ (hn 5 (by decide)),
      State.setObj_obj_ne _ _ (hn 4 (by decide)), State.setObj_obj_ne _ _ (hn 3 (by decide)),
      State.setObj_obj_ne _ _ (hn 2 (by decide)), State.setObj_obj_ne _ _ (hn 1 (by decide))]
  split
  · apply key _ _ _ (by decide)
    rw [State.incObj_obj_ne _ (hl 4 (by decide)).2, State.incObj_obj_ne _ (by decide)]
    exact key _ ⟨base _, next _⟩ _ (by decide)
  · exact key _ ⟨base _, next _⟩ _ (by decide)

/-- A logged event stands in the newest entry, or is counted before the journal restore. -/
theorem State.log_logged (s : State) (code unit : Nat) (st : Status) (detail : Nat) :
    Logged s (s.log code unit st detail) code := by
  intro hr
  simp only [State.log, hr]
  cases h : s.rst.restored with
  | false =>
    rw [if_neg (by simp)]
    simp only [Bool.not_false, if_true, if_false, Bool.false_eq_true]
    unfold State.earlyEvent
    split
    · rename_i he
      obtain ⟨e, h1, h2⟩ := List.any_eq_true.mp he
      have h2 : e.code = code := by simpa using h2
      exact ⟨_, List.mem_map.mpr ⟨e, h1, rfl⟩, by rw [if_pos h2]; exact h2⟩
    · exact ⟨_, List.mem_append_right _ (List.mem_singleton.mpr rfl), rfl⟩
  | true =>
    rw [if_pos rfl]
    simp only [Bool.not_true, Bool.false_eq_true, if_false]
    split
    · rename_i hc
      have hn : Obj.nextSeq ≠ logKey ((s.obj Obj.nextSeq + 2 ^ 32 - 1) % 2 ^ 32) 8 :=
        (logKey_ne_header _ 8 (by decide)).1.symm
      have h4 : logKey ((s.obj Obj.nextSeq + 2 ^ 32 - 1) % 2 ^ 32) 4 ≠ logKey ((s.obj Obj.nextSeq + 2 ^ 32 - 1) % 2 ^ 32) 8 :=
        fun e => absurd (logKey_inj (by decide) (by decide) e) (by decide)
      rw [State.setObj_obj_ne _ _ hn, State.setObj_obj_ne _ _ h4, State.setObj_obj_self]
      simp only [State.coalesces, Bool.and_eq_true, decide_eq_true_eq] at hc
      exact ⟨hc.1.1.1.1.2, .inr ⟨rfl, rfl⟩⟩
    · obtain ⟨h1, h2⟩ := s.newEntry_entry code unit (statusCode st) detail s.time.tb (s.obj Obj.lineTakeNumber) 0
      rw [h2, logKey_mod]
      exact ⟨h1, .inl rfl⟩

/-- An event stands in the newest entry of the log. -/
theorem State.event_logged (s : State) {src : Nat} (hs : src < 512) (unit : Nat) (st : Status) (detail : Nat) :
    Logged s (s.event src unit st detail) src := by
  have h := State.log_logged s src unit st detail
  unfold State.event
  split
  · rename_i hr
    intro hi
    have h := h hi
    rw [if_pos hr] at h ⊢
    dsimp only at h ⊢
    rw [State.raise_obj_group _ hs noGroup_nextSeq, State.raise_obj_group _ hs (noGroup_log _ (f := 4) (by decide)),
      State.raise_obj_group _ hs (noGroup_log _ (f := 8) (by decide))]
    exact h
  · exact h

end Sys2Proof.Machine
end

