-- ==== Sys2Proof/Laws/Complete.lean ====
section
/-!
SUPPORT. What completing a queue entry does: everything that State.complete leaves, said once (State.complete_spec).
-/

namespace Sys2Proof.Machine

open Sys2Proof

/-! ## What the parts of a completion keep -/

@[simp] theorem State.event_lt (s : State) (src unit : Nat) (st : Status) (d l : Nat) : (s.event src unit st d).lt l = s.lt l := by
  simp [State.lt]

@[simp] theorem State.event_pt (s : State) (src unit : Nat) (st : Status) (d p : Nat) : (s.event src unit st d).pt p = s.pt p := by
  simp [State.pt]

@[simp] theorem State.failTake_lt (s : State) (l : Nat) : s.failTake.lt l = s.lt l := by simp [State.lt]

@[simp] theorem State.failTake_pt (s : State) (p : Nat) : s.failTake.pt p = s.pt p := by simp [State.pt]

@[simp] theorem State.countFault_lt (s : State) (l : Nat) : s.countFault.lt l = s.lt l := by simp [State.lt]

@[simp] theorem State.countFault_pt (s : State) (p : Nat) : s.countFault.pt p = s.pt p := by simp [State.pt]

@[simp] theorem State.failOn_lt (s : State) (st : Status) (l : Nat) : (s.failOn st).lt l = s.lt l := by
  unfold State.failOn; split <;> simp

@[simp] theorem State.failOn_pt (s : State) (st : Status) (p : Nat) : (s.failOn st).pt p = s.pt p := by
  unfold State.failOn; split <;> simp

@[simp] theorem State.setLt_pt (s : State) (l p : Nat) (t : LogTile) : (s.setLt l t).pt p = s.pt p := rfl

@[simp] theorem State.setPt_lt (s : State) (l p : Nat) (t : PhysTile) : (s.setPt p t).lt l = s.lt l := rfl

@[simp] theorem State.forecast_lt (s : State) (l : Nat) : s.forecast.lt l = s.lt l := by
  unfold State.forecast
  split
  · rfl
  · dsimp only; split <;> simp [State.lt]

@[simp] theorem State.forecast_pt (s : State) (p : Nat) : s.forecast.pt p = s.pt p := by
  unfold State.forecast
  split
  · rfl
  · dsimp only; split <;> simp [State.pt]

@[simp] theorem State.forecast_mem (s : State) : s.forecast.mem = s.mem := by
  unfold State.forecast
  split
  · rfl
  · dsimp only; split <;> simp

/-! ## The host store -/

theorem State.sendVector_activation (s : State) (v : Nat) : (s.sendVector v).host.activation = s.host.activation := by
  unfold State.sendVector; split <;> rfl

theorem State.testRelease_activation (s : State) (g : Nat) : (s.testRelease g).host.activation = s.host.activation := by
  unfold State.testRelease
  split
  · rw [State.incObj_host, State.sendVector_activation]
  · rfl

theorem State.raise_activation (s : State) (src : Nat) : (s.raise src).host.activation = s.host.activation := by
  unfold State.raise
  split
  · rfl
  · rw [State.testRelease_activation]; simp

theorem State.newEntry_activation (s : State) (c u st d ts tk r : Nat) :
    (s.newEntry c u st d ts tk r).host.activation = s.host.activation := by
  simp only [State.newEntry, apply_ite State.host, apply_ite HostSt.activation, State.raise_activation,
    State.incObj_host, State.addObj_host, State.setObj_host, ite_self]

theorem State.log_activation (s : State) (c u : Nat) (st : Status) (d : Nat) :
    (s.log c u st d).host.activation = s.host.activation := by
  simp only [State.log, apply_ite State.host, apply_ite HostSt.activation, State.newEntry_activation,
    State.setObj_host, State.earlyEvent_host, ite_self]

@[simp] theorem State.event_activation (s : State) (src unit : Nat) (st : Status) (d : Nat) :
    (s.event src unit st d).host.activation = s.host.activation := by
  unfold State.event; split <;> simp only [State.raise_activation, State.log_activation]

@[simp] theorem State.failTake_activation (s : State) : s.failTake.host.activation = s.host.activation := by
  unfold State.failTake; dsimp only; split <;> simp

@[simp] theorem State.failOn_activation (s : State) (st : Status) : (s.failOn st).host.activation = s.host.activation := by
  unfold State.failOn; split <;> simp

@[simp] theorem State.forecast_activation (s : State) : s.forecast.host.activation = s.host.activation := by
  unfold State.forecast
  split
  · rfl
  · dsimp only; split <;> simp

/-! ## Before the judgement -/

@[simp] theorem State.wakeBlock_lt (s : State) (b : Block) (l : Nat) : (s.wakeBlock b).lt l = s.lt l := by simp [State.lt]

@[simp] theorem State.wakeBlock_pt (s : State) (b : Block) (p : Nat) : (s.wakeBlock b).pt p = s.pt p := by simp [State.pt]

@[simp] theorem State.wakeBlock_obj (s : State) (b : Block) (k : Nat) : (s.wakeBlock b).obj k = s.obj k :=
  State.obj_congr (State.wakeBlock_objs s b) k

/-- Waking a tile and what its requests take changes no tile but in its Idle mark. -/
theorem State.activate_pt (s : State) (p q : Nat) :
    ((s.activate p).pt q).store = (s.pt q).store ∧ ((s.activate p).pt q).am = (s.pt q).am ∧
      ((s.activate p).pt q).occupied = (s.pt q).occupied := by
  unfold State.activate
  simp only [State.wakeBlock_pt]
  split
  · by_cases h : q = p
    · subst h; simp
    · rw [State.setPt_pt_ne _ _ h]; exact ⟨rfl, rfl, rfl⟩
  · exact ⟨rfl, rfl, rfl⟩

@[simp] theorem State.activate_lt (s : State) (p l : Nat) : (s.activate p).lt l = s.lt l := by simp [State.lt]

@[simp] theorem State.activate_obj (s : State) (p k : Nat) : (s.activate p).obj k = s.obj k :=
  State.obj_congr (by simp) k

/-- Reporting a mask changes the reports of the open take alone. -/
theorem State.reportMask_spec (s : State) (x : Nat) (d : Done) :
    ∃ r b c, s.reportMask x d = { s with take := { s.take with maskReports := r, trimRan := b, tipinRan := c } } := by
  unfold State.reportMask
  split
  · exact ⟨_, _, _, rfl⟩
  · split <;> exact ⟨_, _, _, rfl⟩

/-- The state in which a completion writes its record: the unit's result with its findings counted and its event raised. -/
def Done.reported (d : Done) (l p : Nat) (e : QEntry) : State :=
  (((d.s.activate p).reportMask e.x d).countFindings l p d.rejected d.oor).doneEvent l e.x d

theorem State.countFindings_pt (s : State) (l p r o q : Nat) :
    ((s.countFindings l p r o).pt q).store = (s.pt q).store ∧ ((s.countFindings l p r o).pt q).am = (s.pt q).am ∧
      ((s.countFindings l p r o).pt q).occupied = (s.pt q).occupied := by
  unfold State.countFindings
  dsimp only
  by_cases h : q = p
  · subst h; (repeat' split) <;> simp
  · (repeat' split) <;> simp [State.setPt_pt_ne _ _ h]

@[simp] theorem State.countFindings_lt (s : State) (l p r o k : Nat) : (s.countFindings l p r o).lt k = s.lt k := by
  simp [State.lt]

@[simp] theorem State.commandEvent_lt (s : State) (l x : Nat) (st : Status) (k : Nat) :
    (s.commandEvent l x st).lt k = s.lt k := by simp [State.lt]

@[simp] theorem State.commandEvent_pt (s : State) (l x : Nat) (st : Status) (p : Nat) :
    (s.commandEvent l x st).pt p = s.pt p := by simp [State.pt]

theorem State.countFindings_activation (s : State) (l p r o : Nat) :
    (s.countFindings l p r o).host.activation = s.host.activation := by
  unfold State.countFindings
  dsimp only
  (repeat' split) <;> simp

theorem State.commandEvent_activation (s : State) (l x : Nat) (st : Status) :
    (s.commandEvent l x st).host.activation = s.host.activation := by
  unfold State.commandEvent
  split <;> simp

theorem Done.reported_lt (d : Done) (l p : Nat) (e : QEntry) (k : Nat) : (d.reported l p e).lt k = d.s.lt k := by
  unfold Done.reported State.doneEvent
  obtain ⟨r, b, c, h⟩ := State.reportMask_spec (d.s.activate p) e.x d
  rw [h]
  split <;> simp [State.lt]

theorem Done.reported_pt (d : Done) (l p : Nat) (e : QEntry) (q : Nat) :
    ((d.reported l p e).pt q).store = (d.s.pt q).store ∧ ((d.reported l p e).pt q).am = (d.s.pt q).am ∧
      ((d.reported l p e).pt q).occupied = (d.s.pt q).occupied := by
  have h1 := State.activate_pt d.s p q
  obtain ⟨r, b, c, h⟩ := State.reportMask_spec (d.s.activate p) e.x d
  have h2 := State.countFindings_pt ((d.s.activate p).reportMask e.x d) l p d.rejected d.oor q
  have h3 : ((d.s.activate p).reportMask e.x d).pt q = (d.s.activate p).pt q := by rw [h]; rfl
  rw [h3] at h2
  unfold Done.reported State.doneEvent
  split
  · exact ⟨h2.1.trans h1.1, h2.2.1.trans h1.2.1, h2.2.2.trans h1.2.2⟩
  · rw [State.commandEvent_pt]; exact ⟨h2.1.trans h1.1, h2.2.1.trans h1.2.1, h2.2.2.trans h1.2.2⟩

theorem Done.reported_mem (d : Done) (l p : Nat) (e : QEntry) : (d.reported l p e).mem = d.s.mem := by
  unfold Done.reported State.doneEvent
  obtain ⟨r, b, c, h⟩ := State.reportMask_spec (d.s.activate p) e.x d
  rw [h]
  split <;> simp

theorem Done.reported_time (d : Done) (l p : Nat) (e : QEntry) : (d.reported l p e).time = d.s.time := by
  unfold Done.reported State.doneEvent
  obtain ⟨r, b, c, h⟩ := State.reportMask_spec (d.s.activate p) e.x d
  rw [h]
  split <;> simp

theorem Done.reported_activation (d : Done) (l p : Nat) (e : QEntry) :
    (d.reported l p e).host.activation = d.s.host.activation := by
  unfold Done.reported State.doneEvent
  obtain ⟨r, b, c, h⟩ := State.reportMask_spec (d.s.activate p) e.x d
  rw [h]
  split <;> simp [State.countFindings_activation, State.commandEvent_activation]

@[simp] theorem State.setPt_obj (s : State) (p : Nat) (t : PhysTile) (k : Nat) : (s.setPt p t).obj k = s.obj k := rfl

@[simp] theorem State.setLt_obj (s : State) (l : Nat) (t : LogTile) (k : Nat) : (s.setLt l t).obj k = s.obj k := rfl

theorem Done.reported_obj (d : Done) (l p : Nat) (e : QEntry) {k : Nat} (hk : eventObject k = false) :
    (d.reported l p e).obj k = d.s.obj k := by
  have ha : ∀ (s : State) (u : Nat) (st : Status) (n : Nat), (s.event 0xA0 u st n).obj k = s.obj k :=
    fun s u st n => State.event_obj s u st n (by decide) hk
  have hb : ∀ (s : State) (u : Nat) (st : Status) (n : Nat), (s.event 0xA1 u st n).obj k = s.obj k :=
    fun s u st n => State.event_obj s u st n (by decide) hk
  have hc : ∀ (s : State) (u : Nat) (st : Status) (n : Nat), (s.event 0xC0 u st n).obj k = s.obj k :=
    fun s u st n => State.event_obj s u st n (by decide) hk
  obtain ⟨r, b, c, h⟩ := State.reportMask_spec (d.s.activate p) e.x d
  have hr : ((d.s.activate p).reportMask e.x d).obj k = d.s.obj k := by
    rw [h]; exact State.activate_obj d.s p k
  unfold Done.reported State.doneEvent State.commandEvent State.countFindings
  dsimp only
  (repeat' split) <;> simp only [ha, hb, hc, State.setPt_obj, hr]

/-! ## The judgement -/

/-- Counting a fault of an earlier detection writes answers, dailies and objects. -/
theorem State.countFaultOf_tiles (s : State) (n : Option Nat) : (s.countFaultOf n).tiles = s.tiles := by
  unfold State.countFaultOf
  (repeat' split) <;> simp

theorem State.countFaultOf_phys (s : State) (n : Option Nat) : (s.countFaultOf n).phys = s.phys := by
  unfold State.countFaultOf
  (repeat' split) <;> simp

theorem State.countFaultOf_mem (s : State) (n : Option Nat) : (s.countFaultOf n).mem = s.mem := by
  unfold State.countFaultOf
  (repeat' split) <;> simp

theorem State.countFaultOf_host (s : State) (n : Option Nat) : (s.countFaultOf n).host = s.host := by
  unfold State.countFaultOf
  (repeat' split) <;> simp

/-- Masking a fault changes of the tiles only the faults that the tile still waits to mask. -/
theorem State.maskEcc_tiles (s : State) (l : Nat) (e : QEntry) :
    (s.maskEcc l e).tiles = s.tiles ∨ ∃ f, (s.maskEcc l e).tiles = (s.setLt l { s.lt l with eccFaults := f }).tiles := by
  unfold State.maskEcc
  dsimp only
  split
  · exact .inr ⟨_, State.countFaultOf_tiles _ _⟩
  · exact .inl rfl

theorem State.maskEcc_phys (s : State) (l : Nat) (e : QEntry) : (s.maskEcc l e).phys = s.phys := by
  unfold State.maskEcc
  dsimp only
  split <;> simp [State.countFaultOf_phys]

theorem State.maskEcc_mem (s : State) (l : Nat) (e : QEntry) : (s.maskEcc l e).mem = s.mem := by
  unfold State.maskEcc
  dsimp only
  split <;> simp [State.countFaultOf_mem]

theorem State.maskEcc_host (s : State) (l : Nat) (e : QEntry) : (s.maskEcc l e).host = s.host := by
  unfold State.maskEcc
  dsimp only
  split <;> simp [State.countFaultOf_host]

theorem State.judge_lt_ne (s : State) (l : Nat) (e : QEntry) (st : Status) {k : Nat} (h : k ≠ l) :
    (s.judge l e st).lt k = s.lt k := by
  unfold State.judge
  split
  · unfold State.onEccLost
    dsimp only
    (repeat' split) <;> simp [State.lt]
    all_goals exact State.setLt_lt_ne _ _ h
  · unfold State.lt
    rw [State.failOn_tiles]
    split
    · rfl
    · obtain h1 | ⟨f, h1⟩ := State.maskEcc_tiles s l e
      · rw [h1]
      · rw [h1]; exact State.setLt_lt_ne _ _ h

/-- Judging changes of a logical tile only whether its replay in place will start and the faults that wait to be masked. -/
theorem State.judge_lt (s : State) (l : Nat) (e : QEntry) (st : Status) :
    ∃ r f, (s.judge l e st).lt l = { s.lt l with replayPending := r, eccFaults := f } := by
  unfold State.judge
  split
  · unfold State.onEccLost
    dsimp only
    (repeat' split) <;> simp <;> exact ⟨_, _, rfl⟩
  · unfold State.lt
    rw [State.failOn_tiles]
    split
    · exact ⟨_, _, rfl⟩
    · obtain h1 | ⟨f, h1⟩ := State.maskEcc_tiles s l e
      · rw [h1]; exact ⟨_, _, rfl⟩
      · rw [h1]; exact ⟨_, f, State.setLt_lt_self _ _ _⟩

theorem State.judge_pt (s : State) (l : Nat) (e : QEntry) (st : Status) (p : Nat) : (s.judge l e st).pt p = s.pt p := by
  unfold State.judge State.onEccLost
  dsimp only
  (repeat' split) <;> simp [State.pt, State.maskEcc_phys]

theorem State.judge_mem (s : State) (l : Nat) (e : QEntry) (st : Status) : (s.judge l e st).mem = s.mem := by
  unfold State.judge State.onEccLost State.failOn
  dsimp only
  (repeat' split) <;> simp [State.maskEcc_mem]

theorem State.judge_activation (s : State) (l : Nat) (e : QEntry) (st : Status) :
    (s.judge l e st).host.activation = s.host.activation := by
  unfold State.judge State.onEccLost
  dsimp only
  (repeat' split) <;> simp [State.maskEcc_host]

/-! ## Issuing -/

/-- Issuing keeps status and record of every place of the history. -/
theorem issueHist_get (c : Nat) (q : List QEntry) (h : List HistEntry) (i : Nat) (a : HistEntry)
    (ha : h[i]? = some a) :
    ∃ b, (q.foldl (fun h e => h.modify e.pos (fun a => if a.step.isNone then { a with step := some c } else a)) h)[i]? =
      some b ∧ b.status = a.status ∧ b.record = a.record := by
  induction q generalizing h a with
  | nil => exact ⟨a, ha, rfl, rfl⟩
  | cons e q ih =>
    rw [List.foldl_cons]
    have : ∃ b, (h.modify e.pos (fun a => if a.step.isNone then { a with step := some c } else a))[i]? = some b ∧
        b.status = a.status ∧ b.record = a.record := by
      rw [List.getElem?_modify]
      split
      · rw [ha]; refine ⟨_, rfl, ?_⟩; dsimp only; split <;> exact ⟨rfl, rfl⟩
      · exact ⟨a, by simpa using ha, rfl, rfl⟩
    obtain ⟨b, hb, h1, h2⟩ := this
    obtain ⟨b', hb', h3, h4⟩ := ih _ b hb
    exact ⟨b', hb', h3.trans h1, h4.trans h2⟩

theorem setHistStatus_get (h : List HistEntry) (pos : Nat) (st : Option Status) (a : HistEntry) (ha : h[pos]? = some a) :
    (setHistStatus h pos st)[pos]? = some { a with status := st, done := true } := by
  simp [setHistStatus, ha]

/-! ## Completion -/

/-- Everything that completing an entry leaves. -/
theorem State.complete_spec (l p n : Nat) (e : QEntry) (d : Done) : Completed l p n e d (State.complete l p n e d) := by
  -- the tile as it is written before the judgement
  let s := d.reported l p e
  let r := completionRecord e.x (statusCode d.status) l p n d.count0 d.count1 (s.obj Obj.lineTakeNumber) s.time.tb
  let t1 := if recordWanted e.x d.status then (s.lt l).writeRecord r else s.lt l
  let s1 := (s.setLt l t1).judge l e d.status
  let t3 : LogTile := { ((s1.lt l).countCycles e n).endStep e.x (s1.obj Obj.shedLevel) with
    queue := (s1.lt l).queue.filter (fun q => q.id != e.id),
    hist := setHistStatus (s1.lt l).hist e.pos (some d.status),
    run := (s1.lt l).run.map (fun (m : List Nat) => m.filter (fun i => i != e.id)),
    staged := (s1.lt l).staged.map (fun (m : List Nat) => m.filter (fun i => i != e.id)) }
  have hc : State.complete l p n e d = if e.isReplay && t3.replayOver then (s1.setLt l t3.issue).forecast
      else s1.setLt l t3.issue := rfl
  obtain ⟨rp, ef, hj⟩ := State.judge_lt (s.setLt l t1) l e d.status
  have hlt : (State.complete l p n e d).lt l = t3.issue := by rw [hc]; split <;> simp
  have hpt : ∀ q, (State.complete l p n e d).pt q = s.pt q := by
    intro q; rw [hc]; split <;> simp [s1, State.judge_pt]
  have hs1 : s1.lt l = { t1 with replayPending := rp, eccFaults := ef } := by simp only [s1, hj, State.setLt_lt_self]
  have hs : s.lt l = d.s.lt l := d.reported_lt l p e l
  have htake : s.obj Obj.lineTakeNumber = d.s.obj Obj.lineTakeNumber := d.reported_obj l p e (by decide)
  have htb : s.time = d.s.time := d.reported_time l p e
  have hq : t1.queue = (d.s.lt l).queue := by simp only [t1, hs]; split <;> rfl
  have hh : t1.hist = (d.s.lt l).hist := by simp only [t1, hs]; split <;> rfl
  have hf : t1.flags = (d.s.lt l).flags := by simp only [t1, hs]; split <;> rfl
  have hd : t1.completed = (d.s.lt l).completed := by simp only [t1, hs]; split <;> rfl
  have hst : t1.stepCtr = (d.s.lt l).stepCtr := by simp only [t1, hs]; split <;> rfl
  constructor
  · intro q
    rw [hlt]
    simp [LogTile.issue, t3, hs1, hq]
  · intro h hh'
    rw [hlt]
    have h1 : t3.hist[e.pos]? = some { h with status := some d.status, done := true } := by
      simp only [t3, hs1, hh]
      exact setHistStatus_get _ _ _ _ hh'
    obtain ⟨b, hb, h2, h3⟩ := issueHist_get t3.stepCtr (t3.queue.take ((t3.queue.takeWhile
      (fun e => recOpcode e.x != opWait)).length + 1)) t3.hist e.pos _ h1
    exact ⟨b, hb, h2, h3⟩
  · rw [hlt]
    simp only [LogTile.issue, t3, LogTile.endStep, LogTile.countCycles, hs1]
    split <;> simp [hd]
  · rw [hlt]
    simp only [LogTile.issue, t3, LogTile.endStep, LogTile.countCycles, hs1]
    split <;> simp [hst]
  · rw [hlt]
    have : t3.issue.writeIndex = t1.writeIndex := by
      simp only [LogTile.issue, t3, LogTile.endStep, LogTile.countCycles, hs1]; split <;> rfl
    rw [this]
    simp only [t1, hs]
    split <;> simp_all [LogTile.writeRecord]
  · intro i
    rw [hlt]
    have : t3.issue.ring = t1.ring := by
      simp only [LogTile.issue, t3, LogTile.endStep, LogTile.countCycles, hs1]; split <;> rfl
    rw [this]
    simp only [t1, hs]
    by_cases hw : recordWanted e.x d.status = true
    · simp only [hw, if_true, LogTile.writeRecord, Tab.look_put, true_and, r, htake, htb]
    · simp [hw]
  · rw [hlt]
    simp only [LogTile.issue, t3, LogTile.endStep, LogTile.countCycles, hs1]
    split <;> simp [hf]
  · intro k hk
    have h1 : s1.lt k = d.s.lt k := by
      simp only [s1, State.judge_lt_ne _ _ _ _ hk, State.setLt_lt_ne _ _ hk]; exact d.reported_lt l p e k
    rw [hc]
    split <;> simp [State.setLt_lt_ne _ _ hk, h1]
  · have h1 : s1.mem = d.s.mem := by simp only [s1, State.judge_mem, State.setLt_mem]; exact d.reported_mem l p e
    rw [hc]
    split <;> simp [h1]
  · intro q
    rw [hpt]
    exact d.reported_pt l p e q
  · have h1 : s1.host.activation = d.s.host.activation := by
      simp only [s1, State.judge_activation, State.setLt_host]; exact d.reported_activation l p e
    rw [hc]
    split <;> simp [h1]

/-! ## Work -/

/-- A unit whose entry passes its checks does what Works names. -/
theorem Works.eff_eq {s : State} {l p : Nat} {e : QEntry} {eff : State → Nat → Nat → QEntry → Done} {d : Done}
    (h : Works s l p e eff d) : eff s l p e = d := by
  cases h with
  | move h1 h2 => unfold moveEff; dsimp only; rw [if_neg (by simp [h1]), h2]
  | fold h1 h2 => unfold foldEff; simp only [h1, h2]; rfl
  | drain h1 h2 h3 => unfold drainEff; simp only [h1, h2, h3]; rfl
  | update h1 h2 h3 => unfold updateEff; simp only [h1, h2, h3]; rfl
  | vec r h1 h2 => unfold vecEff; simp only [h1, h2]; rfl
  | trim h1 h2 => unfold trimEff; simp only [h1, h2]; rfl
  | tipin h1 h2 h3 h4 =>
    unfold tipinEff
    simp only [h2, h3, h4, if_false]
    rw [if_neg]
    rintro (⟨a, b⟩ | h)
    · rcases h1 with h | h
      · exact h a
      · simp [h] at b
    · exact absurd h (by simp)
  | scan h1 h2 h3 h4 => unfold scanEff; simp [h1, h2, h3, h4]
  | check h1 h2 => unfold checkEff; simp only [h1, h2]; rfl
  | select h => unfold selectEff; simp only [h]
  | combine h => unfold combineEff; simp only [h]
  | rand h1 h2 => unfold randEff; simp only [h1, h2]; rfl
  | signalAdd h1 h2 h3 => unfold signalAddEff; simp [h1, h3, snFlags, Nat.not_le.mpr h2]
  | armCue h1 h2 =>
    have : ¬ (1024 ≤ s.take.cues.length) := Nat.not_le.mpr h2
    unfold armCueEff State.armCue State.armCueAt; simp [h1, this]

end Sys2Proof.Machine
end

