-- ==== Sys2Proof/Laws/HbmFrame.lean ====
section
/-!
SUPPORT. The operations of the model that leave HBM alone.
-/

namespace Sys2Proof.Machine

open Sys2Proof

@[simp] theorem foldl_mem_hbm {β : Type} (g : State → β → State) (l : List β) (s : State) (h : ∀ t b, (g t b).mem.hbm = t.mem.hbm) : (l.foldl g s).mem.hbm = s.mem.hbm := by
  induction l generalizing s with
  | nil => rfl
  | cons a l ih => rw [List.foldl_cons, ih, h]

@[simp] theorem foldl1_mem_hbm {α β : Type} (g : State × α → β → State × α) (l : List β) (x : State × α) (h : ∀ t b, (g t b).1.mem.hbm = t.1.mem.hbm) : (l.foldl g x).1.mem.hbm = x.1.mem.hbm := by
  induction l generalizing x with
  | nil => rfl
  | cons a l ih => rw [List.foldl_cons, ih, h]

@[simp] theorem State.setObj_mem_hbm (s : State) (k : Nat) (v : Nat) :
    (State.setObj s k v).mem.hbm = s.mem.hbm := by
  simp [State.setObj, *]

@[simp] theorem State.addObj_mem_hbm (s : State) (k : Nat) (bits : Nat) (n : Nat) :
    (State.addObj s k bits n).mem.hbm = s.mem.hbm := by
  simp [State.addObj, *]

@[simp] theorem State.incObj_mem_hbm (s : State) (k : Nat) :
    (State.incObj s k).mem.hbm = s.mem.hbm := by
  simp [State.incObj, *]

@[simp] theorem State.wakeBlock_mem_hbm (s : State) (b : Block) :
    (State.wakeBlock s b).mem.hbm = s.mem.hbm := by
  unfold State.wakeBlock; (repeat' split) <;> simp [*]

@[simp] theorem State.emit_mem_hbm (s : State) (o : Out) :
    (State.emit s o).mem.hbm = s.mem.hbm := by
  simp [State.emit, *]

@[simp] theorem State.useFree_mem_hbm (s : State) :
    (State.useFree s).mem.hbm = s.mem.hbm := by
  simp [State.useFree, *]

@[simp] theorem State.setLt_mem_hbm (s : State) (l : Nat) (t : LogTile) :
    (State.setLt s l t).mem.hbm = s.mem.hbm := by
  simp [State.setLt, *]

@[simp] theorem State.setPt_mem_hbm (s : State) (p : Nat) (t : PhysTile) :
    (State.setPt s p t).mem.hbm = s.mem.hbm := by
  simp [State.setPt, *]

@[simp] theorem State.storeWrite_mem_hbm (s : State) (p : Nat) (a : Nat) (bs : List Byte) :
    (State.storeWrite s p a bs).mem.hbm = s.mem.hbm := by
  simp [State.storeWrite, *]

@[simp] theorem State.setCore_mem_hbm (s : State) (c : Nat) (k : CoreSt) :
    (State.setCore s c k).mem.hbm = s.mem.hbm := by
  simp [State.setCore, *]

@[simp] theorem State.interruptCore_mem_hbm (s : State) (c : Nat) :
    (State.interruptCore s c).mem.hbm = s.mem.hbm := by
  unfold State.interruptCore; simp only []; (repeat' split) <;> simp [*]

@[simp] theorem State.interruptCores_mem_hbm (s : State) :
    (State.interruptCores s).mem.hbm = s.mem.hbm := by
  simp [State.interruptCores, *]

@[simp] theorem State.sendVector_mem_hbm (s : State) (v : Nat) :
    (State.sendVector s v).mem.hbm = s.mem.hbm := by
  unfold State.sendVector; simp only []; (repeat' split) <;> simp [*]

@[simp] theorem State.testRelease_mem_hbm (s : State) (g : Nat) :
    (State.testRelease s g).mem.hbm = s.mem.hbm := by
  unfold State.testRelease; simp only []; (repeat' split) <;> simp [*]

@[simp] theorem State.setPending_mem_hbm (s : State) (src : Nat) :
    (State.setPending s src).mem.hbm = s.mem.hbm := by
  simp [State.setPending, *]

@[simp] theorem State.raise_mem_hbm (s : State) (src : Nat) :
    (State.raise s src).mem.hbm = s.mem.hbm := by
  unfold State.raise; (repeat' split) <;> simp [*]

@[simp] theorem State.newEntry_mem_hbm (s : State) (code : Nat) (unit : Nat) (status : Nat) (detail : Nat) (ts : Nat) (take : Nat) (repeats : Nat) :
    (State.newEntry s code unit status detail ts take repeats).mem.hbm = s.mem.hbm := by
  simp only [State.newEntry, apply_ite State.mem, apply_ite MemSt.hbm, State.raise_mem_hbm, State.incObj_mem_hbm, State.addObj_mem_hbm, State.setObj_mem_hbm, ite_self]

@[simp] theorem State.earlyEvent_mem_hbm (s : State) (code : Nat) (unit : Nat) (status : Nat) (detail : Nat) :
    (State.earlyEvent s code unit status detail).mem.hbm = s.mem.hbm := by
  unfold State.earlyEvent; (repeat' split) <;> simp [*]

@[simp] theorem State.log_mem_hbm (s : State) (code : Nat) (unit : Nat) (status : Status) (detail : Nat) :
    (State.log s code unit status detail).mem.hbm = s.mem.hbm := by
  simp only [State.log, apply_ite State.mem, apply_ite MemSt.hbm, State.earlyEvent_mem_hbm, State.newEntry_mem_hbm, State.setObj_mem_hbm, ite_self]

@[simp] theorem State.event_mem_hbm (s : State) (src : Nat) (unit : Nat) (status : Status) (detail : Nat) :
    (State.event s src unit status detail).mem.hbm = s.mem.hbm := by
  unfold State.event; (repeat' split) <;> simp [*]

@[simp] theorem State.flushEarly_mem_hbm (s : State) :
    (State.flushEarly s).mem.hbm = s.mem.hbm := by
  unfold State.flushEarly; (try dsimp only); (repeat' split) <;> (first | (simp_all; done) | (rw [foldl_mem_hbm]; intro t b; (repeat' split) <;> simp_all))

@[simp] theorem State.maskFault_mem_hbm (s : State) :
    (State.maskFault s).mem.hbm = s.mem.hbm := by
  unfold State.maskFault; simp only []; (repeat' split) <;> simp [*]

@[simp] theorem State.markFaultAnswers_mem_hbm (s : State) :
    (State.markFaultAnswers s).mem.hbm = s.mem.hbm := by
  simp [State.markFaultAnswers, *]

@[simp] theorem State.countFault_mem_hbm (s : State) :
    (State.countFault s).mem.hbm = s.mem.hbm := by
  simp [State.countFault, *]

@[simp] theorem State.failTake_mem_hbm (s : State) :
    (State.failTake s).mem.hbm = s.mem.hbm := by
  unfold State.failTake; simp only []; (repeat' split) <;> simp [*]

@[simp] theorem State.failOn_mem_hbm (s : State) (st : Status) :
    (State.failOn s st).mem.hbm = s.mem.hbm := by
  unfold State.failOn; (repeat' split) <;> simp [*]

@[simp] theorem State.countTb_mem_hbm (s : State) (dt : Nat) :
    (State.countTb s dt).mem.hbm = s.mem.hbm := by
  unfold State.countTb; (repeat' split) <;> simp [*]

@[simp] theorem State.applyCal_mem_hbm (s : State) (n : Nat) (sub : Nat) :
    (State.applyCal s n sub).mem.hbm = s.mem.hbm := by
  simp [State.applyCal, *]

@[simp] theorem State.applyCals_mem_hbm (s : State) (n : Nat) :
    (State.applyCals s n).mem.hbm = s.mem.hbm := by
  simp [State.applyCals, *]

@[simp] theorem State.latchLot_mem_hbm (s : State) :
    (State.latchLot s).mem.hbm = s.mem.hbm := by
  simp [State.latchLot, *]

@[simp] theorem State.latchInputsAt_mem_hbm (s : State) (t : Nat) :
    (State.latchInputsAt s t).mem.hbm = s.mem.hbm := by
  unfold State.latchInputsAt; (repeat' split) <;> simp [*]

@[simp] theorem State.latchInputs_mem_hbm (s : State) :
    (State.latchInputs s).mem.hbm = s.mem.hbm := by
  simp [State.latchInputs]

@[simp] theorem State.freeRun_mem_hbm (s : State) (since : Nat) :
    (State.freeRun s since).mem.hbm = s.mem.hbm := by
  unfold State.freeRun; simp only []; (repeat' split) <;> simp [*]

@[simp] theorem State.sync1Latch_mem_hbm (s : State) :
    (State.sync1Latch s).mem.hbm = s.mem.hbm := by
  unfold State.sync1Latch; simp only []; (repeat' split) <;> simp [*]

@[simp] theorem State.advance_mem_hbm (s : State) (dt : Nat) :
    (State.advance s dt).mem.hbm = s.mem.hbm := by
  simp [State.advance]

@[simp] theorem State.wakeStacks_mem_hbm (s : State) (a : Nat) (n : Nat) :
    (State.wakeStacks s a n).mem.hbm = s.mem.hbm := by
  unfold State.wakeStacks; (repeat' split) <;> simp [*]

@[simp] theorem State.noteEccLost_mem_hbm (s : State) (a : Nat) :
    (State.noteEccLost s a).mem.hbm = s.mem.hbm := by
  simp [State.noteEccLost, *]

@[simp] theorem State.emitWrites_mem_hbm (s : State) (a : Nat) (bs : List Byte) :
    (State.emitWrites s a bs).mem.hbm = s.mem.hbm := by
  simp [State.emitWrites]

@[simp] theorem State.emitReads_mem_hbm (s : State) (a : Nat) (n : Nat) :
    (State.emitReads s a n).mem.hbm = s.mem.hbm := by
  simp [State.emitReads]

@[simp] theorem State.hostStorePiece_mem_hbm (s : State) (a : Nat) (bs : List Byte) :
    (State.hostStorePiece s a bs).mem.hbm = s.mem.hbm := by
  unfold State.hostStorePiece; simp only []; (repeat' split) <;> simp [*]

@[simp] theorem State.hostStoreWrite_mem_hbm (s : State) (a : Nat) (bs : List Byte) :
    (State.hostStoreWrite s a bs).mem.hbm = s.mem.hbm := by
  unfold State.hostStoreWrite; simp only []; (repeat' split) <;> simp [*]

@[simp] theorem State.repairWords_mem_hbm (s : State) (p : Nat) (used : List Nat) :
    (State.repairWords s p used).1.mem.hbm = s.mem.hbm := by
  unfold State.repairWords; simp only []; (repeat' split) <;> simp [*]

@[simp] theorem State.repairParity_mem_hbm (s : State) (l : Nat) (p : Nat) (stream : Nat) (drawn : List Nat) :
    (State.repairParity s l p stream drawn).1.mem.hbm = s.mem.hbm := by
  unfold State.repairParity; simp only []; (repeat' split) <;> simp [*]

@[simp] theorem State.deliver_mem_hbm (s : State) (l : Nat) (id : Nat) (elem : Nat) (vals : List Val) :
    (State.deliver s l id elem vals).mem.hbm = s.mem.hbm := by
  unfold State.deliver; simp only []; (repeat' split) <;> simp [*]

@[simp] theorem State.noteSaturation_mem_hbm (s : State) (l : Nat) (cls : Nat) (sats : Nat) :
    (State.noteSaturation s l cls sats).mem.hbm = s.mem.hbm := by
  unfold State.noteSaturation; simp only []; (repeat' split) <;> simp [*]

@[simp] theorem State.forecast_mem_hbm (s : State) :
    (State.forecast s).mem.hbm = s.mem.hbm := by
  unfold State.forecast; simp only []; (repeat' split) <;> simp [*]

@[simp] theorem Done.only_mem_hbm (s : State) (st : Status) :
    (Done.only s st).s.mem.hbm = s.mem.hbm := by
  simp [Done.only, *]

@[simp] theorem State.reportMask_mem_hbm (s : State) (x : Nat) (d : Done) :
    (State.reportMask s x d).mem.hbm = s.mem.hbm := by
  unfold State.reportMask; (repeat' split) <;> simp [*]

@[simp] theorem State.commandEvent_mem_hbm (s : State) (l : Nat) (x : Nat) (st : Status) :
    (State.commandEvent s l x st).mem.hbm = s.mem.hbm := by
  unfold State.commandEvent; (repeat' split) <;> simp [*]

@[simp] theorem State.doneEvent_mem_hbm (s : State) (l : Nat) (x : Nat) (d : Done) :
    (State.doneEvent s l x d).mem.hbm = s.mem.hbm := by
  unfold State.doneEvent; (repeat' split) <;> simp [*]

@[simp] theorem State.countFindings_mem_hbm (s : State) (l : Nat) (p : Nat) (rejected : Nat) (oor : Nat) :
    (State.countFindings s l p rejected oor).mem.hbm = s.mem.hbm := by
  unfold State.countFindings; simp only []; (repeat' split) <;> simp [*]

@[simp] theorem State.onEccLost_mem_hbm (s : State) (l : Nat) (e : QEntry) :
    (State.onEccLost s l e).mem.hbm = s.mem.hbm := by
  unfold State.onEccLost; simp only []; (repeat' split) <;> simp [*]

@[simp] theorem State.countFaultOf_mem_hbm (s : State) (take : Option Nat) :
    (State.countFaultOf s take).mem.hbm = s.mem.hbm := by
  unfold State.countFaultOf; simp only []; (repeat' split) <;> simp [*]

@[simp] theorem State.maskEcc_mem_hbm (s : State) (l : Nat) (e : QEntry) :
    (State.maskEcc s l e).mem.hbm = s.mem.hbm := by
  unfold State.maskEcc; simp only []; (repeat' split) <;> simp [*]

@[simp] theorem State.judge_mem_hbm (s : State) (l : Nat) (e : QEntry) (st : Status) :
    (State.judge s l e st).mem.hbm = s.mem.hbm := by
  unfold State.judge; (repeat' split) <;> simp [*]

@[simp] theorem State.activate_mem_hbm (s : State) (p : Nat) :
    (State.activate s p).mem.hbm = s.mem.hbm := by
  unfold State.activate; simp only []; (repeat' split) <;> simp [*]

@[simp] theorem State.complete_mem_hbm (l : Nat) (p : Nat) (cycles : Nat) (e : QEntry) (d : Done) :
    (State.complete l p cycles e d).mem.hbm = d.s.mem.hbm := by
  unfold State.complete; simp only []; (repeat' split) <;> simp [*]

@[simp] theorem State.correct_mem_hbm (s : State) (p : Nat) (found : List Nat × List Nat) :
    (State.correct s p found).1.mem.hbm = s.mem.hbm := by
  unfold State.correct; (repeat' split) <;> simp [*]

@[simp] theorem Done.heal_mem_hbm (s : State) (p : Nat) (x : Nat) (d : Done) :
    (Done.heal s p x d).s.mem.hbm = d.s.mem.hbm := by
  simp [Done.heal]

@[simp] theorem State.runUnit_mem_hbm (s : State) (l : Nat) (cycles : Nat) (mine : Nat → Bool) (eff : State → Nat → Nat → QEntry → Done) (heff : ∀ t l p e, (eff t l p e).s.mem.hbm = t.mem.hbm) :
    (State.runUnit s l cycles mine eff).mem.hbm = s.mem.hbm := by
  unfold State.runUnit; simp only []; (repeat' split) <;> simp [*]

@[simp] theorem State.replayInPlace_mem_hbm (s : State) (l : Nat) :
    (State.replayInPlace s l).mem.hbm = s.mem.hbm := by
  unfold State.replayInPlace; simp only []; (repeat' split) <;> simp [*]

@[simp] theorem State.clearSlot_mem_hbm (s : State) (p : Nat) (slot : Nat) :
    (State.clearSlot s p slot).mem.hbm = s.mem.hbm := by
  simp only [State.clearSlot, apply_ite State.mem, apply_ite MemSt.hbm, State.setPt_mem_hbm, ite_self]

@[simp] theorem State.accumulate_mem_hbm (s : State) (p : Nat) (x : Nat) (o : Product) (outs : List (Option (List F32))) :
    (State.accumulate s p x o outs).mem.hbm = s.mem.hbm := by
  unfold State.accumulate; simp only []; (repeat' split) <;> simp [*]

@[simp] theorem State.productRun_mem_hbm (s : State) (p : Nat) (x : Nat) (o : Product) :
    (State.productRun s p x o).s.mem.hbm = s.mem.hbm := by
  simp [State.productRun]

@[simp] theorem State.formRun_mem_hbm (s : State) (l : Nat) :
    (State.formRun s l).mem.hbm = s.mem.hbm := by
  unfold State.formRun; simp only []; (repeat' split) <;> simp [*]

@[simp] theorem State.multiply_mem_hbm (s : State) (l : Nat) (op : Nat) :
    (State.multiply s l op).mem.hbm = s.mem.hbm := by
  unfold State.multiply; simp only []; (repeat' split) <;> simp [*]

@[simp] theorem ArrayDone.done_mem_hbm (d : ArrayDone) (s : State) :
    (ArrayDone.done d s).s.mem.hbm = s.mem.hbm := by
  rfl

@[simp] theorem State.completeRun_mem_hbm (s : State) (l : Nat) (cycles : Nat) :
    (State.completeRun s l cycles).mem.hbm = s.mem.hbm := by
  unfold State.completeRun; simp only []; (repeat' split) <;> simp [*]

@[simp] theorem State.startPhase_mem_hbm (s : State) (c : BitVec 128) :
    (State.startPhase s c).mem.hbm = s.mem.hbm := by
  unfold State.startPhase; (repeat' split) <;> simp [*]

@[simp] theorem State.cueFlags_mem_hbm (s : State) (c : BitVec 128) :
    (State.cueFlags s c).mem.hbm = s.mem.hbm := by
  unfold State.cueFlags; simp only []; (repeat' split) <;> simp [*]

@[simp] theorem State.cueFails_mem_hbm (s : State) (c : BitVec 128) :
    (State.cueFails s c).mem.hbm = s.mem.hbm := by
  simp [State.cueFails, *]

@[simp] theorem State.cueEffect_mem_hbm (s : State) (c : BitVec 128) :
    (State.cueEffect s c).mem.hbm = s.mem.hbm := by
  unfold State.cueEffect; (repeat' split) <;> simp [*]

@[simp] theorem State.fireCue_mem_hbm (s : State) (a : ArmedCue) :
    (State.fireCue s a).mem.hbm = s.mem.hbm := by
  unfold State.fireCue; simp only []; (repeat' split) <;> simp [*]

@[simp] theorem State.fireDueAt_mem_hbm (s : State) (t : Nat) :
    (State.fireDueAt s t).mem.hbm = s.mem.hbm := by
  unfold State.fireDueAt; (repeat' split) <;> simp [*]

@[simp] theorem State.fireDue_mem_hbm (s : State) :
    (State.fireDue s).mem.hbm = s.mem.hbm := by
  simp [State.fireDue, *]

@[simp] theorem State.armCueAt_mem_hbm (s : State) (ts : Nat) (c : BitVec 128) (ofNew : Bool) :
    (State.armCueAt s ts c ofNew).1.mem.hbm = s.mem.hbm := by
  unfold State.armCueAt; simp only []; (repeat' split) <;> simp [*]

@[simp] theorem State.armCue_mem_hbm (s : State) (c : BitVec 128) (ofNew : Bool) :
    (State.armCue s c ofNew).1.mem.hbm = s.mem.hbm := by
  simp [State.armCue]

@[simp] theorem State.armReel_mem_hbm (s : State) (ts : Nat) (r : Reel) (ofNew : Bool) :
    (State.armReel s ts r ofNew).mem.hbm = s.mem.hbm := by
  simp [State.armReel]

@[simp] theorem State.closeCues_mem_hbm (s : State) :
    (State.closeCues s).mem.hbm = s.mem.hbm := by
  simp [State.closeCues, *]

@[simp] theorem State.abandonActivation_mem_hbm (s : State) :
    (State.abandonActivation s).mem.hbm = s.mem.hbm := by
  unfold State.abandonActivation; simp only []; (repeat' split) <;> simp [*]

@[simp] theorem State.startSteps_mem_hbm (s : State) (r : Reel) :
    (State.startSteps s r).mem.hbm = s.mem.hbm := by
  simp [State.startSteps, *]

@[simp] theorem State.deferralEvents_mem_hbm (s : State) :
    (State.deferralEvents s).mem.hbm = s.mem.hbm := by
  unfold State.deferralEvents; (try dsimp only); (repeat' split) <;> (first | (simp_all; done) | (rw [foldl_mem_hbm]; intro t b; (repeat' split) <;> simp_all))

@[simp] theorem State.freezeDailies_mem_hbm (s : State) (kind : Nat) (ts : Nat) :
    (State.freezeDailies s kind ts).mem.hbm = s.mem.hbm := by
  unfold State.freezeDailies; simp only []; (repeat' split) <;> simp [*]

@[simp] theorem State.switchDailies_mem_hbm (s : State) :
    (State.switchDailies s).mem.hbm = s.mem.hbm := by
  unfold State.switchDailies; simp only []; (repeat' split) <;> simp [*]

@[simp] theorem State.countOverruns_mem_hbm (s : State) :
    (State.countOverruns s).mem.hbm = s.mem.hbm := by
  simp [State.countOverruns, *]

@[simp] theorem State.countLimited_mem_hbm (s : State) :
    (State.countLimited s).mem.hbm = s.mem.hbm := by
  unfold State.countLimited; (repeat' split) <;> simp [*]

@[simp] theorem State.setPort_mem_hbm (s : State) (k : Nat) (p : Port) :
    (State.setPort s k p).mem.hbm = s.mem.hbm := by
  simp [State.setPort, *]

@[simp] theorem State.emitEntry_mem_hbm (s : State) (k : Nat) (e : TxEntry) :
    (State.emitEntry s k e).mem.hbm = s.mem.hbm := by
  unfold State.emitEntry; (repeat' split) <;> simp [*]

@[simp] theorem State.pumpPort_mem_hbm (k : Nat) (x1 : Nat) (x2 : Option (Nat × Nat)) (x3 : State) :
    (State.pumpPort k x1 x2 x3).mem.hbm = x3.mem.hbm := by
  (induction x1 generalizing k x2 x3 with | zero => (simp [State.pumpPort] <;> done) | succ n ih => (unfold State.pumpPort; (try dsimp only); (repeat' split) <;> simp_all))

@[simp] theorem State.pump_mem_hbm (s : State) (k : Nat) :
    (State.pump s k).mem.hbm = s.mem.hbm := by
  simp [State.pump, *]

@[simp] theorem State.queueOn_mem_hbm (s : State) (k : Nat) (e : TxEntry) :
    (State.queueOn s k e).mem.hbm = s.mem.hbm := by
  simp [State.queueOn]

@[simp] theorem State.forward_mem_hbm (s : State) (e : TxEntry) :
    (State.forward s e).mem.hbm = s.mem.hbm := by
  unfold State.forward; (repeat' split) <;> simp [*]

@[simp] theorem State.routeOrDrop_mem_hbm (s : State) (via : Via) (q : Packet) :
    (State.routeOrDrop s via q).mem.hbm = s.mem.hbm := by
  unfold State.routeOrDrop; (repeat' split) <;> simp [*]

@[simp] theorem State.bumpFabric_mem_hbm (s : State) (sub : Nat) (n : Nat) :
    (State.bumpFabric s sub n).mem.hbm = s.mem.hbm := by
  simp [State.bumpFabric, *]

@[simp] theorem Done.answered_mem_hbm (s : State) (st : Status) (dispatch : Bool) :
    (Done.answered s st dispatch).s.mem.hbm = s.mem.hbm := by
  rfl

@[simp] theorem State.answered_mem_hbm (s : State) (tile : Nat) (dst : Nat) (seq : Nat) (st : Status) :
    (State.answered s tile dst seq st).mem.hbm = s.mem.hbm := by
  unfold State.answered; simp only []; (repeat' split) <;> simp [*]

@[simp] theorem State.respond_mem_hbm (s : State) (via : Via) (q : Packet) (st : Status) :
    (State.respond s via q st).mem.hbm = s.mem.hbm := by
  unfold State.respond; (repeat' split) <;> simp [*]

@[simp] theorem State.noteRefusal_mem_hbm (s : State) (q : Packet) (st : Status) :
    (State.noteRefusal s q st).mem.hbm = s.mem.hbm := by
  simp [State.noteRefusal, *]

@[simp] theorem State.refuseOp_mem_hbm (s : State) (via : Via) (q : Packet) (st : Status) :
    (State.refuseOp s via q st).mem.hbm = s.mem.hbm := by
  unfold State.refuseOp; (repeat' split) <;> simp [*]

@[simp] theorem State.takeStepRecord_mem_hbm (s : State) (r : StepRecord) :
    (State.takeStepRecord s r).mem.hbm = s.mem.hbm := by
  unfold State.takeStepRecord; simp only []; (repeat' split) <;> simp [*]

@[simp] theorem State.setTrack_mem_hbm (s : State) (t : TransitTrack) :
    (State.setTrack s t).mem.hbm = s.mem.hbm := by
  rfl

@[simp] theorem State.seen_mem_hbm (s : State) (q : Packet) (st : Option Status) :
    (State.seen s q st).mem.hbm = s.mem.hbm := by
  rfl

@[simp] theorem State.discardOp_mem_hbm (s : State) (via : Via) (q : Packet) (st : Status) :
    (State.discardOp s via q st).mem.hbm = s.mem.hbm := by
  unfold State.discardOp; (repeat' split) <;> simp [*]

@[simp] theorem State.transit_mem_hbm (s : State) (e : TxEntry) :
    (State.transit s e).mem.hbm = s.mem.hbm := by
  unfold State.transit; (repeat' split) <;> simp [*]

@[simp] theorem State.routeIn_mem_hbm (s : State) (k : Nat) (q : Packet) (msg : Option ControlMsg) (y4 : State → State) (hy4 : ∀ t, (y4 t).mem.hbm = t.mem.hbm) :
    (State.routeIn s k q msg y4).mem.hbm = s.mem.hbm := by
  unfold State.routeIn; (repeat' split) <;> simp [*]

@[simp] theorem State.peerSwitch_mem_hbm (s : State) (k : Nat) (lane : Nat) :
    (State.peerSwitch s k lane).mem.hbm = s.mem.hbm := by
  unfold State.peerSwitch; simp only []; (repeat' split) <;> simp [*]

@[simp] theorem State.takeControl_mem_hbm (s : State) (k : Nat) (q : Packet) (msg : ControlMsg) :
    (State.takeControl s k q msg).mem.hbm = s.mem.hbm := by
  unfold State.takeControl; (repeat' split) <;> simp [*]

@[simp] theorem State.rebasePlant_mem_hbm (s : State) (bySlate : Bool) (ts : Nat) :
    (State.rebasePlant s bySlate ts).mem.hbm = s.mem.hbm := by
  simp [State.rebasePlant, *]

@[simp] theorem State.forceModes_mem_hbm (s : State) :
    (State.forceModes s).mem.hbm = s.mem.hbm := by
  simp [State.forceModes, *]

@[simp] theorem State.startFills_mem_hbm (s : State) (want : PhysTile → Bool) :
    (State.startFills s want).mem.hbm = s.mem.hbm := by
  simp [State.startFills, *]

@[simp] theorem State.dropActivation_mem_hbm (s : State) :
    (State.dropActivation s).mem.hbm = s.mem.hbm := by
  unfold State.dropActivation; (repeat' split) <;> simp [*]

@[simp] theorem State.closeTake_mem_hbm (s : State) (kind : Nat) (ts : Nat) :
    (State.closeTake s kind ts).mem.hbm = s.mem.hbm := by
  simp [State.closeTake, *]

@[simp] theorem State.setDensities_mem_hbm (s : State) :
    (State.setDensities s).mem.hbm = s.mem.hbm := by
  simp [State.setDensities, *]

@[simp] theorem State.forceTable_mem_hbm (s : State) :
    (State.forceTable s).mem.hbm = s.mem.hbm := by
  unfold State.forceTable; simp only []; (repeat' split) <;> simp [*]

@[simp] theorem State.openingFills_mem_hbm (s : State) :
    (State.openingFills s).mem.hbm = s.mem.hbm := by
  unfold State.openingFills; (repeat' split) <;> simp [*]

@[simp] theorem State.latchLevels_mem_hbm (s : State) (level : Nat) :
    (State.latchLevels s level).mem.hbm = s.mem.hbm := by
  simp [State.latchLevels, *]

@[simp] theorem State.startActivation_mem_hbm (s : State) (ts : Nat) :
    (State.startActivation s ts).mem.hbm = s.mem.hbm := by
  unfold State.startActivation; (repeat' split) <;> simp [*]

@[simp] theorem State.beginTake_mem_hbm (s : State) (selfSlated : Bool) (ts : Nat) :
    (State.beginTake s selfSlated ts).mem.hbm = s.mem.hbm := by
  simp [State.beginTake, *]

@[simp] theorem State.setOpeningLevel_mem_hbm (s : State) :
    (State.setOpeningLevel s).mem.hbm = s.mem.hbm := by
  simp [State.setOpeningLevel, *]

@[simp] theorem State.ignorePulse_mem_hbm (s : State) :
    (State.ignorePulse s).mem.hbm = s.mem.hbm := by
  unfold State.ignorePulse; (repeat' split) <;> simp [*]

@[simp] theorem State.stormSlate_mem_hbm (s : State) :
    (State.stormSlate s).mem.hbm = s.mem.hbm := by
  simp [State.stormSlate, *]

@[simp] theorem State.acceptSlate_mem_hbm (s : State) (ts : Nat) :
    (State.acceptSlate s ts).mem.hbm = s.mem.hbm := by
  simp [State.acceptSlate, *]

@[simp] theorem State.reanchor_mem_hbm (s : State) (ts : Nat) :
    (State.reanchor s ts).mem.hbm = s.mem.hbm := by
  simp [State.reanchor, *]

@[simp] theorem State.earlyViolation_mem_hbm (s : State) :
    (State.earlyViolation s).mem.hbm = s.mem.hbm := by
  simp [State.earlyViolation, *]

@[simp] theorem State.acceptAdv_mem_hbm (s : State) (ts : Nat) :
    (State.acceptAdv s ts).mem.hbm = s.mem.hbm := by
  simp [State.acceptAdv, *]

@[simp] theorem State.applyWaitingAdv_mem_hbm (s : State) (ts : Nat) :
    (State.applyWaitingAdv s ts).mem.hbm = s.mem.hbm := by
  unfold State.applyWaitingAdv; (repeat' split) <;> simp [*]

@[simp] theorem State.takeAdv_mem_hbm (s : State) (ts : Nat) :
    (State.takeAdv s ts).mem.hbm = s.mem.hbm := by
  unfold State.takeAdv; (repeat' split) <;> simp [*]

@[simp] theorem State.wakeTile_mem_hbm (s : State) (p : Nat) :
    (State.wakeTile s p).mem.hbm = s.mem.hbm := by
  unfold State.wakeTile; simp only []; (repeat' split) <;> simp [*]

@[simp] theorem State.stopClock_mem_hbm (s : State) (p : Nat) :
    (State.stopClock s p).mem.hbm = s.mem.hbm := by
  unfold State.stopClock; (repeat' split) <;> simp [*]

@[simp] theorem State.sleepTile_mem_hbm (s : State) (p : Nat) :
    (State.sleepTile s p).mem.hbm = s.mem.hbm := by
  unfold State.sleepTile; (repeat' split) <;> simp [*]

@[simp] theorem State.restReserve_mem_hbm (s : State) :
    (State.restReserve s).mem.hbm = s.mem.hbm := by
  unfold State.restReserve; (try dsimp only); (repeat' split) <;> (first | (simp_all; done) | (rw [foldl_mem_hbm]; intro t b; (repeat' split) <;> simp_all))

@[simp] theorem State.failActivation_mem_hbm (s : State) :
    (State.failActivation s).mem.hbm = s.mem.hbm := by
  unfold State.failActivation; simp only []; (repeat' split) <;> simp [*]

@[simp] theorem State.testWait_mem_hbm (s : State) (l : Nat) :
    (State.testWait s l).mem.hbm = s.mem.hbm := by
  unfold State.testWait; simp only []; (repeat' split) <;> simp [*]

@[simp] theorem State.addFlag_mem_hbm (s : State) (l : Nat) (f : Nat) (n : Nat) :
    (State.addFlag s l f n).mem.hbm = s.mem.hbm := by
  unfold State.addFlag; simp only []; (repeat' split) <;> simp [*]

@[simp] theorem State.hubStep_mem_hbm (s : State) (die : Nat) :
    (State.hubStep s die).mem.hbm = s.mem.hbm := by
  unfold State.hubStep; simp only []; (repeat' split) <;> simp [*]

@[simp] theorem signalAddEff_mem_hbm (s : State) (l : Nat) (_p : Nat) (e : QEntry) :
    (signalAddEff s l _p e).s.mem.hbm = s.mem.hbm := by
  unfold signalAddEff; simp only []; (repeat' split) <;> simp [*]

@[simp] theorem armCueEff_mem_hbm (s : State) (_l : Nat) (_p : Nat) (e : QEntry) :
    (armCueEff s _l _p e).s.mem.hbm = s.mem.hbm := by
  unfold armCueEff; simp only []; (repeat' split) <;> simp [*]

@[simp] theorem State.startWait_mem_hbm (s : State) (l : Nat) (p : Nat) (cycles : Nat) (e : QEntry) :
    (State.startWait s l p cycles e).mem.hbm = s.mem.hbm := by
  unfold State.startWait; simp only []; (repeat' split) <;> simp [*]

@[simp] theorem State.isolateEntry_mem_hbm (s : State) (l : Nat) (p : Nat) (e : QEntry) :
    (State.isolateEntry s l p e).mem.hbm = s.mem.hbm := by
  simp [State.isolateEntry, *]

@[simp] theorem State.noteUnplaced_mem_hbm (s : State) (l : Nat) :
    (State.noteUnplaced s l).mem.hbm = s.mem.hbm := by
  unfold State.noteUnplaced; (repeat' split) <;> simp [*]

@[simp] theorem State.dropRounds_mem_hbm (s : State) (l : Nat) :
    (State.dropRounds s l).mem.hbm = s.mem.hbm := by
  simp [State.dropRounds, *]

@[simp] theorem State.noteFence_mem_hbm (s : State) (b : Block) :
    (State.noteFence s b).mem.hbm = s.mem.hbm := by
  simp [State.noteFence, *]

@[simp] theorem State.fabricComesUp_mem_hbm (s : State) :
    (State.fabricComesUp s).mem.hbm = s.mem.hbm := by
  simp [State.fabricComesUp, *]

@[simp] theorem State.refreshFabric_mem_hbm (s : State) :
    (State.refreshFabric s).mem.hbm = s.mem.hbm := by
  unfold State.refreshFabric; simp only []; (repeat' split) <;> simp [*]

@[simp] theorem State.sendIdle_mem_hbm (s : State) (k : Nat) (nak : Bool) :
    (State.sendIdle s k nak).mem.hbm = s.mem.hbm := by
  simp [State.sendIdle, *]

@[simp] theorem State.returnCredits_mem_hbm (s : State) (k : Nat) :
    (State.returnCredits s k).mem.hbm = s.mem.hbm := by
  unfold State.returnCredits; (repeat' split) <;> simp [*]

@[simp] theorem State.sendIdentity_mem_hbm (s : State) (k : Nat) :
    (State.sendIdentity s k).mem.hbm = s.mem.hbm := by
  simp [State.sendIdentity, *]

@[simp] theorem State.trainPort_mem_hbm (s : State) (k : Nat) :
    (State.trainPort s k).mem.hbm = s.mem.hbm := by
  unfold State.trainPort; simp only []; (repeat' split) <;> simp [*]

@[simp] theorem State.requeue_mem_hbm (s : State) (k : Nat) (n : Nat) (e : TxEntry) :
    (State.requeue s k n e).mem.hbm = s.mem.hbm := by
  rfl

@[simp] theorem rerouteOne_mem_hbm (r : Rerouting) (e : TxEntry) :
    (rerouteOne r e).s.mem.hbm = r.s.mem.hbm := by
  unfold rerouteOne; simp only []; (repeat' split) <;> simp [*]

@[simp] theorem State.keepRefused_mem_hbm (s : State) (t : TransitTrack) :
    (State.keepRefused s t).mem.hbm = s.mem.hbm := by
  unfold State.keepRefused; (repeat' split) <;> simp [*]

@[simp] theorem foldlRerouting_mem_hbm {β : Type} (g : Rerouting → β → Rerouting) (l : List β) (x : Rerouting)
    (h : ∀ t b, (g t b).s.mem.hbm = t.s.mem.hbm) : (l.foldl g x).s.mem.hbm = x.s.mem.hbm := by
  induction l generalizing x with
  | nil => rfl
  | cons a l ih => rw [List.foldl_cons, ih, h]

@[simp] theorem State.reroute_mem_hbm (s : State) (es : List TxEntry) :
    (State.reroute s es).mem.hbm = s.mem.hbm := by
  simp [State.reroute]

@[simp] theorem State.portDown_mem_hbm (s : State) (k : Nat) (counted : Bool) :
    (State.portDown s k counted).mem.hbm = s.mem.hbm := by
  unfold State.portDown; simp only []; (repeat' split) <;> simp [*]

@[simp] theorem State.portComesUp_mem_hbm (s : State) (k : Nat) (rack : Nat) (pkg : Nat) (role : Nat) :
    (State.portComesUp s k rack pkg role).mem.hbm = s.mem.hbm := by
  simp [State.portComesUp, *]

@[simp] theorem State.meetPeer_mem_hbm (s : State) (k : Nat) (rack : Nat) (pkg : Nat) (role : Nat) :
    (State.meetPeer s k rack pkg role).mem.hbm = s.mem.hbm := by
  unfold State.meetPeer; simp only []; (repeat' split) <;> simp [*]

@[simp] theorem State.enablePorts_mem_hbm (s : State) :
    (State.enablePorts s).mem.hbm = s.mem.hbm := by
  unfold State.enablePorts; simp only []; (repeat' split) <;> simp [*]

@[simp] theorem State.darkenPorts_mem_hbm (s : State) :
    (State.darkenPorts s).mem.hbm = s.mem.hbm := by
  simp [State.darkenPorts, *]

@[simp] theorem State.retrainPorts_mem_hbm (s : State) :
    (State.retrainPorts s).mem.hbm = s.mem.hbm := by
  unfold State.retrainPorts; (repeat' split) <;> simp [*]

@[simp] theorem State.replayLink_mem_hbm (s : State) (k : Nat) :
    (State.replayLink s k).mem.hbm = s.mem.hbm := by
  unfold State.replayLink; simp only []; (repeat' split) <;> simp [*]

@[simp] theorem State.takeHeader_mem_hbm (s : State) (k : Nat) (q : Packet) :
    (State.takeHeader s k q).mem.hbm = s.mem.hbm := by
  unfold State.takeHeader; simp only []; (repeat' split) <;> simp [*]

@[simp] theorem State.requestReplay_mem_hbm (s : State) (k : Nat) :
    (State.requestReplay s k).mem.hbm = s.mem.hbm := by
  unfold State.requestReplay; simp only []; (repeat' split) <;> simp [*]

@[simp] theorem State.acceptPacket_mem_hbm (s : State) (k : Nat) (q : Packet) :
    (State.acceptPacket s k q).1.mem.hbm = s.mem.hbm := by
  unfold State.acceptPacket; simp only []; (repeat' split) <;> simp [*]

@[simp] theorem State.onPacket_mem_hbm (s : State) (k : Nat) (q : Packet) (act : State → State) (hact : ∀ t, (act t).mem.hbm = t.mem.hbm) :
    (State.onPacket s k q act).mem.hbm = s.mem.hbm := by
  unfold State.onPacket; simp only []; (repeat' split) <;> simp [*]

@[simp] theorem State.countClass2_mem_hbm (s : State) (l : Nat) (p : Nat) (elem : Nat) (n : Nat) :
    (State.countClass2 s l p elem n).mem.hbm = s.mem.hbm := by
  simp [State.countClass2, *]

@[simp] theorem State.clearAfter_mem_hbm (s : State) (p : Nat) (x : Nat) :
    (State.clearAfter s p x).mem.hbm = s.mem.hbm := by
  unfold State.clearAfter; (repeat' split) <;> simp [*]

@[simp] theorem vecDone_mem_hbm (w : WriteRes) (st : Status) (sats : Nat) (oor : Nat) :
    (vecDone w st sats oor).s.mem.hbm = w.s.mem.hbm := by
  rfl

@[simp] theorem vecEff_mem_hbm (r : Routine) (s : State) (l : Nat) (p : Nat) (e : QEntry) (hr : ∀ t l p x o, (r.run t l p x o).s.mem.hbm = t.mem.hbm) :
    (vecEff r s l p e).s.mem.hbm = s.mem.hbm := by
  unfold vecEff; simp only []; (repeat' split) <;> simp [*]

@[simp] theorem State.tallyPredictor_mem_hbm (s : State) (k : Nat) (audited : Nat) (misses : Nat) :
    (State.tallyPredictor s k audited misses).mem.hbm = s.mem.hbm := by
  simp [State.tallyPredictor, *]

@[simp] theorem State.putHeader_mem_hbm (s : State) (p : Nat) (a : Nat) (off : Nat) (n : Nat) (v : Nat) :
    (State.putHeader s p a off n v).mem.hbm = s.mem.hbm := by
  simp [State.putHeader, *]

@[simp] theorem State.setRecs_mem_hbm (s : State) (l : Nat) (a : Nat) (recs : List StageRec) :
    (State.setRecs s l a recs).mem.hbm = s.mem.hbm := by
  simp [State.setRecs, *]

@[simp] theorem State.routePackets_mem_hbm (s : State) (via : Via) (ps : List Packet) :
    (State.routePackets s via ps).mem.hbm = s.mem.hbm := by
  simp [State.routePackets]

@[simp] theorem State.sendMore_mem_hbm (s : State) (l : Nat) (i : Nat) (o : RemoteOp) :
    (State.sendMore s l i o).mem.hbm = s.mem.hbm := by
  unfold State.sendMore; simp only []; (repeat' split) <;> simp [*]

@[simp] theorem State.judgeDispatch_mem_hbm (s : State) (l : Nat) (ops : List RemoteOp) :
    (State.judgeDispatch s l ops).mem.hbm = s.mem.hbm := by
  unfold State.judgeDispatch; simp only []; (repeat' split) <;> simp [*]

@[simp] theorem State.finishEntry_mem_hbm (s : State) (l : Nat) (here : Option (Nat × Nat)) (id : Nat) (pos : Nat) (ops : List RemoteOp) :
    (State.finishEntry s l here id pos ops).mem.hbm = s.mem.hbm := by
  unfold State.finishEntry; simp only []; (repeat' split) <;> simp [*]

@[simp] theorem State.finishAll_mem_hbm (l : Nat) (here : Option (Nat × Nat)) (x2 : Nat) (x3 : State) :
    (State.finishAll l here x2 x3).mem.hbm = x3.mem.hbm := by
  (induction x2 generalizing x3 with | zero => (simp [State.finishAll] <;> done) | succ n ih => (unfold State.finishAll; (try dsimp only); (repeat' split) <;> simp_all))

@[simp] theorem RemotePlan.stop_mem_hbm (s : State) (st : Status) :
    (RemotePlan.stop s st).s.mem.hbm = s.mem.hbm := by
  simp [RemotePlan.stop, *]

@[simp] theorem planOne_mem_hbm (s : State) (o : OpSpec) :
    (planOne s o).s.mem.hbm = s.mem.hbm := by
  unfold planOne; (repeat' split) <;> simp [*]

@[simp] theorem planGet_mem_hbm (s : State) (_l : Nat) (p : Nat) (e : QEntry) :
    (planGet s _l p e).s.mem.hbm = s.mem.hbm := by
  unfold planGet; simp only []; (repeat' split) <;> simp [*]

@[simp] theorem planSignal_mem_hbm (s : State) (_l : Nat) (_p : Nat) (e : QEntry) :
    (planSignal s _l _p e).s.mem.hbm = s.mem.hbm := by
  unfold planSignal; (repeat' split) <;> simp [*]

@[simp] theorem planFence_mem_hbm (s : State) (_l : Nat) (_p : Nat) (e : QEntry) :
    (planFence s _l _p e).s.mem.hbm = s.mem.hbm := by
  unfold planFence; (repeat' split) <;> simp [*]

@[simp] theorem planDispatch_mem_hbm (s : State) (_l : Nat) (p : Nat) (e : QEntry) :
    (planDispatch s _l p e).s.mem.hbm = s.mem.hbm := by
  unfold planDispatch; simp only []; (repeat' split) <;> simp [*]

@[simp] theorem State.sendStepRecord_mem_hbm (s : State) (c : Nat) :
    (State.sendStepRecord s c).mem.hbm = s.mem.hbm := by
  unfold State.sendStepRecord; (try dsimp only); (repeat' split) <;> (first | (simp_all; done) | (rw [foldl_mem_hbm]; intro t b; (repeat' split) <;> simp_all))

@[simp] theorem State.closeOwn_mem_hbm (s : State) (c : Nat) :
    (State.closeOwn s c).mem.hbm = s.mem.hbm := by
  unfold State.closeOwn; simp only []; (repeat' split) <;> simp [*]

@[simp] theorem State.appendHistories_mem_hbm (s : State) (c : Nat) :
    (State.appendHistories s c).mem.hbm = s.mem.hbm := by
  simp [State.appendHistories, *]

@[simp] theorem State.updateLossScale_mem_hbm (s : State) (saturated : Bool) :
    (State.updateLossScale s saturated).mem.hbm = s.mem.hbm := by
  unfold State.updateLossScale; simp only []; (repeat' split) <;> simp [*]

@[simp] theorem State.finaliseStep_mem_hbm (s : State) (c : Nat) :
    (State.finaliseStep s c).mem.hbm = s.mem.hbm := by
  simp [State.finaliseStep, *]

@[simp] theorem State.setRx_mem_hbm (s : State) (r : RxStream) :
    (State.setRx s r).mem.hbm = s.mem.hbm := by
  simp [State.setRx, *]

@[simp] theorem State.answerTaken_mem_hbm (t : Taken) (e : Arrived) :
    (State.answerTaken t e).mem.hbm = t.s.mem.hbm := by
  unfold State.answerTaken; (repeat' split) <;> simp [*]

@[simp] theorem State.discardLate_mem_hbm (s : State) (q : Packet) :
    (State.discardLate s q).mem.hbm = s.mem.hbm := by
  simp [State.discardLate, *]

@[simp] theorem State.refuseUnnumbered_mem_hbm (s : State) (e : Arrived) :
    (State.refuseUnnumbered s e).mem.hbm = s.mem.hbm := by
  unfold State.refuseUnnumbered; (repeat' split) <;> simp [*]

@[simp] theorem State.wavelengthFails_mem_hbm (s : State) (k : Nat) (lane : Nat) :
    (State.wavelengthFails s k lane).mem.hbm = s.mem.hbm := by
  unfold State.wavelengthFails; simp only []; (repeat' split) <;> simp [*]

@[simp] theorem State.darkPort_mem_hbm (s : State) (k : Nat) :
    (State.darkPort s k).mem.hbm = s.mem.hbm := by
  unfold State.darkPort; simp only []; (repeat' split) <;> simp [*]

@[simp] theorem State.laserFalls_mem_hbm (s : State) (j : Nat) :
    (State.laserFalls s j).mem.hbm = s.mem.hbm := by
  simp [State.laserFalls, *]

@[simp] theorem State.markLost_mem_hbm (s : State) (i : Nat) :
    (State.markLost s i).mem.hbm = s.mem.hbm := by
  simp [State.markLost, *]

@[simp] theorem State.loseStack_mem_hbm (s : State) (i : Nat) :
    (State.loseStack s i).mem.hbm = s.mem.hbm := by
  unfold State.loseStack; (repeat' split) <;> simp [*]

@[simp] theorem State.closeGroup_mem_hbm (s : State) (g : Nat) (dir : Nat) :
    (State.closeGroup s g dir).mem.hbm = s.mem.hbm := by
  simp [State.closeGroup, *]

@[simp] theorem State.failLane_mem_hbm (s : State) (g : Nat) (dir : Nat) :
    (State.failLane s g dir).mem.hbm = s.mem.hbm := by
  unfold State.failLane; simp only []; (repeat' split) <;> simp [*]

@[simp] theorem State.forcePriorities_mem_hbm (s : State) (v : Tab Nat) :
    (State.forcePriorities s v).mem.hbm = s.mem.hbm := by
  simp [State.forcePriorities, *]

@[simp] theorem State.startCommit_mem_hbm (s : State) :
    (State.startCommit s).mem.hbm = s.mem.hbm := by
  simp [State.startCommit, *]

@[simp] theorem State.finishCommit_mem_hbm (s : State) :
    (State.finishCommit s).mem.hbm = s.mem.hbm := by
  simp [State.finishCommit, *]

@[simp] theorem State.retarget_mem_hbm (s : State) (old : Nat) (new : Nat) :
    (State.retarget s old new).mem.hbm = s.mem.hbm := by
  simp [State.retarget, *]

@[simp] theorem State.restartLoad_mem_hbm (s : State) (role : Nat) :
    (State.restartLoad s role).mem.hbm = s.mem.hbm := by
  unfold State.restartLoad; (repeat' split) <;> simp [*]

@[simp] theorem State.restartWrite_mem_hbm (s : State) (role : Nat) :
    (State.restartWrite s role).mem.hbm = s.mem.hbm := by
  unfold State.restartWrite; simp only []; (repeat' split) <;> simp [*]

@[simp] theorem State.moveRole_mem_hbm (s : State) (new : Nat) (role : Nat) :
    (State.moveRole s new role).mem.hbm = s.mem.hbm := by
  simp [State.moveRole, *]

@[simp] theorem State.fenceCore_mem_hbm (s : State) (c : Nat) :
    (State.fenceCore s c).mem.hbm = s.mem.hbm := by
  unfold State.fenceCore; simp only []; (repeat' split) <;> simp [*]

@[simp] theorem State.clearPend_mem_hbm (s : State) (group : Nat) (bits : Nat) :
    (State.clearPend s group bits).mem.hbm = s.mem.hbm := by
  rfl

@[simp] theorem State.endInterrupt_mem_hbm (s : State) (c : Nat) :
    (State.endInterrupt s c).mem.hbm = s.mem.hbm := by
  unfold State.endInterrupt; simp only []; (repeat' split) <;> simp [*]

@[simp] theorem State.logRaise_mem_hbm (s : State) (src : Nat) :
    (State.logRaise s src).mem.hbm = s.mem.hbm := by
  unfold State.logRaise; simp only []; (repeat' split) <;> simp [*]

@[simp] theorem State.raiseBits_mem_hbm (s : State) (group : Nat) (bits : Nat) :
    (State.raiseBits s group bits).mem.hbm = s.mem.hbm := by
  unfold State.raiseBits; (try dsimp only); (repeat' split) <;> (first | (simp_all; done) | (rw [foldl_mem_hbm]; intro t b; (repeat' split) <;> simp_all) | (rw [foldl1_mem_hbm]; intro t b; (repeat' split) <;> simp_all))

@[simp] theorem State.writeSrcCfg_mem_hbm (s : State) (src : Nat) (v : Nat) :
    (State.writeSrcCfg s src v).mem.hbm = s.mem.hbm := by
  unfold State.writeSrcCfg; simp only []; (repeat' split) <;> simp [*]

@[simp] theorem State.ctlWrite_mem_hbm (s : State) (off : Nat) (v : Nat) :
    (State.ctlWrite s off v).mem.hbm = s.mem.hbm := by
  unfold State.ctlWrite; (repeat' split) <;> simp [*]

@[simp] theorem State.ctlAccess_mem_hbm (s : State) (off : Nat) (write : Option Nat) :
    (State.ctlAccess s off write).mem.hbm = s.mem.hbm := by
  unfold State.ctlAccess; (repeat' split) <;> simp [*]

@[simp] theorem State.haltCore_mem_hbm (s : State) (c : Nat) (on : Bool) :
    (State.haltCore s c on).mem.hbm = s.mem.hbm := by
  unfold State.haltCore; (repeat' split) <;> simp [*]

@[simp] theorem State.sramWrite_mem_hbm (s : State) (a : Nat) (bs : List Byte) :
    (State.sramWrite s a bs).mem.hbm = s.mem.hbm := by
  rfl

@[simp] theorem State.sramRead_mem_hbm (s : State) (a n : Nat) :
    (State.sramRead s a n).1.mem.hbm = s.mem.hbm := by
  unfold State.sramRead; (repeat' split) <;> simp [*]

@[simp] theorem State.debugAccess_mem_hbm (s : State) (op : DebugOp) :
    (State.debugAccess s op).mem.hbm = s.mem.hbm := by
  unfold State.debugAccess; (repeat' split) <;> simp [*]

@[simp] theorem State.sendPending_mem_hbm (s : State) (v : Nat) :
    (State.sendPending s v).mem.hbm = s.mem.hbm := by
  unfold State.sendPending; simp only []; (repeat' split) <;> simp [*]

@[simp] theorem State.sendAllPending_mem_hbm (s : State) :
    (State.sendAllPending s).mem.hbm = s.mem.hbm := by
  simp [State.sendAllPending, *]

@[simp] theorem State.unmaskVector_mem_hbm (s : State) (v : Nat) :
    (State.unmaskVector s v).mem.hbm = s.mem.hbm := by
  simp [State.unmaskVector, *]

@[simp] theorem State.maskVector_mem_hbm (s : State) (v : Nat) :
    (State.maskVector s v).mem.hbm = s.mem.hbm := by
  simp [State.maskVector, *]

@[simp] theorem State.withValues_mem_hbm (s : State) (index : Nat) (vs : List (Nat × Nat)) :
    (State.withValues s index vs).mem.hbm = s.mem.hbm := by
  simp [State.withValues, *]

@[simp] theorem State.programSlot_mem_hbm (s : State) (r : BitVec 256) :
    (State.programSlot s r).mem.hbm = s.mem.hbm := by
  simp [State.programSlot, *]

@[simp] theorem State.programRecord_mem_hbm (r : BitVec 256) (x1 : Nat) (x2 : List (BitVec 256)) (x3 : State) :
    (State.programRecord r x1 x2 x3).1.mem.hbm = x3.mem.hbm := by
  induction x2 generalizing r x1 x3 <;> (unfold State.programRecord; (try dsimp only); (repeat' split) <;> simp_all)

@[simp] theorem State.programAll_mem_hbm (x0 : List (Nat × Nat × Nat)) (x1 : List (BitVec 256)) (x2 : State) :
    (State.programAll x0 x1 x2).1.mem.hbm = x2.mem.hbm := by
  (induction x0 generalizing x1 x2 with | nil => (simp [State.programAll] <;> done) | cons a b ih => (unfold State.programAll; (try dsimp only); (repeat' split) <;> simp_all))

@[simp] theorem State.writeSnapshot_mem_hbm (s : State) (region : Nat) (generation : Nat) :
    (State.writeSnapshot s region generation).mem.hbm = s.mem.hbm := by
  simp [State.writeSnapshot, *]

@[simp] theorem State.startCompaction_mem_hbm (s : State) :
    (State.startCompaction s).mem.hbm = s.mem.hbm := by
  unfold State.startCompaction; simp only []; (repeat' split) <;> simp [*]

@[simp] theorem State.compactIfFull_mem_hbm (s : State) :
    (State.compactIfFull s).mem.hbm = s.mem.hbm := by
  unfold State.compactIfFull; (repeat' split) <;> simp [*]

@[simp] theorem State.eraseOld_mem_hbm (s : State) (region : Nat) :
    (State.eraseOld s region).mem.hbm = s.mem.hbm := by
  simp [State.eraseOld, *]

@[simp] theorem State.loadValues_mem_hbm (s : State) (v : Tab Nat) :
    (State.loadValues s v).mem.hbm = s.mem.hbm := by
  simp [State.loadValues, *]

@[simp] theorem State.restoreJournal_mem_hbm (s : State) :
    (State.restoreJournal s).mem.hbm = s.mem.hbm := by
  unfold State.restoreJournal; simp only []; (repeat' split) <;> simp [*]

@[simp] theorem State.refreshAlert_mem_hbm (s : State) :
    (State.refreshAlert s).mem.hbm = s.mem.hbm := by
  unfold State.refreshAlert; simp only []; (repeat' split) <;> simp [*]

@[simp] theorem State.clearTable_mem_hbm (s : State) :
    (State.clearTable s).mem.hbm = s.mem.hbm := by
  simp [State.clearTable, *]

@[simp] theorem State.entryStatus_mem_hbm (s : State) (st : Status) :
    (State.entryStatus s st).mem.hbm = s.mem.hbm := by
  unfold State.entryStatus; split <;> simp

@[simp] theorem State.writeEntry_mem_hbm (s : State) (high : Bool) (v : Nat) :
    (State.writeEntry s high v).mem.hbm = s.mem.hbm := by
  simp [State.writeEntry, *]

@[simp] theorem State.writeScale_mem_hbm (s : State) (sub : Nat) (v : Nat) :
    (State.writeScale s sub v).mem.hbm = s.mem.hbm := by
  unfold State.writeScale; simp only []; (repeat' split) <;> simp [*]

@[simp] theorem State.writeTakeControl_mem_hbm (s : State) (v : Nat) :
    (State.writeTakeControl s v).mem.hbm = s.mem.hbm := by
  unfold State.writeTakeControl; simp only []; (repeat' split) <;> simp [*]

@[simp] theorem State.writePower_mem_hbm (s : State) (v : Nat) :
    (State.writePower s v).mem.hbm = s.mem.hbm := by
  unfold State.writePower; simp only []; (repeat' split) <;> simp [*]

@[simp] theorem State.writeDuplex_mem_hbm (s : State) (v : Nat) :
    (State.writeDuplex s v).mem.hbm = s.mem.hbm := by
  simp [State.writeDuplex, *]

@[simp] theorem State.eraseJournal_mem_hbm (s : State) :
    (State.eraseJournal s).mem.hbm = s.mem.hbm := by
  simp [State.eraseJournal, *]

@[simp] theorem State.writeCal_mem_hbm (s : State) (n : Nat) (sub : Nat) (v : Nat) :
    (State.writeCal s n sub v).mem.hbm = s.mem.hbm := by
  unfold State.writeCal; simp only []; (repeat' split) <;> simp [*]

@[simp] theorem State.writeThreshold_mem_hbm (s : State) (sub : Nat) (v : Nat) :
    (State.writeThreshold s sub v).mem.hbm = s.mem.hbm := by
  simp [State.writeThreshold, *]

@[simp] theorem State.commandCompaction_mem_hbm (s : State) :
    (State.commandCompaction s).mem.hbm = s.mem.hbm := by
  simp [State.commandCompaction, *]

@[simp] theorem State.haltServer_mem_hbm (s : State) :
    (State.haltServer s).mem.hbm = s.mem.hbm := by
  simp [State.haltServer, *]

@[simp] theorem State.refuse_mem_hbm (s : State) (path : Path) (a : Access) (r : Refused) :
    (State.refuse s path a r).1.mem.hbm = s.mem.hbm := by
  unfold State.refuse; simp only []; (repeat' split) <;> simp [*]

@[simp] theorem State.settleRead_mem_hbm (s : State) (path : Path) (a : Access) (x : Except Refused (List Byte)) :
    (State.settleRead s path a x).1.mem.hbm = s.mem.hbm := by
  unfold State.settleRead; simp only []; (repeat' split) <;> simp [*]

@[simp] theorem State.completeRequest_mem_hbm (s : State) (tag : Nat) (st : Status) (response : Tab Byte) :
    (State.completeRequest s tag st response).mem.hbm = s.mem.hbm := by
  simp [State.completeRequest, *]

@[simp] theorem State.finishJob_mem_hbm (s : State) (j : Job) (rest : List Job) :
    (State.finishJob s j rest).mem.hbm = s.mem.hbm := by
  unfold State.finishJob; simp only []; (repeat' split) <;> simp [*]

@[simp] theorem State.answerFront_mem_hbm (s : State) (j : Job) (a : Access) (as : List Access) (rest : List Job) (r : Reply) :
    (State.answerFront s j a as rest r).mem.hbm = s.mem.hbm := by
  unfold State.answerFront; simp only []; (repeat' split) <;> simp [*]

@[simp] theorem State.reportAer_mem_hbm (s : State) (kind : Nat) :
    (State.reportAer s kind).mem.hbm = s.mem.hbm := by
  rfl

@[simp] theorem State.tlpViolation_mem_hbm (s : State) (kind : Nat) :
    (State.tlpViolation s kind).mem.hbm = s.mem.hbm := by
  unfold State.tlpViolation; (repeat' split) <;> simp [*]

@[simp] theorem State.unsupportedWrite_mem_hbm (s : State) :
    (State.unsupportedWrite s).mem.hbm = s.mem.hbm := by
  simp [State.unsupportedWrite, *]

@[simp] theorem State.busyIgnored_mem_hbm (s : State) :
    (State.busyIgnored s).mem.hbm = s.mem.hbm := by
  simp [State.busyIgnored, *]

@[simp] theorem State.endLoad_mem_hbm (s : State) (st : Status) (table : Tab (BitVec 128)) :
    (State.endLoad s st table).mem.hbm = s.mem.hbm := by
  unfold State.endLoad; (repeat' split) <;> simp [*]

@[simp] theorem State.commandDone_mem_hbm (s : State) (st : Status) :
    (State.commandDone s st).mem.hbm = s.mem.hbm := by
  unfold State.commandDone; (repeat' split) <;> simp [*]

@[simp] theorem State.compactNow_mem_hbm (s : State) :
    (State.compactNow s).mem.hbm = s.mem.hbm := by
  unfold State.compactNow; simp only []; (repeat' split) <;> simp [*]

@[simp] theorem State.compactionFails_mem_hbm (s : State) :
    (State.compactionFails s).mem.hbm = s.mem.hbm := by
  unfold State.compactionFails; simp only []; (repeat' split) <;> simp [*]

@[simp] theorem State.finishErase_mem_hbm (s : State) (i : Nat) :
    (State.finishErase s i).mem.hbm = s.mem.hbm := by
  unfold State.finishErase; (repeat' split) <;> simp [*]

@[simp] theorem State.refuseCoe_mem_hbm (s : State) (r : Refused) (detail : Nat) :
    (State.refuseCoe s r detail).mem.hbm = s.mem.hbm := by
  simp [State.refuseCoe, *]

@[simp] theorem State.useContext_mem_hbm (s : State) :
    (State.useContext s).mem.hbm = s.mem.hbm := by
  simp [State.useContext, *]

@[simp] theorem State.refuseContext_mem_hbm (s : State) (st : Status) :
    (State.refuseContext s st).mem.hbm = s.mem.hbm := by
  simp [State.refuseContext, *]

@[simp] theorem State.putPlaces_mem_hbm (s : State) (p : Nat) (x2 : List (Nat × Nat)) (x3 : List Byte) :
    (State.putPlaces s p x2 x3).mem.hbm = s.mem.hbm := by
  induction x2 generalizing s p x3 <;> simp_all [State.putPlaces]

@[simp] theorem State.putMemories_mem_hbm (s : State) (p : Nat) (store : List Byte) (am : List Byte) (regs : List Byte) :
    (State.putMemories s p store am regs).mem.hbm = s.mem.hbm := by
  simp [State.putMemories, *]

theorem State.putTile_mem_hbm (s : State) (l : Nat) (bs : List Byte) {t : _} (h : (State.putTile s l bs) = some t) :
    t.1.mem.hbm = s.mem.hbm := by
  simp only [State.putTile] at h; (repeat' split at h) <;> first | (simp at h; done) | (injection h with h; subst h; simp; done) | (simp_all; done) | (simp at h; obtain ⟨h, -⟩ := h; subst h; simp; done) | (simp at h; subst h; simp)

theorem State.putTiles_mem_hbm (s : State) (x1 : List Nat) (x2 : List Byte) {t : State} (h : (State.putTiles s x1 x2) = some t) :
    t.mem.hbm = s.mem.hbm := by
  (induction x1 generalizing s x2 with | nil => (unfold State.putTiles at h; split at h; (cases h; rfl); cases h) | cons a b ih => (unfold State.putTiles at h; split at h; (rename_i t1 r1 heq; rw [ih _ _ h]; exact State.putTile_mem_hbm _ _ _ heq); cases h))

@[simp] theorem State.readFuses_mem_hbm (s : State) :
    (State.readFuses s).mem.hbm = s.mem.hbm := by
  rfl

@[simp] theorem State.programFirmware_mem_hbm (s : State) (bs : List Byte) :
    (State.programFirmware s bs).1.mem.hbm = s.mem.hbm := by
  simp [State.programFirmware, *]

@[simp] theorem State.useFrees_mem_hbm (s : State) (n : Nat) :
    (State.useFrees s n).mem.hbm = s.mem.hbm := by
  simp [State.useFrees, *]

@[simp] theorem State.latchOther_mem_hbm (s : State) :
    (State.latchOther s).mem.hbm = s.mem.hbm := by
  simp [State.latchOther, *]

@[simp] theorem State.keepResult_mem_hbm (s : State) (st : Status) (len : Nat) :
    (State.keepResult s st len).mem.hbm = s.mem.hbm := by
  simp [State.keepResult, *]

@[simp] theorem State.awaitData_mem_hbm (s : State) (cmd : Nat) (data : List Byte) :
    (State.awaitData s cmd data).mem.hbm = s.mem.hbm := by
  simp [State.awaitData, *]

@[simp] theorem State.noteRefusedCommand_mem_hbm (s : State) (cmd : Nat) (st : Status) :
    (State.noteRefusedCommand s cmd st).mem.hbm = s.mem.hbm := by
  unfold State.noteRefusedCommand; (repeat' split) <;> simp [*]

@[simp] theorem State.markBusy_mem_hbm (s : State) :
    (State.markBusy s).mem.hbm = s.mem.hbm := by
  simp [State.markBusy, *]

@[simp] theorem State.reportCommand_mem_hbm (s : State) (st : Status) (len : Nat) :
    (State.reportCommand s st len).mem.hbm = s.mem.hbm := by
  simp [State.reportCommand, *]

@[simp] theorem State.setRing_mem_hbm (s : State) (r : Nat) (x : Ring) :
    (State.setRing s r x).mem.hbm = s.mem.hbm := by
  simp [State.setRing, *]

@[simp] theorem State.stopRing_mem_hbm (s : State) (r : Nat) :
    (State.stopRing s r).mem.hbm = s.mem.hbm := by
  simp [State.stopRing, *]

@[simp] theorem State.writeTail_mem_hbm (s : State) (r : Nat) (v : Nat) :
    (State.writeTail s r v).mem.hbm = s.mem.hbm := by
  simp only [State.writeTail, apply_ite State.mem, apply_ite MemSt.hbm]; simp

@[simp] theorem State.writeEnable_mem_hbm (s : State) (r : Nat) (on : Bool) :
    (State.writeEnable s r on).mem.hbm = s.mem.hbm := by
  simp [State.writeEnable, *]

@[simp] theorem State.startDescriptor_mem_hbm (s : State) (r : Nat) (d : BitVec 256) :
    (State.startDescriptor s r d).mem.hbm = s.mem.hbm := by
  unfold State.startDescriptor; simp only []; (repeat' split) <;> simp [*]

@[simp] theorem State.addWafer_mem_hbm (s : State) (w : Nat) :
    (State.addWafer s w).mem.hbm = s.mem.hbm := by
  simp [State.addWafer, *]

@[simp] theorem State.ingestFlag_mem_hbm (s : State) (d : BitVec 256) (st : Status) :
    (State.ingestFlag s d st).mem.hbm = s.mem.hbm := by
  unfold State.ingestFlag; (repeat' split) <;> simp [*]

@[simp] theorem State.ingestWriteBack_mem_hbm (s : State) (r : Nat) (f : InFlight) (st : Status) :
    (State.ingestWriteBack s r f st).mem.hbm = s.mem.hbm := by
  unfold State.ingestWriteBack; simp only []; (repeat' split) <;> simp [*]

@[simp] theorem State.ingestLog_mem_hbm (s : State) (r : Nat) (f : InFlight) (st : Status) :
    (State.ingestLog s r f st).mem.hbm = s.mem.hbm := by
  unfold State.ingestLog; (repeat' split) <;> simp [*]

@[simp] theorem State.ingestJudge_mem_hbm (s : State) (d : BitVec 256) (st : Status) :
    (State.ingestJudge s d st).mem.hbm = s.mem.hbm := by
  unfold State.ingestJudge; (repeat' split) <;> simp [*]

@[simp] theorem State.completeDescriptor_mem_hbm (s : State) (r : Nat) (f : InFlight) (st : Status) :
    (State.completeDescriptor s r f st).mem.hbm = s.mem.hbm := by
  simp [State.completeDescriptor, *]

theorem State.abortCommand_mem_hbm (s : State) {t : State} (h : (State.abortCommand s) = some t) :
    t.mem.hbm = s.mem.hbm := by
  simp only [State.abortCommand] at h; (repeat' split at h) <;> first | (simp at h; done) | (injection h with h; subst h; simp; done) | (simp_all; done) | (simp at h; obtain ⟨h, -⟩ := h; subst h; simp; done) | (simp at h; subst h; simp)

@[simp] theorem State.putAnswer_mem_hbm (s : State) (index : Nat) (vs : List Nat) :
    (State.putAnswer s index vs).mem.hbm = s.mem.hbm := by
  simp [State.putAnswer, *]

@[simp] theorem State.ringAnswer_mem_hbm (s : State) (rec : List Byte) :
    (State.ringAnswer s rec).mem.hbm = s.mem.hbm := by
  unfold State.ringAnswer; simp only []; (repeat' split) <;> simp [*]

@[simp] theorem State.countAnswer_mem_hbm (s : State) (a : TakeAnswers) :
    (State.countAnswer s a).mem.hbm = s.mem.hbm := by
  unfold State.countAnswer; simp only []; (repeat' split) <;> simp [*]

@[simp] theorem State.dropWafer_mem_hbm (s : State) (take : Nat) (w : Nat) :
    (State.dropWafer s take w).mem.hbm = s.mem.hbm := by
  simp [State.dropWafer, *]

@[simp] theorem State.publish_mem_hbm (s : State) (a : TakeAnswers) (w : Nat) :
    (State.publish s a w).mem.hbm = s.mem.hbm := by
  simp [State.publish, *]

@[simp] theorem State.barIgnored_mem_hbm (s : State) (bar : Nat) (off : Nat) (st : Status) :
    (State.barIgnored s bar off st).mem.hbm = s.mem.hbm := by
  simp [State.barIgnored, *]

@[simp] theorem State.logIf_mem_hbm (s : State) (b : Bool) (bar : Nat) (off : Nat) :
    (State.logIf s b bar off).mem.hbm = s.mem.hbm := by
  unfold State.logIf; (repeat' split) <;> simp [*]

@[simp] theorem State.abortBarRead_mem_hbm (s : State) (bar : Nat) (off : Nat) (st : Status) :
    (State.abortBarRead s bar off st).mem.hbm = s.mem.hbm := by
  simp [State.abortBarRead, *]

@[simp] theorem State.unsupportedRead_mem_hbm (s : State) :
    (State.unsupportedRead s).mem.hbm = s.mem.hbm := by
  unfold State.unsupportedRead; (repeat' split) <;> simp [*]

@[simp] theorem State.writePort_mem_hbm (s : State) (off : Nat) (size : Nat) (v : Nat) :
    (State.writePort s off size v).mem.hbm = s.mem.hbm := by
  unfold State.writePort; simp only []; (repeat' split) <;> simp [*]

@[simp] theorem State.logLocked_mem_hbm (s : State) (b : Bool) :
    (State.logLocked s b).mem.hbm = s.mem.hbm := by
  unfold State.logLocked; (repeat' split) <;> simp [*]

@[simp] theorem State.writeRing_mem_hbm (s : State) (r : Nat) (off : Nat) (size : Nat) (v : Nat) :
    (State.writeRing s r off size v).mem.hbm = s.mem.hbm := by
  unfold State.writeRing; simp only []; (repeat' split) <;> simp [*]

@[simp] theorem State.writeReadIndex_mem_hbm (s : State) (v : Nat) (off : Nat) :
    (State.writeReadIndex s v off).mem.hbm = s.mem.hbm := by
  unfold State.writeReadIndex; simp only []; (repeat' split) <;> simp [*]

@[simp] theorem State.writeAnswers_mem_hbm (s : State) (off : Nat) (size : Nat) (v : Nat) :
    (State.writeAnswers s off size v).mem.hbm = s.mem.hbm := by
  simp only [State.writeAnswers, apply_ite State.mem, apply_ite MemSt.hbm]; simp

@[simp] theorem State.writeSegment_mem_hbm (s : State) (i : Nat) (off : Nat) (size : Nat) (v : Nat) :
    (State.writeSegment s i off size v).mem.hbm = s.mem.hbm := by
  simp [State.writeSegment, *]

@[simp] theorem State.writeMsixWord_mem_hbm (s : State) (w : Nat) (v : Nat) :
    (State.writeMsixWord s w v).mem.hbm = s.mem.hbm := by
  unfold State.writeMsixWord; simp only []; (repeat' split) <;> simp [*]

@[simp] theorem State.writeMsix_mem_hbm (s : State) (w : Nat) (size : Nat) (v : Nat) :
    (State.writeMsix s w size v).mem.hbm = s.mem.hbm := by
  unfold State.writeMsix; simp only []; (repeat' split) <;> simp [*]

@[simp] theorem State.openDownload_mem_hbm (s : State) (a : Access) :
    (State.openDownload s a).mem.hbm = s.mem.hbm := by
  unfold State.openDownload; simp only []; (repeat' split) <;> simp [*]

@[simp] theorem State.writeFunctionMask_mem_hbm (s : State) (on : Bool) :
    (State.writeFunctionMask s on).mem.hbm = s.mem.hbm := by
  unfold State.writeFunctionMask; (repeat' split) <;> simp [*]

@[simp] theorem State.configWrite_mem_hbm (s : State) (f : ConfigField) (v : Nat) :
    (State.configWrite s f v).mem.hbm = s.mem.hbm := by
  unfold State.configWrite; (repeat' split) <;> simp [*]

@[simp] theorem State.configAccess_mem_hbm (s : State) (a : ConfigAccess) :
    (State.configAccess s a).mem.hbm = s.mem.hbm := by
  unfold State.configAccess; (repeat' split) <;> simp [*]

@[simp] theorem State.configRequest_mem_hbm (s : State) (a : ConfigAccess) :
    (State.configRequest s a).mem.hbm = s.mem.hbm := by
  unfold State.configRequest; (repeat' split) <;> simp [*]

@[simp] theorem State.enterStandby_mem_hbm (s : State) :
    (State.enterStandby s).mem.hbm = s.mem.hbm := by
  unfold State.enterStandby; (repeat' split) <;> simp [*]

@[simp] theorem State.stepTb_mem_hbm (s : State) (target : Nat) :
    (State.stepTb s target).mem.hbm = s.mem.hbm := by
  simp [State.stepTb, *]

@[simp] theorem State.discipline_mem_hbm (s : State) (dcTime : Nat) :
    (State.discipline s dcTime).mem.hbm = s.mem.hbm := by
  unfold State.discipline; simp only []; (repeat' split) <;> simp [*]

@[simp] theorem State.latchPosition_mem_hbm (s : State) :
    (State.latchPosition s).mem.hbm = s.mem.hbm := by
  simp [State.latchPosition, *]

@[simp] theorem State.addMissed_mem_hbm (s : State) (n : Nat) :
    (State.addMissed s n).mem.hbm = s.mem.hbm := by
  rfl

@[simp] theorem State.countMissed_mem_hbm (s : State) :
    (State.countMissed s).mem.hbm = s.mem.hbm := by
  unfold State.countMissed; (repeat' split) <;> simp [*]

@[simp] theorem State.writeMapped_mem_hbm (s : State) (x1 : List Nat) (x2 : List Byte) :
    (State.writeMapped s x1 x2).mem.hbm = s.mem.hbm := by
  (induction x1 generalizing x2 s with | nil => (simp [State.writeMapped] <;> done) | cons a b ih => (unfold State.writeMapped; (try dsimp only); (repeat' split) <;> simp_all))

@[simp] theorem State.takeOutputs_mem_hbm (s : State) (data : List Byte) :
    (State.takeOutputs s data).mem.hbm = s.mem.hbm := by
  unfold State.takeOutputs; simp only []; (repeat' split) <;> simp

@[simp] theorem State.receivePdo_mem_hbm (s : State) (data : List Byte) :
    (State.receivePdo s data).mem.hbm = s.mem.hbm := by
  unfold State.receivePdo; simp only []; (repeat' split) <;> simp [*]

@[simp] theorem State.losePlant_mem_hbm (s : State) :
    (State.losePlant s).mem.hbm = s.mem.hbm := by
  unfold State.losePlant; simp only []; (repeat' split) <;> simp [*]

@[simp] theorem State.voidSlot_mem_hbm (s : State) :
    (State.voidSlot s).mem.hbm = s.mem.hbm := by
  simp [State.voidSlot, *]

@[simp] theorem State.abandonFoe_mem_hbm (s : State) :
    (State.abandonFoe s).mem.hbm = s.mem.hbm := by
  unfold State.abandonFoe; simp only []; (repeat' split) <;> simp [*]

@[simp] theorem State.leaveAl_mem_hbm (s : State) :
    (State.leaveAl s).mem.hbm = s.mem.hbm := by
  unfold State.leaveAl; (repeat' split) <;> simp [*]

@[simp] theorem State.enterAl_mem_hbm (s : State) (target : Nat) (code : Nat) :
    (State.enterAl s target code).mem.hbm = s.mem.hbm := by
  simp [State.enterAl, *]

@[simp] theorem State.refuseAl_mem_hbm (s : State) (code : Nat) :
    (State.refuseAl s code).mem.hbm = s.mem.hbm := by
  simp [State.refuseAl, *]

@[simp] theorem State.requestAl_mem_hbm (s : State) (from_ : Nat) (target : Nat) (check : Nat) (accept : State → State) (haccept : ∀ t, (accept t).mem.hbm = t.mem.hbm) :
    (State.requestAl s from_ target check accept).mem.hbm = s.mem.hbm := by
  unfold State.requestAl; simp only []; (repeat' split) <;> simp [*]

@[simp] theorem State.setCycle_mem_hbm (s : State) (c : CycleCfg) :
    (State.setCycle s c).mem.hbm = s.mem.hbm := by
  rfl

@[simp] theorem State.startOp_mem_hbm (s : State) :
    (State.startOp s).mem.hbm = s.mem.hbm := by
  simp [State.startOp, *]

@[simp] theorem State.noteMissed_mem_hbm (s : State) :
    (State.noteMissed s).mem.hbm = s.mem.hbm := by
  simp [State.noteMissed, *]

@[simp] theorem State.refuseFoe_mem_hbm (s : State) (code : Nat) :
    (State.refuseFoe s code).mem.hbm = s.mem.hbm := by
  simp [State.refuseFoe, *]

@[simp] theorem State.openFoe_mem_hbm (s : State) :
    (State.openFoe s).mem.hbm = s.mem.hbm := by
  unfold State.openFoe; simp only []; (repeat' split) <;> simp [*]

@[simp] theorem State.programFoe_mem_hbm (s : State) (off : Nat) (data : List Byte) (ok : Bool) :
    (State.programFoe s off data ok).mem.hbm = s.mem.hbm := by
  unfold State.programFoe; (repeat' split) <;> simp [*]

@[simp] theorem State.takeFoe_mem_hbm (s : State) (n : Nat) (data : List Byte) (last : Bool) (ok : Bool) :
    (State.takeFoe s n data last ok).mem.hbm = s.mem.hbm := by
  unfold State.takeFoe; simp only []; (repeat' split) <;> simp [*]

@[simp] theorem State.foeTooLong_mem_hbm (s : State) :
    (State.foeTooLong s).mem.hbm = s.mem.hbm := by
  simp [State.foeTooLong, *]

@[simp] theorem State.drainFoe_mem_hbm (s : State) :
    (State.drainFoe s).mem.hbm = s.mem.hbm := by
  unfold State.drainFoe; simp only []; (repeat' split) <;> simp [*]

@[simp] theorem State.keepRecord_mem_hbm (s : State) (key : Nat) (v : Nat) :
    (State.keepRecord s key v).mem.hbm = s.mem.hbm := by
  unfold State.keepRecord; simp only []; (repeat' split) <;> simp [*]

@[simp] theorem State.siiRead_mem_hbm (s : State) (word : Nat) :
    (State.siiRead s word).mem.hbm = s.mem.hbm := by
  unfold State.siiRead; (repeat' split) <;> simp [*]

@[simp] theorem State.miiLinkUp_mem_hbm (s : State) (port : Nat) :
    (State.miiLinkUp s port).mem.hbm = s.mem.hbm := by
  unfold State.miiLinkUp; (repeat' split) <;> simp [*]

@[simp] theorem State.trainLink_mem_hbm (s : State) :
    (State.trainLink s).mem.hbm = s.mem.hbm := by
  unfold State.trainLink; (repeat' split) <;> simp [*]

@[simp] theorem State.releaseEcat_mem_hbm (s : State) :
    (State.releaseEcat s).mem.hbm = s.mem.hbm := by
  unfold State.releaseEcat; (repeat' split) <;> simp [*]

@[simp] theorem State.recordFence_mem_hbm (s : State) (b : Block) :
    (State.recordFence s b).mem.hbm = s.mem.hbm := by
  simp [State.recordFence, *]

@[simp] theorem State.returnBlock_mem_hbm (s : State) (b : Block) :
    (State.returnBlock s b).mem.hbm = s.mem.hbm := by
  unfold State.returnBlock; simp only []; (repeat' split) <;> simp [*]

@[simp] theorem State.testBlock_mem_hbm (s : State) (b : Block) (passed : Bool) :
    (State.testBlock s b passed).mem.hbm = s.mem.hbm := by
  unfold State.testBlock; simp only []; (repeat' split) <;> simp [*]

@[simp] theorem State.targetAgain_mem_hbm (s : State) (c : Nat) :
    (State.targetAgain s c).mem.hbm = s.mem.hbm := by
  unfold State.targetAgain; (repeat' split) <;> simp [*]

@[simp] theorem State.testCore_mem_hbm (s : State) (c : Nat) (passed : Bool) :
    (State.testCore s c passed).mem.hbm = s.mem.hbm := by
  unfold State.testCore; simp only []; (repeat' split) <;> simp [*]

@[simp] theorem State.dropFoe_mem_hbm (s : State) :
    (State.dropFoe s).mem.hbm = s.mem.hbm := by
  unfold State.dropFoe; (repeat' split) <;> simp [*]

@[simp] theorem State.releaseSource_mem_hbm (s : State) (cause : Nat) :
    (State.releaseSource s cause).mem.hbm = s.mem.hbm := by
  simp [State.releaseSource, *]

@[simp] theorem State.loseAlwaysOn_mem_hbm (s : State) :
    (State.loseAlwaysOn s).mem.hbm = s.mem.hbm := by
  simp [State.loseAlwaysOn, *]

@[simp] theorem State.showReading_mem_hbm (s : State) (raw : List Nat) (i : Nat) :
    (State.showReading s raw i).mem.hbm = s.mem.hbm := by
  simp [State.showReading, *]

@[simp] theorem State.showStack_mem_hbm (s : State) (raw : List Nat) (i : Nat) :
    (State.showStack s raw i).mem.hbm = s.mem.hbm := by
  unfold State.showStack; (repeat' split) <;> simp [*]

@[simp] theorem State.showReadings_mem_hbm (s : State) (raw : List Nat) :
    (State.showReadings s raw).mem.hbm = s.mem.hbm := by
  unfold State.showReadings; simp only []; (repeat' split) <;> simp [*]

@[simp] theorem State.latchCfg_mem_hbm (s : State) (ohms : Nat) :
    (State.latchCfg s ohms).mem.hbm = s.mem.hbm := by
  simp [State.latchCfg, *]

@[simp] theorem State.endWake_mem_hbm (s : State) (p : Nat) :
    (State.endWake s p).mem.hbm = s.mem.hbm := by
  unfold State.endWake; (repeat' split) <;> simp [*]

@[simp] theorem State.startDomain_mem_hbm (s : State) (x1 : Domain) :
    (State.startDomain s x1).mem.hbm = s.mem.hbm := by
  unfold State.startDomain; simp only []; (repeat' split) <;> simp [*]

@[simp] theorem State.startFirmware_mem_hbm (s : State) (i : Nat) :
    (State.startFirmware s i).mem.hbm = s.mem.hbm := by
  simp [State.startFirmware, *]

@[simp] theorem State.startRecovery_mem_hbm (s : State) :
    (State.startRecovery s).mem.hbm = s.mem.hbm := by
  simp [State.startRecovery, *]

@[simp] theorem State.reportBoot_mem_hbm (s : State) (fellBack : Bool) :
    (State.reportBoot s fellBack).mem.hbm = s.mem.hbm := by
  unfold State.reportBoot; simp only []; (repeat' split) <;> simp [*]

@[simp] theorem State.copyBody_mem_hbm (s : State) (t : Tab Byte) :
    (State.copyBody s t).mem.hbm = s.mem.hbm := by
  unfold State.copyBody; (repeat' split) <;> simp [*]

@[simp] theorem State.afterTry_mem_hbm (s : State) (i r : Nat) :
    (State.afterTry s i r).mem.hbm = s.mem.hbm := by
  unfold State.afterTry; (repeat' split) <;> simp [*]

@[simp] theorem State.bootRom_mem_hbm (s : State) :
    (State.bootRom s).mem.hbm = s.mem.hbm := by
  unfold State.bootRom; simp only []; (repeat' split) <;> simp [*]

@[simp] theorem State.keepGroup_mem_hbm (s : State) (vs : List (Nat × Nat)) :
    (State.keepGroup s vs).mem.hbm = s.mem.hbm := by
  unfold State.keepGroup; simp only []; (repeat' split) <;> simp [*]

@[simp] theorem State.recordBist_mem_hbm (s : State) (f : BistFinding) :
    (State.recordBist s f).mem.hbm = s.mem.hbm := by
  unfold State.recordBist; (repeat' split) <;> simp [*]

@[simp] theorem State.failTile_mem_hbm (s : State) (p : Nat) :
    (State.failTile s p).mem.hbm = s.mem.hbm := by
  simp [State.failTile, *]

@[simp] theorem State.failCore_mem_hbm (s : State) (failed : List Nat) (c : Nat) :
    (State.failCore s failed c).mem.hbm = s.mem.hbm := by
  unfold State.failCore; simp only []; (repeat' split) <;> simp [*]

@[simp] theorem State.failPort_mem_hbm (s : State) (k : Nat) :
    (State.failPort s k).mem.hbm = s.mem.hbm := by
  simp [State.failPort, *]

@[simp] theorem State.markUnusable_mem_hbm (s : State) (b : Block) :
    (State.markUnusable s b).mem.hbm = s.mem.hbm := by
  unfold State.markUnusable; (repeat' split) <;> simp [*]

@[simp] theorem State.loseNetwork_mem_hbm (s : State) (x1 : Domain) :
    (State.loseNetwork s x1).mem.hbm = s.mem.hbm := by
  unfold State.loseNetwork; (repeat' split) <;> simp [*]

@[simp] theorem State.blowFuses_mem_hbm (s : State) :
    (State.blowFuses s).mem.hbm = s.mem.hbm := by
  simp [State.blowFuses, *]

@[simp] theorem State.startLine_mem_hbm (s : State) :
    (State.startLine s).mem.hbm = s.mem.hbm := by
  simp [State.startLine, *]

@[simp] theorem State.startRunning_mem_hbm (s : State) :
    (State.startRunning s).mem.hbm = s.mem.hbm := by
  simp [State.startRunning, *]

@[simp] theorem State.startCalibration_mem_hbm (s : State) :
    (State.startCalibration s).mem.hbm = s.mem.hbm := by
  unfold State.startCalibration; simp only []; (repeat' split) <;> simp [*]

@[simp] theorem State.resumeTakes_mem_hbm (s : State) :
    (State.resumeTakes s).mem.hbm = s.mem.hbm := by
  unfold State.resumeTakes; (repeat' split) <;> simp [*]

@[simp] theorem State.firstSnapshot_mem_hbm (s : State) :
    (State.firstSnapshot s).mem.hbm = s.mem.hbm := by
  unfold State.firstSnapshot; (repeat' split) <;> simp [*]

@[simp] theorem State.comeUp_mem_hbm (s : State) :
    (State.comeUp s).mem.hbm = s.mem.hbm := by
  simp [State.comeUp, *]

@[simp] theorem State.gateTiles_mem_hbm (s : State) :
    (State.gateTiles s).mem.hbm = s.mem.hbm := by
  simp [State.gateTiles, *]

@[simp] theorem State.gateClocks_mem_hbm (s : State) :
    (State.gateClocks s).mem.hbm = s.mem.hbm := by
  rfl

@[simp] theorem State.standbyPorts_mem_hbm (s : State) :
    (State.standbyPorts s).mem.hbm = s.mem.hbm := by
  unfold State.standbyPorts; (repeat' split) <;> simp [*]

@[simp] theorem State.enterSleep_mem_hbm (s : State) :
    (State.enterSleep s).mem.hbm = s.mem.hbm := by
  simp [State.enterSleep, *]

@[simp] theorem State.wakeTiles_mem_hbm (s : State) :
    (State.wakeTiles s).mem.hbm = s.mem.hbm := by
  simp [State.wakeTiles, *]

@[simp] theorem State.loadIr_mem_hbm (s : State) (code : Nat) :
    (State.loadIr s code).mem.hbm = s.mem.hbm := by
  simp [State.loadIr, *]

@[simp] theorem State.newChallenge_mem_hbm (s : State) :
    (State.newChallenge s).mem.hbm = s.mem.hbm := by
  simp [State.newChallenge, *]

@[simp] theorem State.answerChallenge_mem_hbm (s : State) (level : Nat) (keys : List Byte) (sigEd : List Byte) (sigMl : List Byte) :
    (State.answerChallenge s level keys sigEd sigMl).mem.hbm = s.mem.hbm := by
  unfold State.answerChallenge; simp only []; (repeat' split) <;> simp [*]

@[simp] theorem State.zeroise_mem_hbm (s : State) :
    (State.zeroise s).mem.hbm = s.mem.hbm := by
  simp [State.zeroise, *]

@[simp] theorem State.zeroiseTables_mem_hbm (s : State) :
    (State.zeroiseTables s).mem.hbm = s.mem.hbm := by
  simp [State.zeroiseTables, *]

@[simp] theorem State.blockFuses_mem_hbm (s : State) :
    (State.blockFuses s).mem.hbm = s.mem.hbm := by
  simp [State.blockFuses, *]

@[simp] theorem State.openScan_mem_hbm (s : State) :
    (State.openScan s).mem.hbm = s.mem.hbm := by
  simp [State.openScan, *]

@[simp] theorem State.correctAt_mem_hbm (s : State) (p : Nat) (store am : List (Nat × Nat)) :
    (State.correctAt s p store am).1.mem.hbm = s.mem.hbm := by
  unfold State.correctAt; (repeat' split) <;> simp [*]

@[simp] theorem State.isolateWait_mem_hbm (s : State) (l : Nat) :
    (State.isolateWait s l).mem.hbm = s.mem.hbm := by
  unfold State.isolateWait; (repeat' split) <;> simp [*]

@[simp] theorem State.isolateHub_mem_hbm (s : State) :
    (State.isolateHub s).mem.hbm = s.mem.hbm := by
  unfold State.isolateHub; simp only []; (repeat' split) <;> simp [*]

@[simp] theorem State.correctPieces_mem_hbm (s : State) (ps : List (Nat × Nat × Nat)) :
    (State.correctPieces s ps).1.mem.hbm = s.mem.hbm := by
  unfold State.correctPieces; simp only []; (repeat' split) <;> simp [*]

@[simp] theorem State.readRound_mem_hbm (s : State) (own : Bool) (k : OpTrack) (q : Packet) :
    (State.readRound s own k q).1.mem.hbm = s.mem.hbm := by
  unfold State.readRound; (repeat' split) <;> simp [*]

@[simp] theorem State.noteGetWrite_mem_hbm (s : State) (l : Nat) (o : RemoteOp) (st : Status) :
    (State.noteGetWrite s l o st).mem.hbm = s.mem.hbm := by
  unfold State.noteGetWrite; simp only []; (repeat' split) <;> simp [*]

@[simp] theorem State.takeIdentity_mem_hbm (s : State) (k : Nat) (q : Packet) (rack package role : Nat) :
    (State.takeIdentity s k q rack package role).mem.hbm = s.mem.hbm := by
  unfold State.takeIdentity; (repeat' split) <;> simp [*]

@[simp] theorem State.sramUpset_mem_hbm (s : State) (a : Nat) (double : Bool) :
    (State.sramUpset s a double).mem.hbm = s.mem.hbm := by
  unfold State.sramUpset; simp only []; (repeat' split) <;> simp [*]

@[simp] theorem State.healTiles_mem_hbm (s : State) (places : Nat → List (Nat × Nat) × List (Nat × Nat)) :
    (State.healTiles s places).1.mem.hbm = s.mem.hbm := by
  unfold State.healTiles; (try dsimp only); (repeat' split) <;> (first | (simp_all; done) | (rw [foldl_mem_hbm]; intro t b; (repeat' split) <;> simp_all) | (rw [foldl1_mem_hbm]; intro t b; (repeat' split) <;> simp_all))

@[simp] theorem State.readInputs_mem_hbm (s : State) :
    (State.readInputs s).mem.hbm = s.mem.hbm := by
  unfold State.readInputs; (repeat' split) <;> simp [*]

@[simp] theorem State.driveTrst_mem_hbm (s : State) (high : Bool) :
    (State.driveTrst s high).mem.hbm = s.mem.hbm := by
  unfold State.driveTrst; (repeat' split) <;> simp [*]

@[simp] theorem State.endFills_mem_hbm (s : State) :
    (State.endFills s).mem.hbm = s.mem.hbm := by
  unfold State.endFills; (repeat' split) <;> simp [*]

end Sys2Proof.Machine
end

