-- ==== Sys2Proof/Laws/HbmWf.lean ====
section
/-!
SUPPORT. Every operation of the model keeps HBM in its canonical form.
-/

namespace Sys2Proof.Machine

open Sys2Proof

@[simp] theorem foldl_wf {β : Type} (g : State → β → State) (l : List β) (s : State) (hm : Memory.wf s.mem.hbm = true) (h : ∀ t b, Memory.wf t.mem.hbm = true → Memory.wf (g t b).mem.hbm = true) : Memory.wf (l.foldl g s).mem.hbm = true := by
  induction l generalizing s with
  | nil => exact hm
  | cons a l ih => exact ih _ (h _ _ hm)

@[simp] theorem foldl1_wf {α β : Type} (g : State × α → β → State × α) (l : List β) (x : State × α) (hm : Memory.wf x.1.mem.hbm = true) (h : ∀ t b, Memory.wf t.1.mem.hbm = true → Memory.wf (g t b).1.mem.hbm = true) : Memory.wf (l.foldl g x).1.mem.hbm = true := by
  induction l generalizing x with
  | nil => exact hm
  | cons a l ih => exact ih _ (h _ _ hm)

@[simp] theorem ite_wf (c : Prop) [Decidable c] (a b : State) (ha : Memory.wf a.mem.hbm = true) (hb : Memory.wf b.mem.hbm = true) : Memory.wf (if c then a else b).mem.hbm = true := by
  split <;> assumption

theorem Memory.wf_canonical (m : Tab Byte) : Memory.wf m = true ↔ Tab.wf m = true ∧ Tab.sparse 0 m = true := by simp [Memory.wf]

@[simp] theorem Memory.wf_nil : Memory.wf [] = true := rfl

@[simp] theorem Memory.wf_store (m : Tab Byte) (i : Nat) (v : Byte) (h : Memory.wf m = true) : Memory.wf (Tab.store m 0 i v) = true := by
  rw [Memory.wf_canonical] at *; exact Tab.store_canonical 0 m i v h

@[simp] theorem Memory.wf_storeList (m : Tab Byte) (i : Nat) (vs : List Byte) (h : Memory.wf m = true) : Memory.wf (Tab.storeList m 0 i vs) = true := by
  rw [Memory.wf_canonical] at *; exact Tab.storeList_canonical 0 vs m i h

@[simp] theorem foldlRerouting_wf {β : Type} (g : Rerouting → β → Rerouting) (l : List β) (x : Rerouting) (hm : Memory.wf x.s.mem.hbm = true) (h : ∀ t b, Memory.wf t.s.mem.hbm = true → Memory.wf (g t b).s.mem.hbm = true) : Memory.wf (l.foldl g x).s.mem.hbm = true := by
  induction l generalizing x with
  | nil => exact hm
  | cons a l ih => exact ih _ (h _ _ hm)

@[simp] theorem State.putBurst_wf (s : State) (b : Nat) (bytes : List Byte) (hm : Memory.wf s.mem.hbm = true) :
    Memory.wf (State.putBurst s b bytes).mem.hbm = true := by
  first | (unfold State.putBurst; split; exact hm; exact Memory.wf_storeList _ _ _ hm)

@[simp] theorem State.correctBurst_wf (s : State) (b : Nat) (hm : Memory.wf s.mem.hbm = true) :
    Memory.wf (State.correctBurst s b).mem.hbm = true := by
  unfold State.correctBurst; (try dsimp only); repeat' (first | with_reducible assumption | with_reducible apply State.putBurst_wf | rw [State.event_mem_hbm] | with_reducible apply foldl_wf | with_reducible apply foldl1_wf | with_reducible apply foldlRerouting_wf | intro _ _ _ | split | dsimp only [Done.only, RemotePlan.stop])

@[simp] theorem State.readBurst_wf (s : State) (fallback : Bool) (acc : Status) (b : Nat) (hm : Memory.wf s.mem.hbm = true) :
    Memory.wf (State.readBurst s fallback acc b).1.mem.hbm = true := by
  unfold State.readBurst; (try dsimp only); repeat' (first | with_reducible assumption | with_reducible apply State.putBurst_wf | with_reducible apply State.correctBurst_wf | rw [State.event_mem_hbm] | rw [State.countFault_mem_hbm] | with_reducible apply foldl_wf | with_reducible apply foldl1_wf | with_reducible apply foldlRerouting_wf | intro _ _ _ | split | dsimp only [Done.only, RemotePlan.stop])

@[simp] theorem State.hbmTouch_wf (s : State) (fallback : Bool) (a : Nat) (n : Nat) (hm : Memory.wf s.mem.hbm = true) :
    Memory.wf (State.hbmTouch s fallback a n).1.mem.hbm = true := by
  unfold State.hbmTouch; (try dsimp only); repeat' (first | with_reducible assumption | with_reducible apply State.readBurst_wf | rw [State.wakeStacks_mem_hbm] | rw [State.noteEccLost_mem_hbm] | with_reducible apply foldl_wf | with_reducible apply foldl1_wf | with_reducible apply foldlRerouting_wf | intro _ _ _ | split | dsimp only [Done.only, RemotePlan.stop])

@[simp] theorem State.hbmStore_wf (s : State) (a : Nat) (b : Byte) (hm : Memory.wf s.mem.hbm = true) :
    Memory.wf (State.hbmStore s a b).mem.hbm = true := by
  first | (unfold State.hbmStore; split; exact hm; exact Memory.wf_store _ _ _ hm)

@[simp] theorem State.hbmStoreList_wf (s : State) (a : Nat) (x2 : List Byte) (hm : Memory.wf s.mem.hbm = true) :
    Memory.wf (State.hbmStoreList s a x2).mem.hbm = true := by
  first | ((induction x2 generalizing s a with | nil => exact hm | cons b bs ih => exact ih _ _ (State.hbmStore_wf _ _ _ hm)))

@[simp] theorem State.writeBurst_wf (s : State) (a : Nat) (n : Nat) (acc : Status) (b : Nat) (hm : Memory.wf s.mem.hbm = true) :
    Memory.wf (State.writeBurst s a n acc b).1.mem.hbm = true := by
  first | (unfold State.writeBurst; (try dsimp only); repeat' (first | with_reducible assumption | with_reducible apply State.putBurst_wf | with_reducible apply State.readBurst_wf | with_reducible apply foldl_wf | with_reducible apply foldl1_wf | intro _ _ _ | split | dsimp only [Done.only, RemotePlan.stop]))

@[simp] theorem State.hbmWriteOne_wf (s : State) (a : Nat) (bs : List Byte) (hm : Memory.wf s.mem.hbm = true) :
    Memory.wf (State.hbmWriteOne s a bs).1.mem.hbm = true := by
  unfold State.hbmWriteOne; (try dsimp only); repeat' (first | with_reducible assumption | with_reducible apply State.hbmStoreList_wf | with_reducible apply State.writeBurst_wf | rw [State.wakeStacks_mem_hbm] | rw [State.noteEccLost_mem_hbm] | with_reducible apply foldl_wf | with_reducible apply foldl1_wf | with_reducible apply foldlRerouting_wf | intro _ _ _ | split | dsimp only [Done.only, RemotePlan.stop])

@[simp] theorem State.hbmWrite_wf (s : State) (a : Nat) (bs : List Byte) (hm : Memory.wf s.mem.hbm = true) :
    Memory.wf (State.hbmWrite s a bs).1.mem.hbm = true := by
  first | (unfold State.hbmWrite; (try dsimp only); repeat' (first | with_reducible assumption | with_reducible apply State.hbmWriteOne_wf | with_reducible apply State.hbmStore_wf | with_reducible apply foldl_wf | with_reducible apply foldl1_wf | intro _ _ _ | split | dsimp only [Done.only, RemotePlan.stop]))

@[simp] theorem State.spaceTouch_wf (s : State) (space : Nat) (a : Nat) (n : Nat) (hm : Memory.wf s.mem.hbm = true) :
    Memory.wf (State.spaceTouch s space a n).1.mem.hbm = true := by
  first | (unfold State.spaceTouch; (try dsimp only); repeat' (first | with_reducible assumption | with_reducible apply State.hbmTouch_wf | with_reducible apply foldl_wf | with_reducible apply foldl1_wf | intro _ _ _ | split | dsimp only [Done.only, RemotePlan.stop]))

@[simp] theorem State.hbmWriteChecked_wf (s : State) (a : Nat) (bs : List Byte) (hm : Memory.wf s.mem.hbm = true) :
    Memory.wf (State.hbmWriteChecked s a bs).1.mem.hbm = true := by
  unfold State.hbmWriteChecked; (try dsimp only); repeat' (first | with_reducible assumption | with_reducible apply State.hbmWrite_wf | with_reducible apply foldl_wf | with_reducible apply foldl1_wf | with_reducible apply foldlRerouting_wf | intro _ _ _ | split | dsimp only [Done.only, RemotePlan.stop])

@[simp] theorem State.spaceWrite_wf (s : State) (p space a : Nat) (bs : List Byte) (hm : Memory.wf s.mem.hbm = true) :
    Memory.wf (State.spaceWrite s p space a bs).1.mem.hbm = true := by
  unfold State.spaceWrite; (try dsimp only); repeat' (first | with_reducible assumption | with_reducible apply State.hbmWriteChecked_wf | rw [State.hostStoreWrite_mem_hbm] | rw [State.storeWrite_mem_hbm] | with_reducible apply foldl_wf | with_reducible apply foldl1_wf | with_reducible apply foldlRerouting_wf | intro _ _ _ | split | dsimp only [Done.only, RemotePlan.stop])

@[simp] theorem State.spaceWriteAll_wf (s : State) (p : Nat) (space : Nat) (rows : List (Nat × List Byte)) (hm : Memory.wf s.mem.hbm = true) :
    Memory.wf (State.spaceWriteAll s p space rows).1.mem.hbm = true := by
  first | (unfold State.spaceWriteAll; (try dsimp only); repeat' (first | with_reducible assumption | with_reducible apply State.spaceWrite_wf | with_reducible apply foldl_wf | with_reducible apply foldl1_wf | intro _ _ _ | split | dsimp only [Done.only, RemotePlan.stop]))

@[simp] theorem State.touchDesc_wf (s : State) (d : Desc) (hm : Memory.wf s.mem.hbm = true) :
    Memory.wf (State.touchDesc s d).1.mem.hbm = true := by
  first | (unfold State.touchDesc; (try dsimp only); repeat' (first | with_reducible assumption | with_reducible apply State.spaceTouch_wf | with_reducible apply foldl_wf | with_reducible apply foldl1_wf | intro _ _ _ | split | dsimp only [Done.only, RemotePlan.stop]))

@[simp] theorem State.writeVals_wf (s : State) (l : Nat) (p : Nat) (d : Desc) (cls : Nat) (round : Nat) (stream : Nat) (ahead : Nat) (vals : List Val) (hm : Memory.wf s.mem.hbm = true) :
    Memory.wf (State.writeVals s l p d cls round stream ahead vals).s.mem.hbm = true := by
  first | (unfold State.writeVals; (try dsimp only); repeat' (first | with_reducible assumption | with_reducible apply State.spaceWriteAll_wf | rw [State.deliver_mem_hbm] | rw [State.setPt_mem_hbm] | rw [State.repairParity_mem_hbm] | rw [State.noteSaturation_mem_hbm] | with_reducible apply foldl_wf | with_reducible apply foldl1_wf | intro _ _ _ | split | dsimp only [Done.only, RemotePlan.stop]))

@[simp] theorem State.writeSome_wf (s : State) (l : Nat) (p : Nat) (d : Desc) (cls : Nat) (round : Nat) (stream : Nat) (ahead : Nat) (pieces : List Piece) (hm : Memory.wf s.mem.hbm = true) :
    Memory.wf (State.writeSome s l p d cls round stream ahead pieces).s.mem.hbm = true := by
  first | (unfold State.writeSome; (try dsimp only); repeat' (first | with_reducible assumption | with_reducible apply State.spaceWriteAll_wf | rw [State.deliver_mem_hbm] | rw [State.setPt_mem_hbm] | rw [State.repairParity_mem_hbm] | rw [State.noteSaturation_mem_hbm] | with_reducible apply foldl_wf | with_reducible apply foldl1_wf | intro _ _ _ | split | dsimp only [Done.only, RemotePlan.stop]))

@[simp] theorem State.writeCodes_wf (s : State) (p : Nat) (d : Desc) (codes : List Nat) (hm : Memory.wf s.mem.hbm = true) :
    Memory.wf (State.writeCodes s p d codes).1.mem.hbm = true := by
  first | (unfold State.writeCodes; (try dsimp only); repeat' (first | with_reducible assumption | with_reducible apply State.spaceWriteAll_wf | with_reducible apply foldl_wf | with_reducible apply foldl1_wf | intro _ _ _ | split | dsimp only [Done.only, RemotePlan.stop]))

@[simp] theorem State.smear_wf (s : State) (p : Nat) (d : Desc) (hm : Memory.wf s.mem.hbm = true) :
    Memory.wf (State.smear s p d).mem.hbm = true := by
  first | (unfold State.smear; (try dsimp only); repeat' (first | with_reducible assumption | with_reducible apply State.spaceWriteAll_wf | with_reducible apply foldl_wf | with_reducible apply foldl1_wf | intro _ _ _ | split | dsimp only [Done.only, RemotePlan.stop]))

@[simp] theorem State.fetchNext_wf (s : State) (l : Nat) (hm : Memory.wf s.mem.hbm = true) :
    Memory.wf (State.fetchNext s l).mem.hbm = true := by
  unfold State.fetchNext; (try dsimp only); repeat' (first | with_reducible assumption | with_reducible apply State.hbmTouch_wf | rw [State.setLt_mem_hbm] | with_reducible apply foldl_wf | with_reducible apply foldl1_wf | with_reducible apply foldlRerouting_wf | intro _ _ _ | split | dsimp only [Done.only, RemotePlan.stop])

@[simp] theorem State.fetchOne_wf (s : State) (l : Nat) (hm : Memory.wf s.mem.hbm = true) :
    Memory.wf (State.fetchOne s l).mem.hbm = true := by
  unfold State.fetchOne; (try dsimp only); repeat' (first | with_reducible assumption | with_reducible apply State.fetchNext_wf | with_reducible apply foldl_wf | with_reducible apply foldl1_wf | with_reducible apply foldlRerouting_wf | intro _ _ _ | split | dsimp only [Done.only, RemotePlan.stop])

@[simp] theorem State.fetchAll_wf (s : State) (l : Nat) (hm : Memory.wf s.mem.hbm = true) :
    Memory.wf (State.fetchAll s l).mem.hbm = true := by
  first | (unfold State.fetchAll; (try dsimp only); repeat' (first | with_reducible assumption | with_reducible apply State.fetchOne_wf | with_reducible apply foldl_wf | with_reducible apply foldl1_wf | intro _ _ _ | split | dsimp only [Done.only, RemotePlan.stop]))

@[simp] theorem State.writeLotBlock_wf (s : State) (take : Nat) (hm : Memory.wf s.mem.hbm = true) :
    Memory.wf (State.writeLotBlock s take).mem.hbm = true := by
  first | (unfold State.writeLotBlock; (try dsimp only); repeat' (first | with_reducible assumption | with_reducible apply State.hbmWrite_wf | with_reducible apply foldl_wf | with_reducible apply foldl1_wf | intro _ _ _ | split | dsimp only [Done.only, RemotePlan.stop]))

@[simp] theorem State.openTake_wf (s : State) (selfSlated : Bool) (ts : Nat) (hm : Memory.wf s.mem.hbm = true) :
    Memory.wf (State.openTake s selfSlated ts).mem.hbm = true := by
  first | (unfold State.openTake; (try dsimp only); repeat' (first | with_reducible assumption | with_reducible apply State.writeLotBlock_wf | rw [State.beginTake_mem_hbm] | rw [State.setOpeningLevel_mem_hbm] | rw [State.event_mem_hbm] | rw [State.startActivation_mem_hbm] | rw [State.fireDue_mem_hbm] | rw [State.openingFills_mem_hbm] | with_reducible apply foldl_wf | with_reducible apply foldl1_wf | intro _ _ _ | split | dsimp only [Done.only, RemotePlan.stop]))

@[simp] theorem State.boundary_wf (s : State) (kind : Nat) (selfSlated : Bool) (ts : Nat) (hm : Memory.wf s.mem.hbm = true) :
    Memory.wf (State.boundary s kind selfSlated ts).mem.hbm = true := by
  first | (unfold State.boundary; (try dsimp only); repeat' (first | with_reducible assumption | with_reducible apply State.openTake_wf | rw [State.closeTake_mem_hbm] | with_reducible apply foldl_wf | with_reducible apply foldl1_wf | intro _ _ _ | split | dsimp only [Done.only, RemotePlan.stop]))

@[simp] theorem State.classifySlate_wf (s : State) (ts : Nat) (hm : Memory.wf s.mem.hbm = true) :
    Memory.wf (State.classifySlate s ts).mem.hbm = true := by
  first | (unfold State.classifySlate; (try dsimp only); repeat' (first | with_reducible assumption | with_reducible apply State.boundary_wf | rw [State.acceptSlate_mem_hbm] | rw [State.earlyViolation_mem_hbm] | rw [State.reanchor_mem_hbm] | with_reducible apply foldl_wf | with_reducible apply foldl1_wf | intro _ _ _ | split | dsimp only [Done.only, RemotePlan.stop]))

@[simp] theorem State.takeSlate_wf (s : State) (ts : Nat) (hm : Memory.wf s.mem.hbm = true) :
    Memory.wf (State.takeSlate s ts).mem.hbm = true := by
  unfold State.takeSlate; (try dsimp only); repeat' (first | with_reducible assumption | with_reducible apply State.openTake_wf | with_reducible apply State.classifySlate_wf | rw [State.ignorePulse_mem_hbm] | rw [State.stormSlate_mem_hbm] | rw [State.acceptSlate_mem_hbm] | rw [State.takeControl_mem_hbm] | with_reducible apply foldl_wf | with_reducible apply foldl1_wf | with_reducible apply foldlRerouting_wf | intro _ _ _ | split | dsimp only [Done.only, RemotePlan.stop])

@[simp] theorem State.slateAt_wf (s : State) (ts : Nat) (hm : Memory.wf s.mem.hbm = true) :
    Memory.wf (State.slateAt s ts).mem.hbm = true := by
  unfold State.slateAt; (try dsimp only); repeat' (first | with_reducible assumption | with_reducible apply State.takeSlate_wf | rw [State.applyWaitingAdv_mem_hbm] | with_reducible apply foldl_wf | with_reducible apply foldl1_wf | with_reducible apply foldlRerouting_wf | intro _ _ _ | split | dsimp only [Done.only, RemotePlan.stop])

@[simp] theorem State.loadDescriptors_wf (s : State) (r : Reel) (l : Nat) (p : Nat) (hm : Memory.wf s.mem.hbm = true) :
    Memory.wf (State.loadDescriptors s r l p).mem.hbm = true := by
  unfold State.loadDescriptors; (try dsimp only); repeat' (first | with_reducible assumption | with_reducible apply State.hbmTouch_wf | rw [State.storeWrite_mem_hbm] | with_reducible apply foldl_wf | with_reducible apply foldl1_wf | with_reducible apply foldlRerouting_wf | intro _ _ _ | split | dsimp only [Done.only, RemotePlan.stop])

@[simp] theorem State.placeReel_wf (s : State) (r : Reel) (hm : Memory.wf s.mem.hbm = true) :
    Memory.wf (State.placeReel s r).mem.hbm = true := by
  unfold State.placeReel; (try dsimp only); repeat' (first | with_reducible assumption | with_reducible apply State.loadDescriptors_wf | rw [State.wakeTile_mem_hbm] | rw [State.restReserve_mem_hbm] | with_reducible apply foldl_wf | with_reducible apply foldl1_wf | with_reducible apply foldlRerouting_wf | intro _ _ _ | split | dsimp only [Done.only, RemotePlan.stop])

@[simp] theorem State.completeActivation_wf (s : State) (r : Reel) (hm : Memory.wf s.mem.hbm = true) :
    Memory.wf (State.completeActivation s r).mem.hbm = true := by
  unfold State.completeActivation; (try dsimp only); repeat' (first | with_reducible assumption | with_reducible apply State.placeReel_wf | rw [State.cueEffect_mem_hbm] | rw [State.startSteps_mem_hbm] | rw [State.startFills_mem_hbm] | with_reducible apply foldl_wf | with_reducible apply foldl1_wf | with_reducible apply foldlRerouting_wf | intro _ _ _ | split | dsimp only [Done.only, RemotePlan.stop])

@[simp] theorem State.isolateNext_wf (s : State) (l : Nat) (p : Nat) (hm : Memory.wf s.mem.hbm = true) :
    Memory.wf (State.isolateNext s l p).mem.hbm = true := by
  unfold State.isolateNext; (try dsimp only); repeat' (first | with_reducible assumption | with_reducible apply State.fetchNext_wf | rw [State.useFree_mem_hbm] | rw [Done.only_mem_hbm] | rw [State.complete_mem_hbm] | with_reducible apply foldl_wf | with_reducible apply foldl1_wf | with_reducible apply foldlRerouting_wf | intro _ _ _ | split | dsimp only [Done.only, RemotePlan.stop])

@[simp] theorem State.isolateAll_wf (s : State) (l : Nat) (p : Nat) (hm : Memory.wf s.mem.hbm = true) :
    Memory.wf (State.isolateAll s l p).mem.hbm = true := by
  first | (unfold State.isolateAll; (try dsimp only); repeat' (first | with_reducible assumption | with_reducible apply State.isolateNext_wf | rw [State.setLt_mem_hbm] | rw [State.failTake_mem_hbm] | with_reducible apply foldl_wf | with_reducible apply foldl1_wf | intro _ _ _ | split | dsimp only [Done.only, RemotePlan.stop]))

@[simp] theorem State.unplace_wf (s : State) (l : Nat) (p : Nat) (hm : Memory.wf s.mem.hbm = true) :
    Memory.wf (State.unplace s l p).mem.hbm = true := by
  first | (unfold State.unplace; (try dsimp only); repeat' (first | with_reducible assumption | with_reducible apply State.isolateAll_wf | rw [State.isolateEntry_mem_hbm] | rw [State.setLt_mem_hbm] | with_reducible apply foldl_wf | with_reducible apply foldl1_wf | intro _ _ _ | split | dsimp only [Done.only, RemotePlan.stop]))

@[simp] theorem State.placeOn_wf (s : State) (l : Nat) (p : Nat) (hm : Memory.wf s.mem.hbm = true) :
    Memory.wf (State.placeOn s l p).mem.hbm = true := by
  unfold State.placeOn; (try dsimp only); repeat' (first | with_reducible assumption | with_reducible apply State.loadDescriptors_wf | rw [State.setLt_mem_hbm] | rw [State.wakeTile_mem_hbm] | with_reducible apply foldl_wf | with_reducible apply foldl1_wf | with_reducible apply foldlRerouting_wf | intro _ _ _ | split | dsimp only [Done.only, RemotePlan.stop])

@[simp] theorem State.tryPlace_wf (s : State) (l : Nat) (hm : Memory.wf s.mem.hbm = true) :
    Memory.wf (State.tryPlace s l).mem.hbm = true := by
  unfold State.tryPlace; (try dsimp only); repeat' (first | with_reducible assumption | with_reducible apply State.placeOn_wf | with_reducible apply foldl_wf | with_reducible apply foldl1_wf | with_reducible apply foldlRerouting_wf | intro _ _ _ | split | dsimp only [Done.only, RemotePlan.stop])

@[simp] theorem State.moveFrom_wf (s : State) (p : Nat) (hm : Memory.wf s.mem.hbm = true) :
    Memory.wf (State.moveFrom s p).mem.hbm = true := by
  unfold State.moveFrom; (try dsimp only); repeat' (first | with_reducible assumption | with_reducible apply State.tryPlace_wf | with_reducible apply State.unplace_wf | rw [State.dropRounds_mem_hbm] | rw [State.noteUnplaced_mem_hbm] | with_reducible apply foldl_wf | with_reducible apply foldl1_wf | with_reducible apply foldlRerouting_wf | intro _ _ _ | split | dsimp only [Done.only, RemotePlan.stop])

@[simp] theorem State.fenceTile_wf (s : State) (p : Nat) (hm : Memory.wf s.mem.hbm = true) :
    Memory.wf (State.fenceTile s p).mem.hbm = true := by
  unfold State.fenceTile; (try dsimp only); repeat' (first | with_reducible assumption | with_reducible apply State.moveFrom_wf | rw [State.noteFence_mem_hbm] | rw [State.stopClock_mem_hbm] | rw [State.setPt_mem_hbm] | with_reducible apply foldl_wf | with_reducible apply foldl1_wf | with_reducible apply foldlRerouting_wf | intro _ _ _ | split | dsimp only [Done.only, RemotePlan.stop])

@[simp] theorem State.returnTile_wf (s : State) (p : Nat) (hm : Memory.wf s.mem.hbm = true) :
    Memory.wf (State.returnTile s p).mem.hbm = true := by
  unfold State.returnTile; (try dsimp only); repeat' (first | with_reducible assumption | with_reducible apply State.tryPlace_wf | rw [State.sleepTile_mem_hbm] | rw [State.setPt_mem_hbm] | with_reducible apply foldl_wf | with_reducible apply foldl1_wf | with_reducible apply foldlRerouting_wf | intro _ _ _ | split | dsimp only [Done.only, RemotePlan.stop])

@[simp] theorem State.bounce_wf (s : State) (p : Nat) (bs : List Byte) (hm : Memory.wf s.mem.hbm = true) :
    Memory.wf (State.bounce s p bs).1.mem.hbm = true := by
  unfold State.bounce; (try dsimp only); repeat' (first | with_reducible assumption | with_reducible apply State.hbmWriteOne_wf | with_reducible apply State.hbmTouch_wf | with_reducible apply foldl_wf | with_reducible apply foldl1_wf | with_reducible apply foldlRerouting_wf | intro _ _ _ | split | dsimp only [Done.only, RemotePlan.stop])

@[simp] theorem State.moveRead_wf (s : State) (p x : Nat) (a b : Desc) (hm : Memory.wf s.mem.hbm = true) :
    Memory.wf (State.moveRead s p x a b).1.mem.hbm = true := by
  unfold State.moveRead; (try dsimp only); repeat' (first | with_reducible assumption | with_reducible apply State.bounce_wf | with_reducible apply State.touchDesc_wf | with_reducible apply foldl_wf | with_reducible apply foldl1_wf | with_reducible apply foldlRerouting_wf | intro _ _ _ | split | dsimp only [Done.only, RemotePlan.stop])

@[simp] theorem State.moveData_wf (s : State) (l : Nat) (p : Nat) (x : Nat) (a : Desc) (b : Desc) (hm : Memory.wf s.mem.hbm = true) :
    Memory.wf (State.moveData s l p x a b).s.mem.hbm = true := by
  unfold State.moveData; (try dsimp only); repeat' (first | with_reducible assumption | with_reducible apply State.writeVals_wf | with_reducible apply State.writeCodes_wf | with_reducible apply State.smear_wf | with_reducible apply State.moveRead_wf | rw [Done.only_mem_hbm] | with_reducible apply foldl_wf | with_reducible apply foldl1_wf | with_reducible apply foldlRerouting_wf | intro _ _ _ | split | dsimp only [Done.only, RemotePlan.stop])

@[simp] theorem moveEff_wf (s : State) (l : Nat) (p : Nat) (e : QEntry) (hm : Memory.wf s.mem.hbm = true) :
    Memory.wf (moveEff s l p e).s.mem.hbm = true := by
  first | (unfold moveEff; (try dsimp only); repeat' (first | with_reducible assumption | with_reducible apply State.moveData_wf | rw [Done.only_mem_hbm] | with_reducible apply foldl_wf | with_reducible apply foldl1_wf | intro _ _ _ | split | dsimp only [Done.only, RemotePlan.stop]))

@[simp] theorem State.foldRead_wf (s : State) (p : Nat) (a am b bm : Desc) (hm : Memory.wf s.mem.hbm = true) :
    Memory.wf (State.foldRead s p a am b bm).1.mem.hbm = true := by
  unfold State.foldRead; (try dsimp only); repeat' (first | with_reducible assumption | with_reducible apply State.bounce_wf | with_reducible apply foldl_wf | with_reducible apply foldl1_wf | with_reducible apply foldlRerouting_wf | intro _ _ _ | split | dsimp only [Done.only, RemotePlan.stop])

@[simp] theorem State.foldRun_wf (s : State) (p : Nat) (a am b bm : Desc) (hm : Memory.wf s.mem.hbm = true) :
    Memory.wf (State.foldRun s p a am b bm).s.mem.hbm = true := by
  unfold State.foldRun; (try dsimp only); repeat' (first | with_reducible assumption | with_reducible apply State.foldRead_wf | with_reducible apply State.smear_wf | with_reducible apply State.writeCodes_wf | rw [Done.only_mem_hbm] | with_reducible apply foldl_wf | with_reducible apply foldl1_wf | with_reducible apply foldlRerouting_wf | intro _ _ _ | split | dsimp only [Done.only, RemotePlan.stop])

@[simp] theorem foldEff_wf (s : State) (_l : Nat) (p : Nat) (e : QEntry) (hm : Memory.wf s.mem.hbm = true) :
    Memory.wf (foldEff s _l p e).s.mem.hbm = true := by
  first | (unfold foldEff; (try dsimp only); repeat' (first | with_reducible assumption | with_reducible apply State.foldRun_wf | with_reducible apply State.writeCodes_wf | rw [Done.only_mem_hbm] | with_reducible apply foldl_wf | with_reducible apply foldl1_wf | intro _ _ _ | split | dsimp only [Done.only, RemotePlan.stop]))

@[simp] theorem State.drainData_wf (s : State) (l : Nat) (p : Nat) (x : Nat) (d : Desc) (hm : Memory.wf s.mem.hbm = true) :
    Memory.wf (State.drainData s l p x d).s.mem.hbm = true := by
  first | (unfold State.drainData; (try dsimp only); repeat' (first | with_reducible assumption | with_reducible apply State.writeCodes_wf | with_reducible apply State.writeVals_wf | rw [State.clearAfter_mem_hbm] | rw [Done.only_mem_hbm] | rw [State.countClass2_mem_hbm] | with_reducible apply foldl_wf | with_reducible apply foldl1_wf | intro _ _ _ | split | dsimp only [Done.only, RemotePlan.stop]))

@[simp] theorem drainEff_wf (s : State) (l : Nat) (p : Nat) (e : QEntry) (hm : Memory.wf s.mem.hbm = true) :
    Memory.wf (drainEff s l p e).s.mem.hbm = true := by
  first | (unfold drainEff; (try dsimp only); repeat' (first | with_reducible assumption | with_reducible apply State.drainData_wf | rw [Done.only_mem_hbm] | with_reducible apply foldl_wf | with_reducible apply foldl1_wf | intro _ _ _ | split | dsimp only [Done.only, RemotePlan.stop]))

@[simp] theorem State.readHeader_wf (s : State) (a : Nat) (hm : Memory.wf s.mem.hbm = true) :
    Memory.wf (State.readHeader s a).s.mem.hbm = true := by
  first | (unfold State.readHeader; (try dsimp only); repeat' (first | with_reducible assumption | with_reducible apply State.hbmTouch_wf | with_reducible apply foldl_wf | with_reducible apply foldl1_wf | intro _ _ _ | split | dsimp only [Done.only, RemotePlan.stop]))

@[simp] theorem State.readBody_wf (s : State) (a : Nat) (present : List SlicePos) (whole : Bool) (hm : Memory.wf s.mem.hbm = true) :
    Memory.wf (State.readBody s a present whole).1.mem.hbm = true := by
  first | (unfold State.readBody; (try dsimp only); repeat' (first | with_reducible assumption | with_reducible apply State.hbmTouch_wf | with_reducible apply foldl_wf | with_reducible apply foldl1_wf | intro _ _ _ | split | dsimp only [Done.only, RemotePlan.stop]))

@[simp] theorem State.emitWeights_wf (s : State) (l : Nat) (p : Nat) (x : Nat) (d : Desc) (ws : List (SlicePos × F32)) (hm : Memory.wf s.mem.hbm = true) :
    Memory.wf (State.emitWeights s l p x d ws).s.mem.hbm = true := by
  first | (unfold State.emitWeights; (try dsimp only); repeat' (first | with_reducible assumption | with_reducible apply State.writeSome_wf | with_reducible apply foldl_wf | with_reducible apply foldl1_wf | intro _ _ _ | split | dsimp only [Done.only, RemotePlan.stop]))

@[simp] theorem State.copyWrite_wf (x : State × Status) (a : Nat) (bs : List Byte) (hm : Memory.wf x.1.mem.hbm = true) :
    Memory.wf (State.copyWrite x a bs).1.mem.hbm = true := by
  first | (unfold State.copyWrite; (try dsimp only); repeat' (first | with_reducible assumption | with_reducible apply State.hbmWriteOne_wf | with_reducible apply foldl_wf | with_reducible apply foldl1_wf | intro _ _ _ | split | dsimp only [Done.only, RemotePlan.stop]))

@[simp] theorem State.writeCopy_wf (x : State × Status) (a : Nat) (now : StateHeader) (final : StateHeader) (body : List (Nat × List Byte)) (hm : Memory.wf x.1.mem.hbm = true) :
    Memory.wf (State.writeCopy x a now final body).1.mem.hbm = true := by
  first | (unfold State.writeCopy; (try dsimp only); repeat' (first | with_reducible assumption | with_reducible apply State.copyWrite_wf | with_reducible apply foldl_wf | with_reducible apply foldl1_wf | intro _ _ _ | split | dsimp only [Done.only, RemotePlan.stop]))

@[simp] theorem State.updateFrom_wf (s : State) (l : Nat) (p : Nat) (e : QEntry) (o : Update) (c : Copies) (src : Bool) (repair : Bool) (ecc : Status) (hm : Memory.wf s.mem.hbm = true) :
    Memory.wf (State.updateFrom s l p e o c src repair ecc).s.mem.hbm = true := by
  first | (unfold State.updateFrom; (try dsimp only); repeat' (first | with_reducible assumption | with_reducible apply State.writeCopy_wf | with_reducible apply State.emitWeights_wf | rw [State.clearAfter_mem_hbm] | rw [Done.only_mem_hbm] | rw [State.setPt_mem_hbm] | rw [State.countClass2_mem_hbm] | with_reducible apply foldl_wf | with_reducible apply foldl1_wf | intro _ _ _ | split | dsimp only [Done.only, RemotePlan.stop]))

@[simp] theorem State.updateChoose_wf (l : Nat) (p : Nat) (e : QEntry) (o : Update) (c : Copies) (x5 : List Bool) (x6 : State) (x7 : Status) (hm : Memory.wf x6.mem.hbm = true) :
    Memory.wf (State.updateChoose l p e o c x5 x6 x7).s.mem.hbm = true := by
  first | ((induction x5 generalizing x6 x7 with | nil => (simp [State.updateChoose, *] <;> done) | cons a b ih => (unfold State.updateChoose; (try dsimp only); (repeat' split) <;> simp_all)))

@[simp] theorem State.updateData_wf (s : State) (l : Nat) (p : Nat) (e : QEntry) (o : Update) (hm : Memory.wf s.mem.hbm = true) :
    Memory.wf (State.updateData s l p e o).s.mem.hbm = true := by
  first | (unfold State.updateData; (try dsimp only); repeat' (first | with_reducible assumption | with_reducible apply State.readHeader_wf | with_reducible apply State.updateChoose_wf | rw [Done.only_mem_hbm] | with_reducible apply foldl_wf | with_reducible apply foldl1_wf | intro _ _ _ | split | dsimp only [Done.only, RemotePlan.stop]))

@[simp] theorem updateEff_wf (s : State) (l : Nat) (p : Nat) (e : QEntry) (hm : Memory.wf s.mem.hbm = true) :
    Memory.wf (updateEff s l p e).s.mem.hbm = true := by
  first | (unfold updateEff; (try dsimp only); repeat' (first | with_reducible assumption | with_reducible apply State.updateData_wf | rw [Done.only_mem_hbm] | with_reducible apply foldl_wf | with_reducible apply foldl1_wf | intro _ _ _ | split | dsimp only [Done.only, RemotePlan.stop]))

@[simp] theorem State.vecWrite_wf (s : State) (l : Nat) (p : Nat) (x : Nat) (d : Option Desc) (vals : List Val) (hm : Memory.wf s.mem.hbm = true) :
    Memory.wf (State.vecWrite s l p x d vals).s.mem.hbm = true := by
  first | (unfold State.vecWrite; (try dsimp only); repeat' (first | with_reducible assumption | with_reducible apply State.writeVals_wf | with_reducible apply foldl_wf | with_reducible apply foldl1_wf | intro _ _ _ | split | dsimp only [Done.only, RemotePlan.stop]))

@[simp] theorem State.vecWriteCodes_wf (s : State) (p : Nat) (d : Option Desc) (codes : List Nat) (hm : Memory.wf s.mem.hbm = true) :
    Memory.wf (State.vecWriteCodes s p d codes).1.mem.hbm = true := by
  first | (unfold State.vecWriteCodes; (try dsimp only); repeat' (first | with_reducible assumption | with_reducible apply State.writeCodes_wf | with_reducible apply foldl_wf | with_reducible apply foldl1_wf | intro _ _ _ | split | dsimp only [Done.only, RemotePlan.stop]))

@[simp] theorem State.selectRun_wf (s : State) (l : Nat) (p : Nat) (x : Nat) (sc : Desc) (asg : Desc) (hm : Memory.wf s.mem.hbm = true) :
    Memory.wf (State.selectRun s l p x sc asg).s.mem.hbm = true := by
  unfold State.selectRun; (try dsimp only); repeat' (first | with_reducible assumption | with_reducible apply State.writeCodes_wf | rw [State.setPt_mem_hbm] | rw [State.repairParity_mem_hbm] | rw [Done.only_mem_hbm] | with_reducible apply foldl_wf | with_reducible apply foldl1_wf | with_reducible apply foldlRerouting_wf | intro _ _ _ | split | dsimp only [Done.only, RemotePlan.stop])

@[simp] theorem selectEff_wf (s : State) (l : Nat) (p : Nat) (e : QEntry) (hm : Memory.wf s.mem.hbm = true) :
    Memory.wf (selectEff s l p e).s.mem.hbm = true := by
  first | (unfold selectEff; (try dsimp only); repeat' (first | with_reducible assumption | with_reducible apply State.selectRun_wf | rw [Done.only_mem_hbm] | with_reducible apply foldl_wf | with_reducible apply foldl1_wf | intro _ _ _ | split | dsimp only [Done.only, RemotePlan.stop]))

@[simp] theorem State.combineRun_wf (s : State) (l : Nat) (p : Nat) (x : Nat) (tok : Desc) (asg : Desc) (out : Desc) (hm : Memory.wf s.mem.hbm = true) :
    Memory.wf (State.combineRun s l p x tok asg out).s.mem.hbm = true := by
  first | (unfold State.combineRun; (try dsimp only); repeat' (first | with_reducible assumption | with_reducible apply State.writeVals_wf | rw [Done.only_mem_hbm] | with_reducible apply foldl_wf | with_reducible apply foldl1_wf | intro _ _ _ | split | dsimp only [Done.only, RemotePlan.stop]))

@[simp] theorem combineEff_wf (s : State) (l : Nat) (p : Nat) (e : QEntry) (hm : Memory.wf s.mem.hbm = true) :
    Memory.wf (combineEff s l p e).s.mem.hbm = true := by
  first | (unfold combineEff; (try dsimp only); repeat' (first | with_reducible assumption | with_reducible apply State.combineRun_wf | rw [Done.only_mem_hbm] | with_reducible apply foldl_wf | with_reducible apply foldl1_wf | intro _ _ _ | split | dsimp only [Done.only, RemotePlan.stop]))

@[simp] theorem State.stageWrite_wf (s : State) (p : Nat) (h : Nat) (at_ : Nat) (bs : List Byte) (hm : Memory.wf s.mem.hbm = true) :
    Memory.wf (State.stageWrite s p h at_ bs).mem.hbm = true := by
  first | (unfold State.stageWrite; (try dsimp only); repeat' (first | with_reducible assumption | with_reducible apply State.spaceWrite_wf | with_reducible apply foldl_wf | with_reducible apply foldl1_wf | intro _ _ _ | split | dsimp only [Done.only, RemotePlan.stop]))

@[simp] theorem State.markRecord_wf (s : State) (p : Nat) (h : Nat) (j : Nat) (hm : Memory.wf s.mem.hbm = true) :
    Memory.wf (State.markRecord s p h j).mem.hbm = true := by
  first | (unfold State.markRecord; (try dsimp only); repeat' (first | with_reducible assumption | with_reducible apply State.stageWrite_wf | with_reducible apply foldl_wf | with_reducible apply foldl1_wf | intro _ _ _ | split | dsimp only [Done.only, RemotePlan.stop]))

@[simp] theorem State.claimRecord_wf (s : State) (l : Nat) (p : Nat) (a : Nat) (h : Nat) (j : Nat) (q : Packet) (hm : Memory.wf s.mem.hbm = true) :
    Memory.wf (State.claimRecord s l p a h j q).mem.hbm = true := by
  first | (unfold State.claimRecord; (try dsimp only); repeat' (first | with_reducible assumption | with_reducible apply State.markRecord_wf | rw [State.putHeader_mem_hbm] | rw [State.setRecs_mem_hbm] | with_reducible apply foldl_wf | with_reducible apply foldl1_wf | intro _ _ _ | split | dsimp only [Done.only, RemotePlan.stop]))

@[simp] theorem State.arriveRecord_wf (s : State) (l : Nat) (p : Nat) (a : Nat) (h : Nat) (j : Nat) (hm : Memory.wf s.mem.hbm = true) :
    Memory.wf (State.arriveRecord s l p a h j).mem.hbm = true := by
  first | (unfold State.arriveRecord; (try dsimp only); repeat' (first | with_reducible assumption | with_reducible apply State.markRecord_wf | rw [State.setRecs_mem_hbm] | rw [State.putHeader_mem_hbm] | with_reducible apply foldl_wf | with_reducible apply foldl1_wf | intro _ _ _ | split | dsimp only [Done.only, RemotePlan.stop]))

@[simp] theorem State.stagePacket_wf (s : State) (q : Packet) (claimed : Option Nat) (hm : Memory.wf s.mem.hbm = true) :
    Memory.wf (State.stagePacket s q claimed).1.mem.hbm = true := by
  first | (unfold State.stagePacket; (try dsimp only); repeat' (first | with_reducible assumption | with_reducible apply State.claimRecord_wf | with_reducible apply State.stageWrite_wf | with_reducible apply State.arriveRecord_wf | with_reducible apply foldl_wf | with_reducible apply foldl1_wf | intro _ _ _ | split | dsimp only [Done.only, RemotePlan.stop]))

@[simp] theorem State.writeLocal_wf (s : State) (a : Nat) (bs : List Byte) (hm : Memory.wf s.mem.hbm = true) :
    Memory.wf (State.writeLocal s a bs).1.mem.hbm = true := by
  unfold State.writeLocal; (try dsimp only); repeat' (first | with_reducible assumption | with_reducible apply State.hbmWriteChecked_wf | rw [State.storeWrite_mem_hbm] | with_reducible apply foldl_wf | with_reducible apply foldl1_wf | with_reducible apply foldlRerouting_wf | intro _ _ _ | split | dsimp only [Done.only, RemotePlan.stop])

@[simp] theorem State.correctPieces_wf (s : State) (ps : List (Nat × Nat × Nat)) (hm : Memory.wf s.mem.hbm = true) :
    Memory.wf (State.correctPieces s ps).1.mem.hbm = true := by
  unfold State.correctPieces; (try dsimp only); repeat' (first | with_reducible assumption | rw [State.correctAt_mem_hbm] | with_reducible apply foldl_wf | with_reducible apply foldl1_wf | with_reducible apply foldlRerouting_wf | intro _ _ _ | split | dsimp only [Done.only, RemotePlan.stop])

@[simp] theorem State.readLocal_wf (s : State) (a n : Nat) (hm : Memory.wf s.mem.hbm = true) :
    Memory.wf (State.readLocal s a n).1.mem.hbm = true := by
  unfold State.readLocal; (try dsimp only); repeat' (first | with_reducible assumption | with_reducible apply State.correctPieces_wf | with_reducible apply State.hbmTouch_wf | rw [State.correctPieces_mem_hbm] | with_reducible apply foldl_wf | with_reducible apply foldl1_wf | with_reducible apply foldlRerouting_wf | intro _ _ _ | split | dsimp only [Done.only, RemotePlan.stop])

@[simp] theorem State.applyPacket_wf (s : State) (via : Via) (q : Packet) (rec : Option Nat) (hm : Memory.wf s.mem.hbm = true) :
    Memory.wf (State.applyPacket s via q rec).1.mem.hbm = true := by
  unfold State.applyPacket; (try dsimp only); repeat' (first | with_reducible assumption | with_reducible apply State.stagePacket_wf | with_reducible apply State.writeLocal_wf | with_reducible apply State.readLocal_wf | rw [State.addFlag_mem_hbm] | rw [State.routeOrDrop_mem_hbm] | with_reducible apply foldl_wf | with_reducible apply foldl1_wf | with_reducible apply foldlRerouting_wf | intro _ _ _ | split | dsimp only [Done.only, RemotePlan.stop])

@[simp] theorem State.readRound_wf (s : State) (own : Bool) (k : OpTrack) (q : Packet) (hm : Memory.wf s.mem.hbm = true) :
    Memory.wf (State.readRound s own k q).1.mem.hbm = true := by
  unfold State.readRound; (try dsimp only); repeat' (first | with_reducible assumption | rw [State.correctAt_mem_hbm] | with_reducible apply foldl_wf | with_reducible apply foldl1_wf | with_reducible apply foldlRerouting_wf | intro _ _ _ | split | dsimp only [Done.only, RemotePlan.stop])

@[simp] theorem State.takePacket_wf (s : State) (own : Bool) (via : Via) (k : OpTrack) (q : Packet) (hm : Memory.wf s.mem.hbm = true) :
    Memory.wf (State.takePacket s own via k q).1.mem.hbm = true := by
  unfold State.takePacket; (try dsimp only); repeat' (first | with_reducible assumption | with_reducible apply State.readRound_wf | with_reducible apply State.applyPacket_wf | rw [State.readRound_mem_hbm] | rw [State.noteRefusal_mem_hbm] | with_reducible apply foldl_wf | with_reducible apply foldl1_wf | with_reducible apply foldlRerouting_wf | intro _ _ _ | split | dsimp only [Done.only, RemotePlan.stop])

@[simp] theorem State.touchStage_wf (s : State) (p a h : Nat) (hm : Memory.wf s.mem.hbm = true) :
    Memory.wf (State.touchStage s p a h).mem.hbm = true := by
  unfold State.touchStage; (try dsimp only); repeat' (first | with_reducible assumption | with_reducible apply State.spaceTouch_wf | rw [State.correctAt_mem_hbm] | with_reducible apply foldl_wf | with_reducible apply foldl1_wf | with_reducible apply foldlRerouting_wf | intro _ _ _ | split | dsimp only [Done.only, RemotePlan.stop])

@[simp] theorem State.combineRound_wf (s : State) (l a p : Nat) (hm : Memory.wf s.mem.hbm = true) :
    Memory.wf (State.combineRound s l a p).mem.hbm = true := by
  unfold State.combineRound; (try dsimp only); repeat' (first | with_reducible assumption | with_reducible apply State.touchStage_wf | rw [State.putHeader_mem_hbm] | rw [State.addFlag_mem_hbm] | rw [State.storeWrite_mem_hbm] | with_reducible apply foldl_wf | with_reducible apply foldl1_wf | with_reducible apply foldlRerouting_wf | intro _ _ _ | split | dsimp only [Done.only, RemotePlan.stop])

@[simp] theorem State.writePacked_wf (s : State) (p : Nat) (d : Desc) (off : Nat) (bs : List Byte) (hm : Memory.wf s.mem.hbm = true) :
    Memory.wf (State.writePacked s p d off bs).1.mem.hbm = true := by
  unfold State.writePacked; (try dsimp only); repeat' (first | with_reducible assumption | with_reducible apply State.spaceWrite_wf | with_reducible apply foldl_wf | with_reducible apply foldl1_wf | with_reducible apply foldlRerouting_wf | intro _ _ _ | split | dsimp only [Done.only, RemotePlan.stop])

@[simp] theorem State.deliverGet_wf (s : State) (l : Nat) (o : RemoteOp) (off : Nat) (bs : List Byte) (hm : Memory.wf s.mem.hbm = true) :
    Memory.wf (State.deliverGet s l o off bs).1.mem.hbm = true := by
  unfold State.deliverGet; (try dsimp only); repeat' (first | with_reducible assumption | with_reducible apply State.writePacked_wf | rw [State.correctAt_mem_hbm] | with_reducible apply foldl_wf | with_reducible apply foldl1_wf | with_reducible apply foldlRerouting_wf | intro _ _ _ | split | dsimp only [Done.only, RemotePlan.stop])

@[simp] theorem State.applyOwn_wf (s : State) (l : Nat) (o : RemoteOp) (hm : Memory.wf s.mem.hbm = true) :
    Memory.wf (State.applyOwn s l o).1.mem.hbm = true := by
  unfold State.applyOwn; (try dsimp only); repeat' (first | with_reducible assumption | with_reducible apply State.deliverGet_wf | with_reducible apply State.takePacket_wf | with_reducible apply State.readLocal_wf | rw [State.noteRefusal_mem_hbm] | with_reducible apply foldl_wf | with_reducible apply foldl1_wf | with_reducible apply foldlRerouting_wf | intro _ _ _ | split | dsimp only [Done.only, RemotePlan.stop])

@[simp] theorem State.sendOp_wf (s : State) (l : Nat) (i : Nat) (o : RemoteOp) (hm : Memory.wf s.mem.hbm = true) :
    Memory.wf (State.sendOp s l i o).mem.hbm = true := by
  unfold State.sendOp; (try dsimp only); repeat' (first | with_reducible assumption | with_reducible apply State.applyOwn_wf | rw [State.setLt_mem_hbm] | rw [State.sendMore_mem_hbm] | with_reducible apply foldl_wf | with_reducible apply foldl1_wf | with_reducible apply foldlRerouting_wf | intro _ _ _ | split | dsimp only [Done.only, RemotePlan.stop])

@[simp] theorem State.sendReady_wf (s : State) (l : Nat) (hm : Memory.wf s.mem.hbm = true) :
    Memory.wf (State.sendReady s l).mem.hbm = true := by
  unfold State.sendReady; (try dsimp only); repeat' (first | with_reducible assumption | with_reducible apply State.sendOp_wf | rw [State.sendMore_mem_hbm] | with_reducible apply foldl_wf | with_reducible apply foldl1_wf | with_reducible apply foldlRerouting_wf | intro _ _ _ | split | dsimp only [Done.only, RemotePlan.stop])

@[simp] theorem State.portWork_wf (s : State) (l : Nat) (y2 : Option (Nat × Nat)) (hm : Memory.wf s.mem.hbm = true) :
    Memory.wf (State.portWork s l y2).mem.hbm = true := by
  unfold State.portWork; (try dsimp only); repeat' (first | with_reducible assumption | with_reducible apply State.tryPlace_wf | with_reducible apply State.sendReady_wf | rw [State.noteUnplaced_mem_hbm] | rw [State.finishAll_mem_hbm] | with_reducible apply foldl_wf | with_reducible apply foldl1_wf | with_reducible apply foldlRerouting_wf | intro _ _ _ | split | dsimp only [Done.only, RemotePlan.stop])

@[simp] theorem State.settle_wf (s : State) (hm : Memory.wf s.mem.hbm = true) :
    Memory.wf (State.settle s).mem.hbm = true := by
  first | (unfold State.settle; (try dsimp only); repeat' (first | with_reducible assumption | with_reducible apply State.portWork_wf | with_reducible apply foldl_wf | with_reducible apply foldl1_wf | intro _ _ _ | split | dsimp only [Done.only, RemotePlan.stop]))

@[simp] theorem State.startPlan_wf (l : Nat) (p : Nat) (cycles : Nat) (e : QEntry) (r : RemotePlan) (hm : Memory.wf r.s.mem.hbm = true) :
    Memory.wf (State.startPlan l p cycles e r).mem.hbm = true := by
  first | (unfold State.startPlan; (try dsimp only); repeat' (first | with_reducible assumption | with_reducible apply State.portWork_wf | rw [State.complete_mem_hbm] | rw [Done.only_mem_hbm] | rw [State.setLt_mem_hbm] | with_reducible apply foldl_wf | with_reducible apply foldl1_wf | intro _ _ _ | split | dsimp only [Done.only, RemotePlan.stop]))

@[simp] theorem RemotePlan.heal_wf (s : State) (p x : Nat) (r : RemotePlan) (hm : Memory.wf r.s.mem.hbm = true) :
    Memory.wf (RemotePlan.heal s p x r).s.mem.hbm = true := by
  unfold RemotePlan.heal; dsimp only; rw [State.correct_mem_hbm]; exact hm

@[simp] theorem State.runRemote_wf (s : State) (l : Nat) (cycles : Nat) (mine : Nat → Bool) (plan : State → Nat → Nat → QEntry → RemotePlan) (hplan : ∀ t l p e, Memory.wf t.mem.hbm = true → Memory.wf (plan t l p e).s.mem.hbm = true) (hm : Memory.wf s.mem.hbm = true) :
    Memory.wf (State.runRemote s l cycles mine plan).mem.hbm = true := by
  unfold State.runRemote; (try dsimp only); repeat' (first | with_reducible assumption | (apply hplan; assumption) | with_reducible apply RemotePlan.heal_wf | with_reducible apply State.startPlan_wf | rw [Done.heal_mem_hbm] | rw [State.complete_mem_hbm] | rw [Done.only_mem_hbm] | with_reducible apply foldl_wf | with_reducible apply foldl1_wf | with_reducible apply foldlRerouting_wf | intro _ _ _ | split | dsimp only [Done.only, RemotePlan.stop])

@[simp] theorem planSend_wf (s : State) (p : Nat) (d : Desc) (o : OpSpec) (hm : Memory.wf s.mem.hbm = true) :
    Memory.wf (planSend s p d o).s.mem.hbm = true := by
  unfold planSend; (try dsimp only); repeat' (first | with_reducible assumption | with_reducible apply State.touchDesc_wf | rw [RemotePlan.stop_mem_hbm] | rw [ArrayDone.done_mem_hbm] | with_reducible apply foldl_wf | with_reducible apply foldl1_wf | with_reducible apply foldlRerouting_wf | intro _ _ _ | split | dsimp only [Done.only, RemotePlan.stop])

@[simp] theorem planPut_wf (s : State) (_l p : Nat) (e : QEntry) (hm : Memory.wf s.mem.hbm = true) :
    Memory.wf (planPut s _l p e).s.mem.hbm = true := by
  unfold planPut; (try dsimp only); repeat' (first | with_reducible assumption | with_reducible apply planSend_wf | rw [RemotePlan.stop_mem_hbm] | with_reducible apply foldl_wf | with_reducible apply foldl1_wf | with_reducible apply foldlRerouting_wf | intro _ _ _ | split | dsimp only [Done.only, RemotePlan.stop])

@[simp] theorem planAcc_wf (s : State) (_l p : Nat) (e : QEntry) (hm : Memory.wf s.mem.hbm = true) :
    Memory.wf (planAcc s _l p e).s.mem.hbm = true := by
  unfold planAcc; (try dsimp only); repeat' (first | with_reducible assumption | with_reducible apply planSend_wf | rw [RemotePlan.stop_mem_hbm] | with_reducible apply foldl_wf | with_reducible apply foldl1_wf | with_reducible apply foldlRerouting_wf | intro _ _ _ | split | dsimp only [Done.only, RemotePlan.stop])

@[simp] theorem State.timeOutOps_wf (s : State) (l : Nat) (hm : Memory.wf s.mem.hbm = true) :
    Memory.wf (State.timeOutOps s l).mem.hbm = true := by
  first | (unfold State.timeOutOps; (try dsimp only); repeat' (first | with_reducible assumption | with_reducible apply State.portWork_wf | rw [State.bumpFabric_mem_hbm] | rw [State.setLt_mem_hbm] | with_reducible apply foldl_wf | with_reducible apply foldl1_wf | intro _ _ _ | split | dsimp only [Done.only, RemotePlan.stop]))

@[simp] theorem State.reissueOp_wf (s : State) (l : Nat) (i : Nat) (hm : Memory.wf s.mem.hbm = true) :
    Memory.wf (State.reissueOp s l i).mem.hbm = true := by
  unfold State.reissueOp; (try dsimp only); repeat' (first | with_reducible assumption | with_reducible apply State.applyOwn_wf | rw [State.setLt_mem_hbm] | rw [State.routePackets_mem_hbm] | with_reducible apply foldl_wf | with_reducible apply foldl1_wf | with_reducible apply foldlRerouting_wf | intro _ _ _ | split | dsimp only [Done.only, RemotePlan.stop])

@[simp] theorem State.takeNext_wf (s : State) (r : RxStream) (e : Arrived) (hm : Memory.wf s.mem.hbm = true) :
    Memory.wf (State.takeNext s r e).1.mem.hbm = true := by
  unfold State.takeNext; (try dsimp only); repeat' (first | with_reducible assumption | with_reducible apply State.takePacket_wf | rw [State.answerTaken_mem_hbm] | with_reducible apply foldl_wf | with_reducible apply foldl1_wf | with_reducible apply foldlRerouting_wf | intro _ _ _ | split | dsimp only [Done.only, RemotePlan.stop])

@[simp] theorem State.drainHeld_wf (x0 : Nat) (x1 : State × RxStream) (hm : Memory.wf x1.1.mem.hbm = true) :
    Memory.wf (State.drainHeld x0 x1).1.mem.hbm = true := by
  first | ((induction x0 generalizing x1 with | zero => (simp [State.drainHeld, *] <;> done) | succ n ih => (unfold State.drainHeld; (try dsimp only); (repeat' split) <;> simp_all)))

@[simp] theorem State.takeReissue_wf (s : State) (r : RxStream) (e : Arrived) (hm : Memory.wf s.mem.hbm = true) :
    Memory.wf (State.takeReissue s r e).1.mem.hbm = true := by
  unfold State.takeReissue; (try dsimp only); repeat' (first | with_reducible assumption | with_reducible apply State.takePacket_wf | rw [State.answerTaken_mem_hbm] | with_reducible apply foldl_wf | with_reducible apply foldl1_wf | with_reducible apply foldlRerouting_wf | intro _ _ _ | split | dsimp only [Done.only, RemotePlan.stop])

@[simp] theorem State.arriveInOrder_wf (s : State) (e : Arrived) (hm : Memory.wf s.mem.hbm = true) :
    Memory.wf (State.arriveInOrder s e).mem.hbm = true := by
  unfold State.arriveInOrder; (try dsimp only); repeat' (first | with_reducible assumption | with_reducible apply State.takeNext_wf | with_reducible apply State.drainHeld_wf | with_reducible apply State.takeReissue_wf | rw [State.setRx_mem_hbm] | rw [State.discardLate_mem_hbm] | with_reducible apply foldl_wf | with_reducible apply foldl1_wf | with_reducible apply foldlRerouting_wf | intro _ _ _ | split | dsimp only [Done.only, RemotePlan.stop])

@[simp] theorem State.arrive_wf (s : State) (e : Arrived) (hm : Memory.wf s.mem.hbm = true) :
    Memory.wf (State.arrive s e).mem.hbm = true := by
  unfold State.arrive; (try dsimp only); repeat' (first | with_reducible assumption | with_reducible apply State.arriveInOrder_wf | rw [State.refuseUnnumbered_mem_hbm] | with_reducible apply foldl_wf | with_reducible apply foldl1_wf | with_reducible apply foldlRerouting_wf | intro _ _ _ | split | dsimp only [Done.only, RemotePlan.stop])

theorem State.onPacket_wf (s : State) (k : Nat) (q : Packet) (act : State → State)
    (hact : ∀ t, Memory.wf t.mem.hbm = true → Memory.wf (act t).mem.hbm = true) (hm : Memory.wf s.mem.hbm = true) :
    Memory.wf (State.onPacket s k q act).mem.hbm = true := by
  unfold State.onPacket; (try dsimp only)
  repeat' (first | assumption | with_reducible apply hact | rw [State.returnCredits_mem_hbm] | rw [State.requestReplay_mem_hbm] | rw [State.acceptPacket_mem_hbm] | rw [State.takeHeader_mem_hbm] | rw [State.wakeBlock_mem_hbm] | split)

theorem State.routeIn_wf (s : State) (k : Nat) (q : Packet) (msg : Option ControlMsg) (here : State → State)
    (hhere : ∀ t, Memory.wf t.mem.hbm = true → Memory.wf (here t).mem.hbm = true) (hm : Memory.wf s.mem.hbm = true) :
    Memory.wf (State.routeIn s k q msg here).mem.hbm = true := by
  unfold State.routeIn
  split
  · exact hhere s hm
  · rw [State.transit_mem_hbm]; exact hm

@[simp] theorem State.dataPacket_wf (s : State) (port op : Nat) (q : Packet) (hm : Memory.wf s.mem.hbm = true) :
    Memory.wf (State.dataPacket s port op q).mem.hbm = true := by
  unfold State.dataPacket
  exact State.settle_wf _ (State.onPacket_wf _ _ _ _ (fun t ht =>
    State.routeIn_wf _ _ _ _ _ (fun u hu => State.arrive_wf _ _ hu) ht) hm)

@[simp] theorem State.takeGetData_wf (s : State) (q : Packet) (hm : Memory.wf s.mem.hbm = true) :
    Memory.wf (State.takeGetData s q).mem.hbm = true := by
  unfold State.takeGetData; (try dsimp only); repeat' (first | with_reducible assumption | with_reducible apply State.deliverGet_wf | rw [State.noteGetWrite_mem_hbm] | rw [State.log_mem_hbm] | with_reducible apply foldl_wf | with_reducible apply foldl1_wf | with_reducible apply foldlRerouting_wf | intro _ _ _ | split | dsimp only [Done.only, RemotePlan.stop])

@[simp] theorem State.skipMissing_wf (s : State) (r : RxStream) (hm : Memory.wf s.mem.hbm = true) :
    Memory.wf (State.skipMissing s r).mem.hbm = true := by
  first | (unfold State.skipMissing; (try dsimp only); repeat' (first | with_reducible assumption | with_reducible apply State.drainHeld_wf | rw [State.log_mem_hbm] | rw [State.setRx_mem_hbm] | with_reducible apply foldl_wf | with_reducible apply foldl1_wf | intro _ _ _ | split | dsimp only [Done.only, RemotePlan.stop]))

@[simp] theorem State.patrol_wf (s : State) (burst : Nat) (hm : Memory.wf s.mem.hbm = true) :
    Memory.wf (State.patrol s burst).mem.hbm = true := by
  unfold State.patrol; (try dsimp only); repeat' (first | with_reducible assumption | with_reducible apply State.correctBurst_wf | with_reducible apply foldl_wf | with_reducible apply foldl1_wf | with_reducible apply foldlRerouting_wf | intro _ _ _ | split | dsimp only [Done.only, RemotePlan.stop])

@[simp] theorem State.failSegment_wf (s : State) (d : Nat) (c : Nat) (hm : Memory.wf s.mem.hbm = true) :
    Memory.wf (State.failSegment s d c).mem.hbm = true := by
  first | (unfold State.failSegment; (try dsimp only); repeat' (first | with_reducible assumption | with_reducible apply State.fenceTile_wf | rw [State.event_mem_hbm] | rw [State.countFault_mem_hbm] | with_reducible apply foldl_wf | with_reducible apply foldl1_wf | intro _ _ _ | split | dsimp only [Done.only, RemotePlan.stop]))

@[simp] theorem State.loadTableAt_wf (s : State) (a : Nat) (hm : Memory.wf s.mem.hbm = true) :
    Memory.wf (State.loadTableAt s a).mem.hbm = true := by
  unfold State.loadTableAt; (try dsimp only); repeat' (first | with_reducible assumption | with_reducible apply State.hbmTouch_wf | rw [State.setObj_mem_hbm] | with_reducible apply foldl_wf | with_reducible apply foldl1_wf | with_reducible apply foldlRerouting_wf | intro _ _ _ | split | dsimp only [Done.only, RemotePlan.stop])

@[simp] theorem State.loadTable_wf (s : State) (hm : Memory.wf s.mem.hbm = true) :
    Memory.wf (State.loadTable s).mem.hbm = true := by
  unfold State.loadTable; (try dsimp only); repeat' (first | with_reducible assumption | with_reducible apply State.loadTableAt_wf | with_reducible apply foldl_wf | with_reducible apply foldl1_wf | with_reducible apply foldlRerouting_wf | intro _ _ _ | split | dsimp only [Done.only, RemotePlan.stop])

@[simp] theorem State.applyValue_wf (s : State) (index sub v : Nat) (hm : Memory.wf s.mem.hbm = true) :
    Memory.wf (State.applyValue s index sub v).mem.hbm = true := by
  unfold State.applyValue
  dsimp only
  repeat' (first | with_reducible assumption | (with_reducible apply State.loadTable_wf; exact hm) | with_reducible apply ite_wf)
  all_goals (first | (simp only [State.writeCal_mem_hbm, State.writePower_mem_hbm, State.startCommit_mem_hbm, State.commandCompaction_mem_hbm, State.refreshAlert_mem_hbm, State.clearTable_mem_hbm, State.writeScale_mem_hbm, State.writeThreshold_mem_hbm, State.restReserve_mem_hbm, State.writeEntry_mem_hbm, State.setObj_mem_hbm, State.writeTakeControl_mem_hbm, State.haltServer_mem_hbm, State.writeDuplex_mem_hbm]; exact hm) | exact hm)

@[simp] theorem State.applyValues_wf (s : State) (vs : List (Nat × Nat)) (hm : Memory.wf s.mem.hbm = true) :
    Memory.wf (State.applyValues s vs).mem.hbm = true := by
  first | (unfold State.applyValues; (try dsimp only); repeat' (first | with_reducible assumption | with_reducible apply State.applyValue_wf | rw [State.retrainPorts_mem_hbm] | with_reducible apply foldl_wf | with_reducible apply foldl1_wf | intro _ _ _ | split | dsimp only [Done.only, RemotePlan.stop]))

@[simp] theorem State.eraseCommand_wf (s : State) (hm : Memory.wf s.mem.hbm = true) :
    Memory.wf (State.eraseCommand s).mem.hbm = true := by
  first | (unfold State.eraseCommand; (try dsimp only); repeat' (first | with_reducible assumption | with_reducible apply State.applyValues_wf | rw [State.eraseJournal_mem_hbm] | rw [State.setObj_mem_hbm] | with_reducible apply foldl_wf | with_reducible apply foldl1_wf | intro _ _ _ | split | dsimp only [Done.only, RemotePlan.stop]))

@[simp] theorem State.carryOut_wf (s : State) (path : Path) (a : Access) (ws : List (Nat × Nat)) (hm : Memory.wf s.mem.hbm = true) :
    Memory.wf (State.carryOut s path a ws).1.mem.hbm = true := by
  first | (unfold State.carryOut; (try dsimp only); repeat' (first | with_reducible assumption | with_reducible apply State.applyValues_wf | with_reducible apply State.eraseCommand_wf | rw [State.refuse_mem_hbm] | with_reducible apply foldl_wf | with_reducible apply foldl1_wf | intro _ _ _ | split | dsimp only [Done.only, RemotePlan.stop]))

@[simp] theorem State.serveAccess_wf (s : State) (path : Path) (a : Access) (hm : Memory.wf s.mem.hbm = true) :
    Memory.wf (State.serveAccess s path a).1.mem.hbm = true := by
  first | (unfold State.serveAccess; (try dsimp only); repeat' (first | with_reducible assumption | with_reducible apply State.carryOut_wf | rw [State.refuse_mem_hbm] | rw [State.settleRead_mem_hbm] | with_reducible apply foldl_wf | with_reducible apply foldl1_wf | intro _ _ _ | split | dsimp only [Done.only, RemotePlan.stop]))

@[simp] theorem State.serveOne_wf (s : State) (hm : Memory.wf s.mem.hbm = true) :
    Memory.wf (State.serveOne s).mem.hbm = true := by
  first | (unfold State.serveOne; (try dsimp only); repeat' (first | with_reducible assumption | with_reducible apply State.serveAccess_wf | rw [State.answerFront_mem_hbm] | rw [State.finishJob_mem_hbm] | with_reducible apply foldl_wf | with_reducible apply foldl1_wf | intro _ _ _ | split | dsimp only [Done.only, RemotePlan.stop]))

@[simp] theorem State.serveTurns_wf (x0 : Nat) (x1 : State) (hm : Memory.wf x1.mem.hbm = true) :
    Memory.wf (State.serveTurns x0 x1).mem.hbm = true := by
  first | (induction x0 generalizing x1 <;> simp_all [State.serveTurns])

@[simp] theorem State.serve_wf (s : State) (hm : Memory.wf s.mem.hbm = true) :
    Memory.wf (State.serve s).mem.hbm = true := by
  first | (unfold State.serve; (try dsimp only); repeat' (first | with_reducible assumption | with_reducible apply State.serveTurns_wf | with_reducible apply foldl_wf | with_reducible apply foldl1_wf | intro _ _ _ | split | dsimp only [Done.only, RemotePlan.stop]))

@[simp] theorem State.enqueueJob_wf (s : State) (j : Job) (hm : Memory.wf s.mem.hbm = true) :
    Memory.wf (State.enqueueJob s j).mem.hbm = true := by
  first | (unfold State.enqueueJob; (try dsimp only); repeat' (first | with_reducible assumption | with_reducible apply State.serve_wf | with_reducible apply foldl_wf | with_reducible apply foldl1_wf | intro _ _ _ | split | dsimp only [Done.only, RemotePlan.stop]))

@[simp] theorem State.coeAccess_wf (s : State) (a : Access) (hm : Memory.wf s.mem.hbm = true) :
    Memory.wf (State.coeAccess s a).mem.hbm = true := by
  unfold State.coeAccess; (try dsimp only); repeat' (first | with_reducible assumption | with_reducible apply State.enqueueJob_wf | rw [State.wakeBlock_mem_hbm] | with_reducible apply foldl_wf | with_reducible apply foldl1_wf | with_reducible apply foldlRerouting_wf | intro _ _ _ | split | dsimp only [Done.only, RemotePlan.stop])

@[simp] theorem State.pcieAccess_wf (s : State) (a : Access) (hm : Memory.wf s.mem.hbm = true) :
    Memory.wf (State.pcieAccess s a).mem.hbm = true := by
  unfold State.pcieAccess; (try dsimp only); repeat' (first | with_reducible assumption | with_reducible apply State.enqueueJob_wf | rw [State.busyIgnored_mem_hbm] | rw [State.unsupportedWrite_mem_hbm] | rw [State.wakeBlock_mem_hbm] | with_reducible apply foldl_wf | with_reducible apply foldl1_wf | with_reducible apply foldlRerouting_wf | intro _ _ _ | split | dsimp only [Done.only, RemotePlan.stop])

@[simp] theorem State.access_wf (s : State) (path : Path) (a : Access) (hm : Memory.wf s.mem.hbm = true) :
    Memory.wf (State.access s path a).mem.hbm = true := by
  first | (unfold State.access; (try dsimp only); repeat' (first | with_reducible assumption | with_reducible apply State.pcieAccess_wf | with_reducible apply State.coeAccess_wf | with_reducible apply foldl_wf | with_reducible apply foldl1_wf | intro _ _ _ | split | dsimp only [Done.only, RemotePlan.stop]))

@[simp] theorem State.writeObject_wf (s : State) (path : Path) (index : Nat) (sub : Nat) (v : Nat) (hm : Memory.wf s.mem.hbm = true) :
    Memory.wf (State.writeObject s path index sub v).mem.hbm = true := by
  first | (unfold State.writeObject; (try dsimp only); repeat' (first | with_reducible assumption | with_reducible apply State.access_wf | with_reducible apply foldl_wf | with_reducible apply foldl1_wf | intro _ _ _ | split | dsimp only [Done.only, RemotePlan.stop]))

@[simp] theorem State.answerKWrite_wf (s : State) (r : Reply) (hm : Memory.wf s.mem.hbm = true) :
    Memory.wf (State.answerKWrite s r).mem.hbm = true := by
  first | (unfold State.answerKWrite; (try dsimp only); repeat' (first | with_reducible assumption | with_reducible apply State.serve_wf | rw [State.answerFront_mem_hbm] | with_reducible apply foldl_wf | with_reducible apply foldl1_wf | intro _ _ _ | split | dsimp only [Done.only, RemotePlan.stop]))

@[simp] theorem State.refuseKWrite_wf (s : State) (r : Refused) (hm : Memory.wf s.mem.hbm = true) :
    Memory.wf (State.refuseKWrite s r).mem.hbm = true := by
  first | (unfold State.refuseKWrite; (try dsimp only); repeat' (first | with_reducible assumption | with_reducible apply State.answerKWrite_wf | rw [State.refuse_mem_hbm] | with_reducible apply foldl_wf | with_reducible apply foldl1_wf | intro _ _ _ | split | dsimp only [Done.only, RemotePlan.stop]))

@[simp] theorem State.failRecord_wf (s : State) (hm : Memory.wf s.mem.hbm = true) :
    Memory.wf (State.failRecord s).mem.hbm = true := by
  first | (unfold State.failRecord; (try dsimp only); repeat' (first | with_reducible assumption | with_reducible apply State.refuseKWrite_wf | rw [State.startCompaction_mem_hbm] | rw [State.event_mem_hbm] | with_reducible apply foldl_wf | with_reducible apply foldl1_wf | intro _ _ _ | split | dsimp only [Done.only, RemotePlan.stop]))

@[simp] theorem State.recordWrite_wf (s : State) (ws : List (Nat × Nat)) (bad : List (BitVec 256)) (hm : Memory.wf s.mem.hbm = true) :
    Memory.wf (State.recordWrite s ws bad).mem.hbm = true := by
  first | (unfold State.recordWrite; (try dsimp only); repeat' (first | with_reducible assumption | with_reducible apply State.applyValues_wf | with_reducible apply State.answerKWrite_wf | with_reducible apply State.failRecord_wf | rw [State.programAll_mem_hbm] | rw [State.compactIfFull_mem_hbm] | with_reducible apply foldl_wf | with_reducible apply foldl1_wf | intro _ _ _ | split | dsimp only [Done.only, RemotePlan.stop]))

@[simp] theorem State.touchImage_wf (s : State) (a : Nat) (hm : Memory.wf s.mem.hbm = true) :
    Memory.wf (State.touchImage s a).1.mem.hbm = true := by
  unfold State.touchImage; (try dsimp only); repeat' (first | with_reducible assumption | with_reducible apply State.hbmTouch_wf | with_reducible apply foldl_wf | with_reducible apply foldl1_wf | with_reducible apply foldlRerouting_wf | intro _ _ _ | split | dsimp only [Done.only, RemotePlan.stop])

@[simp] theorem State.loadReel_wf (s : State) (a : Nat) (hm : Memory.wf s.mem.hbm = true) :
    Memory.wf (State.loadReel s a).1.mem.hbm = true := by
  unfold State.loadReel; (try dsimp only); repeat' (first | with_reducible assumption | with_reducible apply State.touchImage_wf | rw [State.log_mem_hbm] | with_reducible apply foldl_wf | with_reducible apply foldl1_wf | with_reducible apply foldlRerouting_wf | intro _ _ _ | split | dsimp only [Done.only, RemotePlan.stop])

@[simp] theorem State.saveContext_wf (s : State) (space a n : Nat) (hm : Memory.wf s.mem.hbm = true) :
    Memory.wf (State.saveContext s space a n).1.mem.hbm = true := by
  unfold State.saveContext; (try dsimp only); repeat' (first | with_reducible assumption | with_reducible apply State.spaceWrite_wf | rw [State.refuseContext_mem_hbm] | rw [State.useContext_mem_hbm] | rw [State.healTiles_mem_hbm] | with_reducible apply foldl_wf | with_reducible apply foldl1_wf | with_reducible apply foldlRerouting_wf | intro _ _ _ | split | dsimp only [Done.only, RemotePlan.stop])

@[simp] theorem State.placeTile_wf (s : State) (r : Reel) (place : List Nat) (l : Nat) (hm : Memory.wf s.mem.hbm = true) :
    Memory.wf (State.placeTile s r place l).mem.hbm = true := by
  unfold State.placeTile; (try dsimp only); repeat' (first | with_reducible assumption | with_reducible apply State.loadDescriptors_wf | rw [State.setLt_mem_hbm] | rw [State.wakeTile_mem_hbm] | with_reducible apply foldl_wf | with_reducible apply foldl1_wf | with_reducible apply foldlRerouting_wf | intro _ _ _ | split | dsimp only [Done.only, RemotePlan.stop])

@[simp] theorem State.placeForContext_wf (s : State) (hm : Memory.wf s.mem.hbm = true) :
    Memory.wf (State.placeForContext s).mem.hbm = true := by
  unfold State.placeForContext; (try dsimp only); repeat' (first | with_reducible assumption | with_reducible apply State.placeTile_wf | rw [State.restReserve_mem_hbm] | with_reducible apply foldl_wf | with_reducible apply foldl1_wf | with_reducible apply foldlRerouting_wf | intro _ _ _ | split | dsimp only [Done.only, RemotePlan.stop])

@[simp] theorem State.restoreBytes_wf (s : State) (c : List Byte) (hm : Memory.wf s.mem.hbm = true) :
    Memory.wf (State.restoreBytes s c).1.mem.hbm = true := by
  unfold State.restoreBytes
  dsimp only
  split
  · exact hm
  · split
    · exact hm
    · split
      · rename_i t heq
        have h := State.putTiles_mem_hbm _ _ _ heq
        show Memory.wf (t.healTiles _).1.mem.hbm = true
        rw [State.healTiles_mem_hbm, h]
        exact State.placeForContext_wf s hm
      · exact hm

@[simp] theorem State.readSource_wf (s : State) (space a n : Nat) (hm : Memory.wf s.mem.hbm = true) :
    Memory.wf (State.readSource s space a n).1.mem.hbm = true := by
  unfold State.readSource; (try dsimp only); repeat' (first | with_reducible assumption | with_reducible apply State.hbmTouch_wf | with_reducible apply foldl_wf | with_reducible apply foldl1_wf | with_reducible apply foldlRerouting_wf | intro _ _ _ | split | dsimp only [Done.only, RemotePlan.stop])

@[simp] theorem State.restoreContext_wf (s : State) (space a n : Nat) (data : List Byte) (hm : Memory.wf s.mem.hbm = true) :
    Memory.wf (State.restoreContext s space a n data).1.mem.hbm = true := by
  unfold State.restoreContext; (try dsimp only); repeat' (first | with_reducible assumption | with_reducible apply State.restoreBytes_wf | with_reducible apply State.readSource_wf | rw [State.refuseContext_mem_hbm] | with_reducible apply foldl_wf | with_reducible apply foldl1_wf | with_reducible apply foldlRerouting_wf | intro _ _ _ | split | dsimp only [Done.only, RemotePlan.stop])

@[simp] theorem State.writeFirmware_wf (s : State) (space a n : Nat) (data : List Byte) (hm : Memory.wf s.mem.hbm = true) :
    Memory.wf (State.writeFirmware s space a n data).1.mem.hbm = true := by
  unfold State.writeFirmware; (try dsimp only); repeat' (first | with_reducible assumption | with_reducible apply State.readSource_wf | rw [State.programFirmware_mem_hbm] | with_reducible apply foldl_wf | with_reducible apply foldl1_wf | with_reducible apply foldlRerouting_wf | intro _ _ _ | split | dsimp only [Done.only, RemotePlan.stop])

@[simp] theorem State.attest_wf (s : State) (space a n : Nat) (nonce : List Byte) (hm : Memory.wf s.mem.hbm = true) :
    Memory.wf (State.attest s space a n nonce).1.mem.hbm = true := by
  unfold State.attest; (try dsimp only); repeat' (first | with_reducible assumption | with_reducible apply State.readSource_wf | with_reducible apply State.spaceWrite_wf | rw [State.useFrees_mem_hbm] | with_reducible apply foldl_wf | with_reducible apply foldl1_wf | with_reducible apply foldlRerouting_wf | intro _ _ _ | split | dsimp only [Done.only, RemotePlan.stop])

@[simp] theorem State.runCommand_wf (s : State) (cmd : Nat) (space : Nat) (a : Nat) (n : Nat) (data : List Byte) (hm : Memory.wf s.mem.hbm = true) :
    Memory.wf (State.runCommand s cmd space a n data).1.mem.hbm = true := by
  first | (unfold State.runCommand; (try dsimp only); repeat' (first | with_reducible assumption | with_reducible apply State.writeFirmware_wf | with_reducible apply State.attest_wf | with_reducible apply State.loadReel_wf | with_reducible apply State.restoreContext_wf | with_reducible apply State.saveContext_wf | rw [State.latchOther_mem_hbm] | with_reducible apply foldl_wf | with_reducible apply foldl1_wf | intro _ _ _ | split | dsimp only [Done.only, RemotePlan.stop]))

@[simp] theorem State.acceptCommand_wf (s : State) (cmd : Nat) (data : List Byte) (hm : Memory.wf s.mem.hbm = true) :
    Memory.wf (State.acceptCommand s cmd data).mem.hbm = true := by
  first | (unfold State.acceptCommand; (try dsimp only); repeat' (first | with_reducible assumption | with_reducible apply State.runCommand_wf | rw [State.keepResult_mem_hbm] | rw [State.awaitData_mem_hbm] | rw [State.noteRefusedCommand_mem_hbm] | with_reducible apply foldl_wf | with_reducible apply foldl1_wf | intro _ _ _ | split | dsimp only [Done.only, RemotePlan.stop]))

@[simp] theorem State.writeCmd_wf (s : State) (cmd : Nat) (data : List Byte) (hm : Memory.wf s.mem.hbm = true) :
    Memory.wf (State.writeCmd s cmd data).mem.hbm = true := by
  first | (unfold State.writeCmd; (try dsimp only); repeat' (first | with_reducible assumption | with_reducible apply State.acceptCommand_wf | rw [State.markBusy_mem_hbm] | rw [State.busyIgnored_mem_hbm] | with_reducible apply foldl_wf | with_reducible apply foldl1_wf | intro _ _ _ | split | dsimp only [Done.only, RemotePlan.stop]))

@[simp] theorem State.hostCommand_wf (s : State) (cmd : Nat) (data : List Byte) (hm : Memory.wf s.mem.hbm = true) :
    Memory.wf (State.hostCommand s cmd data).mem.hbm = true := by
  unfold State.hostCommand; (try dsimp only); repeat' (first | with_reducible assumption | with_reducible apply State.writeCmd_wf | rw [State.unsupportedWrite_mem_hbm] | rw [State.wakeBlock_mem_hbm] | with_reducible apply foldl_wf | with_reducible apply foldl1_wf | with_reducible apply foldlRerouting_wf | intro _ _ _ | split | dsimp only [Done.only, RemotePlan.stop])

@[simp] theorem State.runWaiting_wf (s : State) (hm : Memory.wf s.mem.hbm = true) :
    Memory.wf (State.runWaiting s).mem.hbm = true := by
  first | (unfold State.runWaiting; (try dsimp only); repeat' (first | with_reducible assumption | with_reducible apply State.runCommand_wf | rw [State.keepResult_mem_hbm] | with_reducible apply foldl_wf | with_reducible apply foldl1_wf | intro _ _ _ | split | dsimp only [Done.only, RemotePlan.stop]))

@[simp] theorem State.ingestOldest_wf (s : State) (r : Nat) (f : InFlight) (data : List Byte) (hm : Memory.wf s.mem.hbm = true) :
    Memory.wf (State.ingestOldest s r f data).mem.hbm = true := by
  unfold State.ingestOldest; (try dsimp only); repeat' (first | with_reducible assumption | with_reducible apply State.hbmWriteChecked_wf | rw [State.completeDescriptor_mem_hbm] | with_reducible apply foldl_wf | with_reducible apply foldl1_wf | with_reducible apply foldlRerouting_wf | intro _ _ _ | split | dsimp only [Done.only, RemotePlan.stop])

@[simp] theorem State.partialData_wf (s : State) (d : BitVec 256) (hm : Memory.wf s.mem.hbm = true) :
    Memory.wf (State.partialData s d).mem.hbm = true := by
  unfold State.partialData; (try dsimp only); repeat' (first | with_reducible assumption | with_reducible apply State.hbmWriteChecked_wf | rw [State.useFree_mem_hbm] | with_reducible apply foldl_wf | with_reducible apply foldl1_wf | with_reducible apply foldlRerouting_wf | intro _ _ _ | split | dsimp only [Done.only, RemotePlan.stop])

theorem State.abortDescriptor_wf (s : State) (r : Nat) {t : State} (h : (State.abortDescriptor s r) = some t) (hm : Memory.wf s.mem.hbm = true) :
    Memory.wf t.mem.hbm = true := by
  first | (simp only [State.abortDescriptor] at h; (repeat' split at h) <;> first | (simp at h; done) | (injection h with h; subst h; simp [*]; done) | (simp_all; done) | (simp at h; obtain ⟨h, -⟩ := h; subst h; simp [*]; done) | (simp at h; subst h; simp [*]))

theorem State.abortMove_wf (s : State) (l : Nat) {t : State} (h : (State.abortMove s l) = some t) (hm : Memory.wf s.mem.hbm = true) :
    Memory.wf t.mem.hbm = true := by
  first | (simp only [State.abortMove] at h; (repeat' split at h) <;> first | (simp at h; done) | (injection h with h; subst h; simp [*]; done) | (simp_all; done) | (simp at h; obtain ⟨h, -⟩ := h; subst h; simp [*]; done) | (simp at h; subst h; simp [*]))

theorem State.abortRead_wf (s : State) (read : HostRead) {t : State} (h : (State.abortRead s read) = some t) (hm : Memory.wf s.mem.hbm = true) :
    Memory.wf t.mem.hbm = true := by
  first | (cases read with | ring r => (simp only [State.abortRead] at h; split at h; exact State.abortDescriptor_wf _ _ h hm; cases h) | moveOf l => exact State.abortMove_wf _ _ h hm | command => (rw [State.abortCommand_mem_hbm _ h]; exact hm))

@[simp] theorem State.windowRead_wf (s : State) (off : Nat) (size : Nat) (hm : Memory.wf s.mem.hbm = true) :
    Memory.wf (State.windowRead s off size).mem.hbm = true := by
  first | (unfold State.windowRead; (try dsimp only); repeat' (first | with_reducible assumption | with_reducible apply State.hbmTouch_wf | rw [State.emit_mem_hbm] | rw [State.abortBarRead_mem_hbm] | with_reducible apply foldl_wf | with_reducible apply foldl1_wf | intro _ _ _ | split | dsimp only [Done.only, RemotePlan.stop]))

@[simp] theorem State.barRead_wf (s : State) (bar : Nat) (off : Nat) (size : Nat) (hm : Memory.wf s.mem.hbm = true) :
    Memory.wf (State.barRead s bar off size).mem.hbm = true := by
  first | (unfold State.barRead; (try dsimp only); repeat' (first | with_reducible assumption | with_reducible apply State.windowRead_wf | rw [State.emit_mem_hbm] | rw [State.unsupportedRead_mem_hbm] | rw [State.useFree_mem_hbm] | rw [State.abortBarRead_mem_hbm] | with_reducible apply foldl_wf | with_reducible apply foldl1_wf | intro _ _ _ | split | dsimp only [Done.only, RemotePlan.stop]))

@[simp] theorem State.windowWrite_wf (s : State) (off : Nat) (bs : List Byte) (hm : Memory.wf s.mem.hbm = true) :
    Memory.wf (State.windowWrite s off bs).mem.hbm = true := by
  first | (unfold State.windowWrite; (try dsimp only); repeat' (first | with_reducible assumption | with_reducible apply State.hbmWrite_wf | rw [State.barIgnored_mem_hbm] | with_reducible apply foldl_wf | with_reducible apply foldl1_wf | intro _ _ _ | split | dsimp only [Done.only, RemotePlan.stop]))

@[simp] theorem State.writeCmdBlock_wf (s : State) (off : Nat) (size : Nat) (v : Nat) (hm : Memory.wf s.mem.hbm = true) :
    Memory.wf (State.writeCmdBlock s off size v).mem.hbm = true := by
  first | (unfold State.writeCmdBlock; (try dsimp only); repeat' (first | with_reducible assumption | with_reducible apply State.writeCmd_wf | rw [State.logIf_mem_hbm] | with_reducible apply foldl_wf | with_reducible apply foldl1_wf | intro _ _ _ | split | dsimp only [Done.only, RemotePlan.stop]))

@[simp] theorem State.bar0Write_wf (s : State) (off : Nat) (size : Nat) (v : Nat) (hm : Memory.wf s.mem.hbm = true) :
    Memory.wf (State.bar0Write s off size v).mem.hbm = true := by
  first | (unfold State.bar0Write; (try dsimp only); repeat' (first | with_reducible assumption | with_reducible apply State.writeCmdBlock_wf | rw [State.writeRing_mem_hbm] | rw [State.barIgnored_mem_hbm] | rw [State.writeAnswers_mem_hbm] | rw [State.writeSegment_mem_hbm] | rw [State.writeMsix_mem_hbm] | rw [State.writePort_mem_hbm] | with_reducible apply foldl_wf | with_reducible apply foldl1_wf | intro _ _ _ | split | dsimp only [Done.only, RemotePlan.stop]))

@[simp] theorem State.startRequest_wf (s : State) (tag : Nat) (hm : Memory.wf s.mem.hbm = true) :
    Memory.wf (State.startRequest s tag).mem.hbm = true := by
  first | (unfold State.startRequest; (try dsimp only); repeat' (first | with_reducible assumption | with_reducible apply State.enqueueJob_wf | rw [State.completeRequest_mem_hbm] | with_reducible apply foldl_wf | with_reducible apply foldl1_wf | intro _ _ _ | split | dsimp only [Done.only, RemotePlan.stop]))

@[simp] theorem State.writeDoorbell_wf (s : State) (tag : Nat) (hm : Memory.wf s.mem.hbm = true) :
    Memory.wf (State.writeDoorbell s tag).mem.hbm = true := by
  first | (unfold State.writeDoorbell; (try dsimp only); repeat' (first | with_reducible assumption | with_reducible apply State.startRequest_wf | rw [State.busyIgnored_mem_hbm] | with_reducible apply foldl_wf | with_reducible apply foldl1_wf | intro _ _ _ | split | dsimp only [Done.only, RemotePlan.stop]))

@[simp] theorem State.bar4Write_wf (s : State) (off : Nat) (size : Nat) (v : Nat) (hm : Memory.wf s.mem.hbm = true) :
    Memory.wf (State.bar4Write s off size v).mem.hbm = true := by
  first | (unfold State.bar4Write; (try dsimp only); repeat' (first | with_reducible assumption | with_reducible apply State.writeDoorbell_wf | rw [State.barIgnored_mem_hbm] | rw [State.logIf_mem_hbm] | with_reducible apply foldl_wf | with_reducible apply foldl1_wf | intro _ _ _ | split | dsimp only [Done.only, RemotePlan.stop]))

@[simp] theorem State.barWrite_wf (s : State) (bar : Nat) (off : Nat) (size : Nat) (value : Nat) (hm : Memory.wf s.mem.hbm = true) :
    Memory.wf (State.barWrite s bar off size value).mem.hbm = true := by
  first | (unfold State.barWrite; (try dsimp only); repeat' (first | with_reducible assumption | with_reducible apply State.bar4Write_wf | with_reducible apply State.bar0Write_wf | with_reducible apply State.windowWrite_wf | rw [State.barIgnored_mem_hbm] | rw [State.unsupportedWrite_mem_hbm] | with_reducible apply foldl_wf | with_reducible apply foldl1_wf | intro _ _ _ | split | dsimp only [Done.only, RemotePlan.stop]))

@[simp] theorem State.wholeDownload_wf (s : State) (a : Access) (hm : Memory.wf s.mem.hbm = true) :
    Memory.wf (State.wholeDownload s a).mem.hbm = true := by
  first | (unfold State.wholeDownload; (try dsimp only); repeat' (first | with_reducible assumption | with_reducible apply State.coeAccess_wf | with_reducible apply foldl_wf | with_reducible apply foldl1_wf | intro _ _ _ | split | dsimp only [Done.only, RemotePlan.stop]))

@[simp] theorem State.plantSlate_wf (s : State) (hm : Memory.wf s.mem.hbm = true) :
    Memory.wf (State.plantSlate s).mem.hbm = true := by
  first | (unfold State.plantSlate; (try dsimp only); repeat' (first | with_reducible assumption | with_reducible apply State.slateAt_wf | rw [State.ignorePulse_mem_hbm] | with_reducible apply foldl_wf | with_reducible apply foldl1_wf | intro _ _ _ | split | dsimp only [Done.only, RemotePlan.stop]))

@[simp] theorem State.latchPlant_wf (s : State) (hm : Memory.wf s.mem.hbm = true) :
    Memory.wf (State.latchPlant s).mem.hbm = true := by
  first | (unfold State.latchPlant; (try dsimp only); repeat' (first | with_reducible assumption | with_reducible apply State.plantSlate_wf | rw [State.latchPosition_mem_hbm] | rw [State.fireDue_mem_hbm] | with_reducible apply foldl_wf | with_reducible apply foldl1_wf | intro _ _ _ | split | dsimp only [Done.only, RemotePlan.stop]))

@[simp] theorem State.syncLatch_wf (s : State) (hm : Memory.wf s.mem.hbm = true) :
    Memory.wf (State.syncLatch s).mem.hbm = true := by
  unfold State.syncLatch; (try dsimp only); repeat' (first | with_reducible assumption | with_reducible apply State.latchPlant_wf | rw [State.latchLot_mem_hbm] | rw [State.latchInputs_mem_hbm] | rw [State.sync1Latch_mem_hbm] | with_reducible apply foldl_wf | with_reducible apply foldl1_wf | with_reducible apply foldlRerouting_wf | intro _ _ _ | split | dsimp only [Done.only, RemotePlan.stop])

@[simp] theorem State.maskFence_wf (s : State) (x1 : Block) (hm : Memory.wf s.mem.hbm = true) :
    Memory.wf (State.maskFence s x1).mem.hbm = true := by
  unfold State.maskFence; (try dsimp only); repeat' (first | with_reducible assumption | with_reducible apply State.failSegment_wf | with_reducible apply State.fenceTile_wf | rw [State.leaveAl_mem_hbm] | rw [State.fenceCore_mem_hbm] | rw [State.closeGroup_mem_hbm] | rw [State.loseStack_mem_hbm] | rw [State.portDown_mem_hbm] | rw [State.refreshFabric_mem_hbm] | rw [State.setPort_mem_hbm] | rw [State.isolateHub_mem_hbm] | rw [State.countFault_mem_hbm] | with_reducible apply foldl_wf | with_reducible apply foldl1_wf | with_reducible apply foldlRerouting_wf | intro _ _ _ | split | dsimp only [Done.only, RemotePlan.stop])

@[simp] theorem State.fenceBlock_wf (s : State) (b : Block) (hm : Memory.wf s.mem.hbm = true) :
    Memory.wf (State.fenceBlock s b).mem.hbm = true := by
  unfold State.fenceBlock; (try dsimp only); repeat' (first | with_reducible assumption | with_reducible apply State.maskFence_wf | with_reducible apply State.fenceTile_wf | rw [State.recordFence_mem_hbm] | rw [State.fenceCore_mem_hbm] | rw [State.event_mem_hbm] | with_reducible apply foldl_wf | with_reducible apply foldl1_wf | with_reducible apply foldlRerouting_wf | intro _ _ _ | split | dsimp only [Done.only, RemotePlan.stop])

@[simp] theorem State.testTile_wf (s : State) (p : Nat) (passed : Bool) (hm : Memory.wf s.mem.hbm = true) :
    Memory.wf (State.testTile s p passed).mem.hbm = true := by
  unfold State.testTile; (try dsimp only); repeat' (first | with_reducible assumption | with_reducible apply State.returnTile_wf | rw [State.stopClock_mem_hbm] | rw [State.setPt_mem_hbm] | with_reducible apply foldl_wf | with_reducible apply foldl1_wf | with_reducible apply foldlRerouting_wf | intro _ _ _ | split | dsimp only [Done.only, RemotePlan.stop])

@[simp] theorem State.resetBlocks_wf (s : State) (hm : Memory.wf s.mem.hbm = true) :
    Memory.wf (State.resetBlocks s).mem.hbm = true := by
  first | (rfl)

@[simp] theorem State.assertSource_wf (s : State) (cause : Nat) (hm : Memory.wf s.mem.hbm = true) :
    Memory.wf (State.assertSource s cause).mem.hbm = true := by
  first | (unfold State.assertSource; (try dsimp only); repeat' (first | with_reducible assumption | with_reducible apply State.resetBlocks_wf | with_reducible apply foldl_wf | with_reducible apply foldl1_wf | intro _ _ _ | split | dsimp only [Done.only, RemotePlan.stop]))

@[simp] theorem State.pulseSource_wf (s : State) (cause : Nat) (hm : Memory.wf s.mem.hbm = true) :
    Memory.wf (State.pulseSource s cause).mem.hbm = true := by
  first | (unfold State.pulseSource; (try dsimp only); repeat' (first | with_reducible assumption | with_reducible apply State.assertSource_wf | rw [State.releaseSource_mem_hbm] | with_reducible apply foldl_wf | with_reducible apply foldl1_wf | intro _ _ _ | split | dsimp only [Done.only, RemotePlan.stop]))

@[simp] theorem State.tripCheck_wf (s : State) (raw : List Nat) (hm : Memory.wf s.mem.hbm = true) :
    Memory.wf (State.tripCheck s raw).mem.hbm = true := by
  first | (unfold State.tripCheck; (try dsimp only); repeat' (first | with_reducible assumption | with_reducible apply State.assertSource_wf | with_reducible apply foldl_wf | with_reducible apply foldl1_wf | intro _ _ _ | split | dsimp only [Done.only, RemotePlan.stop]))

@[simp] theorem State.finishBist_wf (s : State) (f : BistFinding) (hm : Memory.wf s.mem.hbm = true) :
    Memory.wf (State.finishBist s f).mem.hbm = true := by
  first | (unfold State.finishBist; (try dsimp only); repeat' (first | with_reducible assumption | rw [State.setObj_mem_hbm] | with_reducible apply foldl_wf | with_reducible apply foldl1_wf | intro _ _ _ | split | dsimp only [Done.only, RemotePlan.stop]) <;> (simp_all; done))

@[simp] theorem State.applyBist_wf (s : State) (f : BistFinding) (hm : Memory.wf s.mem.hbm = true) :
    Memory.wf (State.applyBist s f).mem.hbm = true := by
  unfold State.applyBist; (try dsimp only); repeat' (first | with_reducible assumption | with_reducible apply State.failSegment_wf | rw [State.setObj_mem_hbm] | rw [State.event_mem_hbm] | rw [State.loseStack_mem_hbm] | rw [State.closeGroup_mem_hbm] | rw [State.failTile_mem_hbm] | rw [State.failCore_mem_hbm] | rw [State.failPort_mem_hbm] | rw [State.loseNetwork_mem_hbm] | with_reducible apply foldl_wf | with_reducible apply foldl1_wf | with_reducible apply foldlRerouting_wf | intro _ _ _ | split | dsimp only [Done.only, RemotePlan.stop])

@[simp] theorem State.loseTile_wf (s : State) (p : Nat) (hm : Memory.wf s.mem.hbm = true) :
    Memory.wf (State.loseTile s p).mem.hbm = true := by
  unfold State.loseTile; (try dsimp only); repeat' (first | with_reducible assumption | with_reducible apply State.settle_wf | with_reducible apply State.moveFrom_wf | rw [State.stopClock_mem_hbm] | rw [State.setPt_mem_hbm] | with_reducible apply foldl_wf | with_reducible apply foldl1_wf | with_reducible apply foldlRerouting_wf | intro _ _ _ | split | dsimp only [Done.only, RemotePlan.stop])

@[simp] theorem State.loseDomain_wf (s : State) (d : Domain) (hm : Memory.wf s.mem.hbm = true) :
    Memory.wf (State.loseDomain s d).mem.hbm = true := by
  unfold State.loseDomain; (try dsimp only); repeat' (first | with_reducible assumption | with_reducible apply State.loseTile_wf | with_reducible apply State.failSegment_wf | rw [State.markUnusable_mem_hbm] | rw [State.failPort_mem_hbm] | rw [State.closeGroup_mem_hbm] | rw [State.loseStack_mem_hbm] | with_reducible apply foldl_wf | with_reducible apply foldl1_wf | with_reducible apply foldlRerouting_wf | intro _ _ _ | split | dsimp only [Done.only, RemotePlan.stop])

@[simp] theorem State.restore_wf (s : State) (hm : Memory.wf s.mem.hbm = true) :
    Memory.wf (State.restore s).mem.hbm = true := by
  first | (unfold State.restore; (try dsimp only); repeat' (first | with_reducible assumption | with_reducible apply State.applyBist_wf | rw [State.blowFuses_mem_hbm] | rw [State.enablePorts_mem_hbm] | rw [State.startRunning_mem_hbm] | rw [State.compactIfFull_mem_hbm] | rw [State.drainFoe_mem_hbm] | rw [State.comeUp_mem_hbm] | rw [State.restReserve_mem_hbm] | rw [State.recordBist_mem_hbm] | rw [State.resumeTakes_mem_hbm] | rw [State.event_mem_hbm] | rw [State.firstSnapshot_mem_hbm] | rw [State.forcePriorities_mem_hbm] | rw [State.startLine_mem_hbm] | rw [State.startCalibration_mem_hbm] | with_reducible apply foldl_wf | with_reducible apply foldl1_wf | intro _ _ _ | split | dsimp only [Done.only, RemotePlan.stop]))

@[simp] theorem State.replaceReel_wf (s : State) (r : Reel) (hm : Memory.wf s.mem.hbm = true) :
    Memory.wf (State.replaceReel s r).mem.hbm = true := by
  unfold State.replaceReel; (try dsimp only); repeat' (first | with_reducible assumption | with_reducible apply State.loadDescriptors_wf | with_reducible apply foldl_wf | with_reducible apply foldl1_wf | with_reducible apply foldlRerouting_wf | intro _ _ _ | split | dsimp only [Done.only, RemotePlan.stop])

@[simp] theorem State.leaveSleep_wf (s : State) (hm : Memory.wf s.mem.hbm = true) :
    Memory.wf (State.leaveSleep s).mem.hbm = true := by
  unfold State.leaveSleep; (try dsimp only); repeat' (first | with_reducible assumption | with_reducible apply State.replaceReel_wf | rw [State.endFills_mem_hbm] | rw [State.wakeTiles_mem_hbm] | rw [State.enablePorts_mem_hbm] | rw [State.restReserve_mem_hbm] | rw [State.setObj_mem_hbm] | with_reducible apply foldl_wf | with_reducible apply foldl1_wf | with_reducible apply foldlRerouting_wf | intro _ _ _ | split | dsimp only [Done.only, RemotePlan.stop])

@[simp] theorem State.holdForScan_wf (s : State) (hm : Memory.wf s.mem.hbm = true) :
    Memory.wf (State.holdForScan s).mem.hbm = true := by
  first | (unfold State.holdForScan; (try dsimp only); repeat' (first | with_reducible assumption | with_reducible apply State.resetBlocks_wf | with_reducible apply foldl_wf | with_reducible apply foldl1_wf | intro _ _ _ | split | dsimp only [Done.only, RemotePlan.stop]))

@[simp] theorem State.scanStep_wf (s : State) (x1 : Nat) (hm : Memory.wf s.mem.hbm = true) :
    Memory.wf (State.scanStep s x1).mem.hbm = true := by
  first | (unfold State.scanStep; (try dsimp only); repeat' (first | with_reducible assumption | with_reducible apply State.holdForScan_wf | rw [State.blockFuses_mem_hbm] | rw [State.zeroiseTables_mem_hbm] | rw [State.zeroise_mem_hbm] | with_reducible apply foldl_wf | with_reducible apply foldl1_wf | intro _ _ _ | split | dsimp only [Done.only, RemotePlan.stop]))

@[simp] theorem State.scanSteps_wf (s : State) (x1 : Nat) (hm : Memory.wf s.mem.hbm = true) :
    Memory.wf (State.scanSteps s x1).mem.hbm = true := by
  first | (induction x1 generalizing s <;> simp_all [State.scanSteps])

@[simp] theorem State.failScan_wf (s : State) (k : Nat) (hm : Memory.wf s.mem.hbm = true) :
    Memory.wf (State.failScan s k).mem.hbm = true := by
  first | (unfold State.failScan; (try dsimp only); repeat' (first | with_reducible assumption | with_reducible apply State.scanStep_wf | with_reducible apply State.scanSteps_wf | rw [State.useFree_mem_hbm] | with_reducible apply foldl_wf | with_reducible apply foldl1_wf | intro _ _ _ | split | dsimp only [Done.only, RemotePlan.stop]))

@[simp] theorem State.enableScan_wf (s : State) (hm : Memory.wf s.mem.hbm = true) :
    Memory.wf (State.enableScan s).mem.hbm = true := by
  first | (unfold State.enableScan; (try dsimp only); repeat' (first | with_reducible assumption | with_reducible apply State.scanSteps_wf | rw [State.openScan_mem_hbm] | with_reducible apply foldl_wf | with_reducible apply foldl1_wf | intro _ _ _ | split | dsimp only [Done.only, RemotePlan.stop]))

@[simp] theorem State.rewriteMask_wf (s : State) (p : Nat) (w : Desc) (m : Desc) (now : List (List (Nat × Option Nat))) (hm : Memory.wf s.mem.hbm = true) :
    Memory.wf (State.rewriteMask s p w m now).1.mem.hbm = true := by
  first | (unfold State.rewriteMask; (try dsimp only); repeat' (first | with_reducible assumption | with_reducible apply State.writeCodes_wf | with_reducible apply foldl_wf | with_reducible apply foldl1_wf | intro _ _ _ | split | dsimp only [Done.only, RemotePlan.stop]))

@[simp] theorem State.trimRun_wf (s : State) (p : Nat) (x : Nat) (w : Desc) (m : Desc) (hm : Memory.wf s.mem.hbm = true) :
    Memory.wf (State.trimRun s p x w m).s.mem.hbm = true := by
  first | (unfold State.trimRun; (try dsimp only); repeat' (first | with_reducible assumption | with_reducible apply State.rewriteMask_wf | rw [State.reportMask_mem_hbm] | with_reducible apply foldl_wf | with_reducible apply foldl1_wf | intro _ _ _ | split | dsimp only [Done.only, RemotePlan.stop]))

@[simp] theorem trimEff_wf (s : State) (_l : Nat) (p : Nat) (e : QEntry) (hm : Memory.wf s.mem.hbm = true) :
    Memory.wf (trimEff s _l p e).s.mem.hbm = true := by
  first | (unfold trimEff; (try dsimp only); repeat' (first | with_reducible assumption | with_reducible apply State.trimRun_wf | rw [Done.only_mem_hbm] | with_reducible apply foldl_wf | with_reducible apply foldl1_wf | intro _ _ _ | split | dsimp only [Done.only, RemotePlan.stop]))

@[simp] theorem State.scanRun_wf (s : State) (l : Nat) (p : Nat) (x : Nat) (m : Desc) (c : Desc) (ga : Desc) (gb : Desc) (hm : Memory.wf s.mem.hbm = true) :
    Memory.wf (State.scanRun s l p x m c ga gb).s.mem.hbm = true := by
  first | (unfold State.scanRun; (try dsimp only); repeat' (first | with_reducible assumption | with_reducible apply State.writeCodes_wf | rw [Done.only_mem_hbm] | with_reducible apply foldl_wf | with_reducible apply foldl1_wf | intro _ _ _ | split | dsimp only [Done.only, RemotePlan.stop]))

@[simp] theorem scanEff_wf (s : State) (l : Nat) (p : Nat) (e : QEntry) (hm : Memory.wf s.mem.hbm = true) :
    Memory.wf (scanEff s l p e).s.mem.hbm = true := by
  first | (unfold scanEff; (try dsimp only); repeat' (first | with_reducible assumption | with_reducible apply State.scanRun_wf | rw [Done.only_mem_hbm] | with_reducible apply foldl_wf | with_reducible apply foldl1_wf | intro _ _ _ | split | dsimp only [Done.only, RemotePlan.stop]))

@[simp] theorem State.tipinRun_wf (s : State) (l : Nat) (p : Nat) (pos : Nat) (x : Nat) (w : Desc) (m : Desc) (c : Desc) (grow : Nat) (hm : Memory.wf s.mem.hbm = true) :
    Memory.wf (State.tipinRun s l p pos x w m c grow).s.mem.hbm = true := by
  first | (unfold State.tipinRun; (try dsimp only); repeat' (first | with_reducible assumption | with_reducible apply State.writeSome_wf | with_reducible apply State.rewriteMask_wf | rw [State.reportMask_mem_hbm] | rw [State.repairParity_mem_hbm] | with_reducible apply foldl_wf | with_reducible apply foldl1_wf | intro _ _ _ | split | dsimp only [Done.only, RemotePlan.stop]))

@[simp] theorem tipinEff_wf (s : State) (l : Nat) (p : Nat) (e : QEntry) (hm : Memory.wf s.mem.hbm = true) :
    Memory.wf (tipinEff s l p e).s.mem.hbm = true := by
  first | (unfold tipinEff; (try dsimp only); repeat' (first | with_reducible assumption | with_reducible apply State.tipinRun_wf | rw [Done.only_mem_hbm] | with_reducible apply foldl_wf | with_reducible apply foldl1_wf | intro _ _ _ | split | dsimp only [Done.only, RemotePlan.stop]))

@[simp] theorem State.checkRun_wf (s : State) (p x : Nat) (m r : Desc) (hm : Memory.wf s.mem.hbm = true) :
    Memory.wf (State.checkRun s p x m r).s.mem.hbm = true := by
  unfold State.checkRun; dsimp only [Done.only]; repeat' (first | with_reducible assumption | with_reducible apply State.writeCodes_wf)

@[simp] theorem checkEff_wf (s : State) (_l : Nat) (p : Nat) (e : QEntry) (hm : Memory.wf s.mem.hbm = true) :
    Memory.wf (checkEff s _l p e).s.mem.hbm = true := by
  first | (unfold checkEff; (try dsimp only); repeat' (first | with_reducible assumption | with_reducible apply State.checkRun_wf | with_reducible apply State.writeCodes_wf | rw [Done.only_mem_hbm] | with_reducible apply foldl_wf | with_reducible apply foldl1_wf | intro _ _ _ | split | dsimp only [Done.only, RemotePlan.stop]))

@[simp] theorem State.randRun_wf (s : State) (l : Nat) (p : Nat) (x : Nat) (d : Desc) (hm : Memory.wf s.mem.hbm = true) :
    Memory.wf (State.randRun s l p x d).s.mem.hbm = true := by
  first | (unfold State.randRun; (try dsimp only); repeat' (first | with_reducible assumption | with_reducible apply State.writeCodes_wf | with_reducible apply State.writeVals_wf | rw [Done.only_mem_hbm] | rw [State.repairWords_mem_hbm] | with_reducible apply foldl_wf | with_reducible apply foldl1_wf | intro _ _ _ | split | dsimp only [Done.only, RemotePlan.stop]))

@[simp] theorem randEff_wf (s : State) (l : Nat) (p : Nat) (e : QEntry) (hm : Memory.wf s.mem.hbm = true) :
    Memory.wf (randEff s l p e).s.mem.hbm = true := by
  first | (unfold randEff; (try dsimp only); repeat' (first | with_reducible assumption | with_reducible apply State.randRun_wf | rw [Done.only_mem_hbm] | with_reducible apply foldl_wf | with_reducible apply foldl1_wf | intro _ _ _ | split | dsimp only [Done.only, RemotePlan.stop]))

@[simp] theorem State.serveAgain_wf (s : State) (hm : Memory.wf s.mem.hbm = true) :
    Memory.wf (State.serveAgain s).mem.hbm = true := by
  unfold State.serveAgain; (try dsimp only); repeat' (first | with_reducible assumption | with_reducible apply State.serve_wf | with_reducible apply foldl_wf | with_reducible apply foldl1_wf | with_reducible apply foldlRerouting_wf | intro _ _ _ | split | dsimp only [Done.only, RemotePlan.stop])

end Sys2Proof.Machine
end

