-- ==== Sys2Proof/WellFormed.lean ====
section
/-!
DEFINITION. Which commands are well formed: each operand names a thing that some variant has (R1, R2, R264, R265, R279, R312,
R347, R352) and lies within the width the spec gives it. The meanings do not rely on it: what the part does with a request
that names more is the spec's to say, and is in the meaning.
-/

namespace Sys2Proof

/-- A logical tile number: at most 192 tiles are enabled (R1, R56). -/
def tileOk (l : Nat) : Bool := decide (l < 192)

/-- A physical tile number (R2). -/
def physOk (p : Nat) : Bool := decide (p < 192)

/-- An optical port (R1). -/
def portOk (k : Nat) : Bool := decide (k < 32)

/-- A value of 32 bits. -/
def word32 (v : Nat) : Bool := decide (v < 2 ^ 32)

/-- A rack and a package number (R279). -/
def idOk (rack package : Nat) : Bool := decide (rack < 64) && decide (package < 64)

/-- A BAR of the function (R308). -/
def barOk (bar : Nat) : Bool := [0, 2, 4].contains bar

/-- The fields of a header lie within their widths, and a payload byte count is that of LENGTH (R279). -/
def packetOk (q : Packet) : Bool :=
  decide (q.op < 16) && decide (q.channel < 4) && idOk q.dstRack q.dstPackage && idOk q.srcRack q.srcPackage &&
    decide (q.srcTile < 256) && decide (q.length ≤ 256) && decide (q.payload.length = q.length) && decide (q.hops < 64) &&
    decide (q.addr < 2 ^ 48) && decide (q.flag < 1024) && decide (q.reserved < 64) && word32 q.addend &&
    decide (q.kslice < 2 ^ 16) && decide (q.e2eSeq < 2 ^ 16) && decide (q.status < 256) && decide (q.linkSeq < 4096) &&
    decide (q.ackSeq < 4096) && decide (q.creditChannel < 4) && decide (q.creditCount < 64) && word32 q.hcrc

/-- A block behind an isolation wrapper (R374). -/
def blockOk (b : Block) : Bool :=
  match b with
  | .tile p => physOk p
  | .stack i => decide (i < 8)
  | .segment d c => decide (d < 2) && decide (c < 12)
  | .laneGroup g => decide (g < 8)
  | .port k => portOk k
  | .core c => decide (c < 8)
  | .network d => decide (d < 2)
  | .hostPort => true
  | .ecatController => true

/-- A clock domain (R372). -/
def domainOk (x : Domain) : Bool :=
  match x with
  | .tile p => physOk p
  | .segment d c => decide (d < 2) && decide (c < 12)
  | .cnSn d => decide (d < 2)
  | .hbmController i => decide (i < 8)
  | .hbmPhy i => decide (i < 8)
  | .opticalTx k => portOk k
  | .opticalRx k => portOk k
  | .bridge d => decide (d < 2)
  | .pcie i => decide (i < 2)
  | .ecat => true
  | .control => true
  | .timebase => true
  | .security => true

/-- A read of the part at the host (R322). -/
def readOk (r : HostRead) : Bool :=
  match r with
  | .ring k => decide (k < 8)
  | .moveOf l => tileOk l
  | .command => true

/-- A dictionary access. -/
def accessOk (a : Access) : Bool := decide (a.index < 2 ^ 16) && decide (a.sub < 2 ^ 8)

/-- What CONTROL carries. -/
def controlOk (m : ControlMsg) : Bool :=
  match m with
  | .identity r q role _ => idOk r q && decide (role < 256)
  | .spareSwitch lane => decide (lane < 8)
  | .stepRecord r q step _ _ => idOk r q && word32 step

/-- A field of the configuration space: its BAR has a register. -/
def configOk (a : ConfigAccess) : Bool :=
  (match a.field with
    | .bar n => barOk n
    | _ => true) &&
  (match a.write with
    | some v => word32 v
    | none => true)

/-- A register write, or another access to the part's own registers. -/
def targetOk (t : RegTarget) : Bool :=
  match t with
  | .sdo a _ => accessOk a
  | .bar b _ size v => barOk b && decide (size ≤ 4096) && decide (v < 2 ^ (8 * size))
  | .siiRead word => decide (word < 2 ^ 16)
  | .linkUp port => decide (port < 2)
  | .inputsRead => true
  | .trst _ => true
  | .sramUpset addr _ => decide (addr < 2 ^ 23)
  | .window offset value => decide (offset < 2 ^ 16) && word32 value
  | .windowRead offset => decide (offset < 2 ^ 16)
  | .debug op => match op with
    | .halt c => decide (c < 8)
    | .resume c => decide (c < 8)
    | .read a n => decide (a + n ≤ 2 ^ 23)
    | .write a d => decide (a + d.length ≤ 2 ^ 23)
  | .config a => configOk a

/-- The findings of a self-test name things that a variant has. -/
def findingOk (f : BistFinding) : Bool :=
  f.failedTiles.all physOk && f.failedCores.all (fun c => decide (c < 8)) && f.failedStacks.all (fun i => decide (i < 8)) &&
    f.failedGroups.all (fun g => decide (g < 8)) && f.failedSegments.all (fun g => decide (g < 24)) &&
    f.failedPorts.all portOk && decide (f.vddCore.length = f.clockOk.length)

/-- A command whose operands are in range. -/
def Instr.wf (i : Instr) : Bool :=
  match i with
  | .sync0 _ dcTime => decide (dcTime < 2 ^ 64)
  | .processDataUpdate _ _ => true
  | .advPulse _ _ => true
  | .advSilence _ => true
  | .slate _ _ => true
  | .earlyClose _ => true
  | .selfSlate _ => true
  | .randomTableFillDone phys => physOk phys
  | .reelPlacement _ => true
  | .dailiesSwitch _ => true
  | .cueFire _ => true
  | .streamFetch tile => tileOk tile
  | .move tile _ => tileOk tile
  | .fold tile _ => tileOk tile
  | .mma tile => tileOk tile
  | .smma tile => tileOk tile
  | .runFormation tile => tileOk tile
  | .runComplete tile _ => tileOk tile
  | .drainConvert tile _ => tileOk tile
  | .drainBias tile _ => tileOk tile
  | .drainReluDerivative tile _ => tileOk tile
  | .drainGeluDerivative tile _ => tileOk tile
  | .drainSiluDerivative tile _ => tileOk tile
  | .drainAdamw tile _ => tileOk tile
  | .drainSgdMomentum tile _ => tileOk tile
  | .add tile _ => tileOk tile
  | .mul tile _ => tileOk tile
  | .fma tile _ => tileOk tile
  | .affine tile _ => tileOk tile
  | .relu tile _ => tileOk tile
  | .gelu tile _ => tileOk tile
  | .silu tile _ => tileOk tile
  | .softmax tile _ => tileOk tile
  | .sum tile _ => tileOk tile
  | .amax tile _ => tileOk tile
  | .topk tile _ => tileOk tile
  | .layernorm tile _ => tileOk tile
  | .rmsnorm tile _ => tileOk tile
  | .quantise tile _ => tileOk tile
  | .sample tile _ => tileOk tile
  | .gather tile _ => tileOk tile
  | .scatterAdd tile _ => tileOk tile
  | .predict tile _ => tileOk tile
  | .predictAudit tile _ => tileOk tile
  | .trim tile _ => tileOk tile
  | .tipin tile _ => tileOk tile
  | .scan tile _ => tileOk tile
  | .check tile _ => tileOk tile
  | .routeSelect tile _ => tileOk tile
  | .routeDispatch tile _ => tileOk tile
  | .routeCombine tile _ => tileOk tile
  | .randRaw tile _ => tileOk tile
  | .randUniform tile _ => tileOk tile
  | .randBernoulli tile _ => tileOk tile
  | .randNormal tile _ => tileOk tile
  | .signalAdd tile _ => tileOk tile
  | .remoteSignal tile _ => tileOk tile
  | .remoteFence tile _ => tileOk tile
  | .armCue tile _ => tileOk tile
  | .wait tile _ => tileOk tile
  | .waitTimeout tile _ => tileOk tile
  | .snFlagAdd die => decide (die < 2)
  | .put tile _ => tileOk tile
  | .putWithSignal tile _ => tileOk tile
  | .get tile _ => tileOk tile
  | .acc tile _ => tileOk tile
  | .replayInPlace tile => tileOk tile
  | .packetPut port pkt => portOk port && packetOk pkt
  | .packetPutSignal port pkt => portOk port && packetOk pkt
  | .packetGetReq port pkt => portOk port && packetOk pkt
  | .packetSignal port pkt => portOk port && packetOk pkt
  | .packetAcc port pkt => portOk port && packetOk pkt
  | .packetResponse port pkt => portOk port && packetOk pkt
  | .packetGetData port pkt => portOk port && packetOk pkt
  | .packetControl port pkt msg => portOk port && packetOk pkt && controlOk msg
  | .packetIdle port pkt => portOk port && packetOk pkt
  | .packetCorrupt port => portOk port
  | .roundCombine tile => tileOk tile
  | .reorderHoldExpiry _ src => idOk src.rack src.package && decide (src.tile < 256) && decide (src.channel < 4)
  | .remoteTimeout _ tile => tileOk tile
  | .reissue _ tile => tileOk tile
  | .wavelengthFail port lane => portOk port && decide (lane ≤ 8)
  | .peerSilence _ port => portOk port
  | .laserLow _ input => decide (input < 4)
  | .laserRestored _ input => decide (input < 4)
  | .bringupRetry _ port => portOk port
  | .fabricUpTimeout _ => true
  | .stepFinal => true
  | .stepRecordLapse _ rack package => idOk rack package
  | .skipVerdict => true
  | .patrolScrub burst => decide (burst < 2 ^ 35)
  | .stackLost stack => decide (stack < 8)
  | .segmentFailed die column => decide (die < 2) && decide (column < 12)
  | .bridgeLaneFail group direction => decide (group < 8) && decide (direction < 2)
  | .arbCommit _ value => word32 value
  | .arbCommitInstant _ => true
  | .blockFence block => blockOk block
  | .sequencerStall _ phys => physOk phys
  | .cnRequestTimeout _ block => blockOk block
  | .blockSelfTestDone block _ => blockOk block
  | .coreWatchdogExpiry core => decide (core < 8)
  | .deviceWatchdogExpiry _ => true
  | .raise source => decide (source < 512)
  | .coalesceTimeRelease _ group => decide (group < 16)
  | .pendClear group bits => decide (group < 16) && word32 bits
  | .eoi core => decide (core < 8)
  | .hostEventsClear _ group bits => decide (group < 16) && word32 bits
  | .msixUnmask which => match which with
    | .vector v => decide (v < 64)
    | .function => true
  | .configRequest => true
  | .functionLevelReset _ => true
  | .d3hotEntry => true
  | .d0Return => true
  | .linkDegrade width => [1, 2, 4, 8, 16].contains width
  | .malformedTlp => true
  | .poisonedWrite => true
  | .unexpectedCompletion => true
  | .completionTimeout read => readOk read
  | .bar2Read _ size => decide (size ≤ 4096)
  | .bar2Write _ data => decide (data.length ≤ 4096)
  | .ingestTailWrite ring value => decide (ring < 8) && word32 value
  | .ingestEnableWrite ring _ => decide (ring < 8)
  | .ingestDescriptor ring _ => decide (ring < 8)
  | .ingestComplete ring _ => decide (ring < 8)
  | .answerPublish _ => true
  | .loadReel => true
  | .saveContext => true
  | .restoreContext => true
  | .writeFirmware _ => true
  | .attest => true
  | .bootOtherOnce => true
  | .doorbell tag => word32 tag
  | .registerWrite target => targetOk target
  | .takeControlWrite _ value => decide (value < 2 ^ 8)
  | .combinationModeWrite _ value => decide (value < 2 ^ 8)
  | .positionSourceWrite _ value => decide (value < 2 ^ 8)
  | .tableLoad _ => true
  | .tableClear _ => true
  | .tableEntryWrite _ _ value => decide (value < 2 ^ 64)
  | .fabricIdentityWrite _ index sub value => decide (index < 2 ^ 16) && decide (sub < 2 ^ 8) && word32 value
  | .duplexSizeWrite _ value => word32 value
  | .resetCommand _ value => word32 value
  | .dictionaryResetStart _ => true
  | .causeHistoryClear _ value => word32 value
  | .enterStandby _ => true
  | .standbyEntry _ => true
  | .leaveStandby _ => true
  | .standbyExit _ => true
  | .compactNow _ => true
  | .journalErase _ => true
  | .clearUser _ value => word32 value
  | .journalRecordDurable _ _ => true
  | .compaction _ _ => true
  | .regionEraseDone _ => true
  | .journalRestore _ => true
  | .sdoDownloadSegment _ _ => true
  | .sdoInformation req => match req with
    | .objectList => true
    | .object i => decide (i < 2 ^ 16)
    | .entry i j => decide (i < 2 ^ 16) && decide (j < 2 ^ 8)
  | .sdoBlockTransfer => true
  | .unsupportedMailbox _ => true
  | .initToPreop m => [m.sm0, m.sm0Len, m.sm1, m.sm1Len].all (fun x => decide (x < 2 ^ 16))
  | .preopToSafeop sm2Len sm3Len c => decide (sm2Len < 2 ^ 16) && decide (sm3Len < 2 ^ 16) && decide (c.sm2 < 2 ^ 16) && decide (c.sm3 < 2 ^ 16) && word32 c.sync0Ns &&
    word32 c.sync1Ns
  | .safeopToOp => true
  | .initToBoot => true
  | .alStateFall target => [1, 2, 4].contains target
  | .syncError _ => true
  | .sm2Watchdog _ => true
  | .foeWrite _ password => word32 password
  | .foeData _ _ _ => true
  | .foeRead => true
  | .siiWrite word value => decide (word < 2 ^ 16) && decide (value < 2 ^ 16)
  | .pwrGoodFall _ => true
  | .pwrGoodRise _ => true
  | .rstNAssert _ => true
  | .rstNRise _ => true
  | .perstNAssert _ => true
  | .perstNRise _ => true
  | .cfgSenseSample _ _ => true
  | .clockGood _ domain => domainOk domain
  | .clockGoodTimeout _ domain => domainOk domain
  | .bootVerify _ => true
  | .bistComplete _ found => findingOk found
  | .tempSample _ raw => decide (16 ≤ raw.length) && decide (raw.length ≤ 24) && raw.all (fun x => decide (x < 2 ^ 16))
  | .thermalRelease _ raw => decide (16 ≤ raw.length) && decide (raw.length ≤ 24) && raw.all (fun x => decide (x < 2 ^ 16))
  | .blockIdle block => blockOk block
  | .extest => true
  | .idcode => true
  | .samplePreload => true
  | .dbgChallenge => true
  | .dbgResponse level _ _ _ => decide (level < 2 ^ 8)
  | .dbgStatus => true
  | .scanEnable _ => true
  | .bypass code => decide (code < 2 ^ 8)
  | .hostCommandComplete => true
  | .tableLoadComplete => true
  | .sdoUpload _ index sub => decide (index < 2 ^ 16) && decide (sub < 2 ^ 8)
  | .barRead bar _ size => barOk bar && decide (size ≤ 4096)
  | .errorCompletion read => readOk read
  | .alwaysOnSupplyLoss => true
  | .coreUncorrectableError core => decide (core < 8)
  | .sync0Absence _ => true

end Sys2Proof
end

