-- ==== Sys2Proof/Tests/Slice0.lean ====
section
/-!
SUPPORT. Tests: an ill-formed term for each check of WellFormed, small values worked out from the spec by hand, and for every
statement that has hypotheses a concrete state and operands that meet them.
-/

namespace Sys2Proof.Tests

-- The kernel evaluates these tests one after the other, in one thread.
set_option Elab.async false

open Sys2Proof Sys2Proof.Machine

/-! ## Helpers -/

/-- A part that has come up: firmware runs, BIST is done, the journal is restored, the controller is in OP, BARs answer. -/
def up : State :=
  { State.reset with
    host := { HostSt.reset with memSpace := true }
    rst := { ResetSt.powerUp with
      cfgSampled := true, fwRunning := true, bistDone := true, restored := true, ready := true,
      domains := [.timebase, .ecat, .pcie 0, .pcie 1] }
    time := { TimeSt.reset with running := true, period := 3600000 }
    ecat := { EcatSt.reset with released := true, al := 8 } }

/-- An object set to a value. -/
def withObj (s : State) (k v : Nat) : State := s.setObj k v

/-- Bytes from an address on. -/
def bytesAt (a : Nat) (bs : List Byte) : Tab Byte := bs.zipIdx.map (fun q => (a + q.2, q.1))

/-- The 64 bytes of a descriptor of a dense tensor of rank 1 (R97). -/
def descBytes (elem scale base size : Nat) : List Byte :=
  leBytes 64 (elem + 1 <<< 8 + scale <<< 24 + base <<< 40 + size <<< 192)

/-- The 64 bytes of a descriptor of a dense tensor of rank 2 with rows of `stride` bytes. -/
def descBytes2 (elem scale base size0 size1 stride : Nat) : List Byte :=
  leBytes 64 (elem + 2 <<< 8 + scale <<< 24 + base <<< 40 + size0 <<< 192 + size1 <<< 208 + stride <<< 320)

/-- A queue entry that holds a record. -/
def entryOf (x : Nat) : QEntry :=
  { id := 0, record := BitVec.ofNat 512 x, pos := 0, step := 0, isReplay := false, applied := none, sigmas := (0, 0), st := .queued }

/-- Logical tile 0 on tile 0 with one queued record, and a tile store that lists the given bytes. -/
def tileWith (x : Nat) (store : Tab Byte) : State :=
  { up with
    tiles := [(0, { LogTile.fresh with
      phys := some 0
      queue := [entryOf x]
      hist := [{ phase := 0, idx := 0, record := BitVec.ofNat 512 x, step := none, status := none, done := false }]
      nextId := 1 })]
    phys := [(0, { PhysTile.fresh with store := store })] }

/-- A header with every field 0. -/
def packet0 : Packet :=
  { op := 0, channel := 0, first := true, last := true, dstRack := 0, dstPackage := 0, srcRack := 0, srcPackage := 1,
    srcTile := 0, length := 0, hops := 0, linkNak := false, addr := 0, flag := 0, reserved := 0, addend := 0, kslice := 0,
    e2eSeq := 0, status := 0, linkSeq := 0, ackSeq := 0, creditChannel := 0, creditCount := 0, hcrc := 0, payload := [] }

/-! ## Ill-formed commands are refused -/

/-- Each term breaks one check of `Instr.wf`. -/
theorem test_wf_refuses_numbers :
    ([.sync0 0 (2 ^ 64), .randomTableFillDone 192, .streamFetch 192, .move 192 0, .fold 192 0, .mma 192, .smma 192,
      .runFormation 192, .runComplete 192 0, .drainConvert 192 0, .drainBias 192 0, .drainReluDerivative 192 0,
      .drainGeluDerivative 192 0, .drainSiluDerivative 192 0, .drainAdamw 192 0, .drainSgdMomentum 192 0, .add 192 0,
      .mul 192 0, .fma 192 0, .affine 192 0, .relu 192 0, .gelu 192 0, .silu 192 0, .softmax 192 0, .sum 192 0, .amax 192 0,
      .topk 192 0, .layernorm 192 0, .rmsnorm 192 0, .quantise 192 0, .sample 192 0, .gather 192 0, .scatterAdd 192 0,
      .predict 192 0, .predictAudit 192 0, .trim 192 0, .tipin 192 0, .scan 192 0, .check 192 0, .routeSelect 192 0,
      .routeDispatch 192 0, .routeCombine 192 0, .randRaw 192 0, .randUniform 192 0, .randBernoulli 192 0,
      .randNormal 192 0, .signalAdd 192 0, .remoteSignal 192 0, .remoteFence 192 0, .armCue 192 0, .wait 192 0,
      .waitTimeout 192 0, .snFlagAdd 2, .put 192 0, .putWithSignal 192 0, .get 192 0, .acc 192 0, .replayInPlace 192,
      .roundCombine 192, .remoteTimeout 0 192, .reissue 0 192] : List Instr).all (fun c => !c.wf) = true := by decide

/-- Ports and packets. -/
theorem test_wf_refuses_packets :
    ([.packetPut 32 packet0, .packetPut 0 { packet0 with op := 16 }, .packetPutSignal 0 { packet0 with channel := 4 },
      .packetGetReq 0 { packet0 with dstRack := 64 }, .packetSignal 0 { packet0 with dstPackage := 64 },
      .packetAcc 0 { packet0 with srcRack := 64 }, .packetResponse 0 { packet0 with srcPackage := 64 },
      .packetGetData 0 { packet0 with srcTile := 256 }, .packetIdle 0 { packet0 with length := 257 },
      .packetIdle 0 { packet0 with length := 1 }, .packetIdle 0 { packet0 with hops := 64 },
      .packetIdle 0 { packet0 with addr := 2 ^ 48 }, .packetIdle 0 { packet0 with flag := 1024 },
      .packetIdle 0 { packet0 with reserved := 64 }, .packetIdle 0 { packet0 with addend := 2 ^ 32 },
      .packetIdle 0 { packet0 with kslice := 2 ^ 16 }, .packetIdle 0 { packet0 with e2eSeq := 2 ^ 16 },
      .packetIdle 0 { packet0 with status := 256 }, .packetIdle 0 { packet0 with linkSeq := 4096 },
      .packetIdle 0 { packet0 with ackSeq := 4096 }, .packetIdle 0 { packet0 with creditChannel := 4 },
      .packetIdle 0 { packet0 with creditCount := 64 }, .packetIdle 0 { packet0 with hcrc := 2 ^ 32 },
      .packetControl 0 packet0 (.identity 64 0 0 .tmn5800),
      .packetControl 0 packet0 (.identity 0 0 256 .tmn5800), .packetControl 0 packet0 (.spareSwitch 8),
      .packetControl 0 packet0 (.stepRecord 0 64 0 false []), .packetControl 0 packet0 (.stepRecord 0 0 (2 ^ 32) false []),
      .packetCorrupt 32, .reorderHoldExpiry 0 ⟨64, 0, 0, 0⟩, .reorderHoldExpiry 0 ⟨0, 0, 256, 0⟩,
      .reorderHoldExpiry 0 ⟨0, 0, 0, 4⟩, .wavelengthFail 32 0, .wavelengthFail 0 9, .peerSilence 0 32, .laserLow 0 4,
      .laserRestored 0 4, .bringupRetry 0 32] : List Instr).all (fun c => !c.wf) = true := by decide

/-- Memory, blocks, interrupts and the host port. -/
theorem test_wf_refuses_blocks :
    ([.stepRecordLapse 0 64 0, .patrolScrub (2 ^ 35), .stackLost 8, .segmentFailed 2 0, .segmentFailed 0 12,
      .bridgeLaneFail 8 0, .bridgeLaneFail 0 2, .arbCommit .coe (2 ^ 32), .blockFence (.tile 192), .blockFence (.stack 8),
      .blockFence (.segment 2 0), .blockFence (.segment 0 12), .blockFence (.laneGroup 8), .blockFence (.port 32),
      .blockFence (.core 8), .sequencerStall 0 192, .cnRequestTimeout 0 (.tile 192), .blockSelfTestDone (.stack 8) true,
      .blockFence (.network 2),
      .registerWrite (.config ⟨.bar 1, none⟩), .registerWrite (.config ⟨.command, some (2 ^ 32)⟩),
      .coreWatchdogExpiry 8, .raise 512, .coalesceTimeRelease 0 16, .pendClear 16 0, .pendClear 0 (2 ^ 32), .eoi 8,
      .hostEventsClear .coe 16 0, .hostEventsClear .coe 0 (2 ^ 32), .msixUnmask (.vector 64), .linkDegrade 3,
      .completionTimeout (.ring 8), .completionTimeout (.moveOf 192), .errorCompletion (.ring 8), .bar2Read 0 4097,
      .bar2Write 0 (List.replicate 4097 0), .ingestTailWrite 8 0, .ingestTailWrite 0 (2 ^ 32), .ingestEnableWrite 8 true,
      .ingestDescriptor 8 0, .ingestComplete 8 [], .doorbell (2 ^ 32), .barRead 1 0 4, .barRead 0 0 4097,
      .blockIdle (.stack 8), .coreUncorrectableError 8] : List Instr).all (fun c => !c.wf) = true := by decide +kernel

/-- Dictionary, EtherCAT, reset and test port. -/
theorem test_wf_refuses_dictionary :
    ([.registerWrite (.sdo ⟨true, false, false, 2 ^ 16, 0, []⟩ false),
      .registerWrite (.sdo ⟨true, false, false, 0, 256, []⟩ false), .registerWrite (.bar 1 0 4 0),
      .registerWrite (.bar 0 0 4097 0), .registerWrite (.bar 0 0 4 (2 ^ 32)), .registerWrite (.siiRead (2 ^ 16)),
      .registerWrite (.linkUp 2), .registerWrite (.window (2 ^ 16) 0), .registerWrite (.window 0 (2 ^ 32)),
      .registerWrite (.windowRead (2 ^ 16)), .registerWrite (.debug (.halt 8)), .registerWrite (.debug (.resume 8)),
      .registerWrite (.debug (.read (2 ^ 23) 1)), .registerWrite (.debug (.write (2 ^ 23) [0])), .takeControlWrite .coe 256,
      .combinationModeWrite .coe 256, .positionSourceWrite .coe 256, .tableEntryWrite .coe false (2 ^ 64),
      .fabricIdentityWrite .coe (2 ^ 16) 0 0, .fabricIdentityWrite .coe 0 256 0, .fabricIdentityWrite .coe 0 0 (2 ^ 32),
      .duplexSizeWrite .coe (2 ^ 32), .resetCommand .coe (2 ^ 32), .causeHistoryClear .coe (2 ^ 32),
      .clearUser .coe (2 ^ 32), .sdoInformation (.object (2 ^ 16)), .sdoInformation (.entry (2 ^ 16) 0),
      .sdoInformation (.entry 0 256), .preopToSafeop (2 ^ 16) 0 ⟨0, 0, 0x1800, 0x1C00, true⟩, .preopToSafeop 0 (2 ^ 16) ⟨0, 0, 0x1800, 0x1C00, true⟩,
      .preopToSafeop 0 0 ⟨2 ^ 32, 0, 0x1800, 0x1C00, true⟩, .preopToSafeop 0 0 ⟨0, 2 ^ 32, 0x1800, 0x1C00, true⟩, .initToPreop ⟨2 ^ 16, 0, 0, 0⟩,
      .initToPreop ⟨0, 2 ^ 16, 0, 0⟩, .initToPreop ⟨0, 0, 2 ^ 16, 0⟩, .initToPreop ⟨0, 0, 0, 2 ^ 16⟩,
      .alStateFall 8, .foeWrite [] (2 ^ 32), .siiWrite (2 ^ 16) 0, .siiWrite 0 (2 ^ 16),
      .clockGood 0 (.tile 192), .clockGood 0 (.segment 2 0), .clockGood 0 (.segment 0 12), .clockGood 0 (.cnSn 2),
      .clockGood 0 (.hbmController 8), .clockGood 0 (.hbmPhy 8), .clockGood 0 (.opticalTx 32), .clockGood 0 (.opticalRx 32),
      .clockGood 0 (.bridge 2), .clockGoodTimeout 0 (.pcie 2), .bistComplete 0 { BistFinding.clean with failedTiles := [192] },
      .bistComplete 0 { BistFinding.clean with failedCores := [8] },
      .bistComplete 0 { BistFinding.clean with failedStacks := [8] },
      .bistComplete 0 { BistFinding.clean with failedGroups := [8] },
      .bistComplete 0 { BistFinding.clean with failedSegments := [24] },
      .bistComplete 0 { BistFinding.clean with failedPorts := [32] },
      .bistComplete 0 { BistFinding.clean with vddCore := [] }, .tempSample 0 [], .tempSample 0 (List.replicate 25 0),
      .tempSample 0 (List.replicate 16 65536), .thermalRelease 0 [], .thermalRelease 0 (List.replicate 25 0),
      .thermalRelease 0 (List.replicate 16 65536), .dbgResponse 256 [] [] [], .bypass 256, .sdoUpload false (2 ^ 16) 0,
      .sdoUpload false 0 256] : List Instr).all (fun c => !c.wf) = true := by decide +kernel

/-- Commands at the ends of their ranges are well formed. -/
theorem test_wf_accepts :
    ([.move 191 5, .packetPut 31 { packet0 with length := 1, payload := [7] }, .patrolScrub (2 ^ 35 - 1), .raise 511,
      .blockFence (.segment 1 11), .barRead 4 0 8, .alStateFall 1, .bistComplete 0 BistFinding.clean,
      .tempSample 0 (List.replicate 24 1680)] : List Instr).all (fun c => c.wf) = true := by decide

/-! ## Values worked out in the spec -/

/-- R149, the worked example of an etch-chamber expert at the opening of take 812 and of take 813. -/
theorem test_density_controller :
    (([(Obj.targetDensity, 0x3000), (Obj.densityStep, 0x400), (Obj.exchangeStart, 0x1000), (Obj.exchangeEnd, 0),
        (Obj.exchangeTakes, 400), (Obj.goal, 0x3400), (Obj.measuredDensity, 0x3400), (Obj.scheduleCount, 100)]
      : List (Nat × Nat)).foldl (fun t q => t.setObj q.1 q.2) State.reset).classDensities 0 = (0x3000, 0x2DC0, 0x240) ∧
    (([(Obj.targetDensity, 0x3000), (Obj.densityStep, 0x400), (Obj.exchangeStart, 0x1000), (Obj.exchangeEnd, 0),
        (Obj.exchangeTakes, 400), (Obj.goal, 0x3000), (Obj.measuredDensity, 11712), (Obj.scheduleCount, 101)]
      : List (Nat × Nat)).foldl (fun t q => t.setObj q.1 q.2) State.reset).classDensities 0 = (12288, 11713, 576) := by
  decide +kernel

/-- A token of R234 with two choices. -/
def token (first second : Nat) : Token :=
  { index := 0, skipped := false, governor := false, probs := [], first := some first, second := some second }

/-- R235, the worked example of a group of four chamber families: state, expert and slot of both choices of each token. -/
theorem test_group_example :
    (assignTokens 3 4 [token 0 1, token 1 0, token 0 2, { token 0 0 with skipped := true, first := none, second := none },
      token 0 1, token 0 1, token 0 3, token 2 0]).map
      (fun a => ((a.c1.state, a.c1.expert, a.c1.slot), (a.c2.state, a.c2.expert, a.c2.slot))) =
    [((0, 0, 0), (0, 1, 1)), ((0, 1, 0), (1, 0, 0)), ((0, 0, 1), (0, 2, 1)), ((2, 0, 0), (2, 0, 0)), ((0, 0, 2), (0, 1, 2)),
      ((1, 0, 0), (1, 1, 0)), ((1, 0, 0), (0, 3, 0)), ((0, 2, 0), (1, 0, 0))] := by decide

/-- A reel with nothing in it but a budget. -/
def emptyReel (budget share : Nat) : Reel :=
  { base := 0, length := 0, repro := false, modelId := 0, tileBudget := budget, dx0Share := share, phases := [], cues := [],
    streams := [], reservations := [], descriptorCount := 2, descriptorTable := 0, seed := 0, crc := 0, measurement := 0 }

/-- R56, the worked example of a lithography overlay reel: 92 and 91 enabled tiles, TILE_BUDGET 179, DX0_SHARE 90. -/
theorem test_placement_example :
    let s := { State.reset with rst := { ResetSt.powerUp with
      bistInForce := { BistFinding.clean with failedTiles := [3, 7, 50, 95, 96, 100, 120, 150, 191] } } }
    s.enabledTiles = 183 ∧ (s.placement (emptyReel 179 90)).length = 179 ∧
      ((s.placement (emptyReel 179 90)).take 90).all (fun p => decide (p < 94)) = true ∧
      (s.placement (emptyReel 179 90))[90]? = some 97 ∧ (s.placement (emptyReel 179 90))[178]? = some 188 := by
  decide +kernel

/-- R94, the worked example of an etch-chamber gradient block: amax 1,000 gives the scale byte 0x81 and the codes 0xF8, 0x01
and 0x00 of MXFP8 E4M3. -/
theorem test_mx_block :
    let d : Desc := {
      elemType := 0x14, rank := 1, space := 0, layout := 0, blockDim := 0, strideUnit := 0, scaleId := 0xFFF,
      base := 0, scaleBase := 0x100, elemBase := 0, size := [3, 0, 0, 0, 0, 0, 0, 0], stride := List.replicate 8 0,
      orderSize0 := 0, reservedClear := true }
    let c := d.convertAll 0 0 (fun _ => 0) [f32Val 0xC47A0000, f32Val 0x3C23D70A, f32Val 0x3B449BA6]
    c.scales = [(0x100, [0x81])] ∧ c.rows.flatMap (fun r => r.2) = [0xF8, 0x01, 0x00] ∧ c.sats = 0 ∧ c.vans = 1 := by
  decide +kernel

/-- R20, R21: 10,000 ns of DC time are 36,000 counts, a difference that is slewed; one more ns is more. -/
theorem test_sync0_slews :
    (match exec (.sync0 0 10000) up with
      | .next t => (t.time.tb, t.time.slewLeft)
      | _ => (1, 0)) = (0, 36000) ∧ dcCount 10001 = 36003 ∧ slewLimit = 36000 := by decide +kernel

/-- R18: codes of some statuses. -/
theorem test_status_codes : statusCode .eccLost = 0x11 ∧ statusCode .malformed = 0x3F ∧ statusOfCode 0x20 = some .isolated := by
  decide

/-- R217 on hand-picked coordinates: the two words differ and the same coordinates give the same draw. -/
theorem test_dropout_bit :
    draw 5 0x31 5200 (327680 + 17 + 60 * 512) = draw 5 0x31 5200 (262144 + 17 + 188 * 512) ∧
      (drawIndices 5 0x31 5200 358417).1 ≠ (drawIndices 5 0x31 5200 358417).2 := by decide +kernel

/-! ## Witnesses: every hypothesis of a statement is met by a state -/

/-- FrontCommandRuns. -/
theorem witness_front_command : ({ up with pending := [.extest] } : State).pending = .extest :: [] ∧ up.pending = [] := by decide

/-- QueueBelongsToStep: a command that answers next. -/
theorem witness_exec_next : ∃ t, exec .extest State.reset = .next t := ⟨_, rfl⟩

/-- ManufactureIsFixed and HbmStaysCanonical: a step from a canonical memory, with JOURNAL_RESTORE not in front. -/
theorem witness_step_next :
    (∃ t, step { State.reset with pending := [.extest] } = .next t) ∧ Memory.wf State.reset.mem.hbm = true ∧
      ∀ dt, ({ State.reset with pending := [.extest] } : State).pending.head? ≠ some (.journalRestore dt) :=
  ⟨⟨_, rfl⟩, by decide, by intro dt; simp⟩

/-- AdvPulses: a first and a later accepted pulse, a short one, one that R35 has applied, one before the restore, one too
soon. -/
theorem witness_adv :
    (64 ≤ 64 ∧ (up.advance 0).rst.restored = true ∧ up.time.advApplied ≠ some (up.advance 0).advStamp ∧
      (up.advance 0).time.advSeen = false) ∧
    (let s := { up with time := { up.time with advApplied := some 0 } };
      (s.advance 0).rst.restored = true ∧ s.time.advApplied = some (s.advance 0).advStamp) ∧
    (let s := { up with time := { up.time with advSeen := true, lastAdv := 0, tb := 2 ^ 40 } };
      (s.advance 0).time.advSeen = true ∧
        (s.advance 0).time.lastAdv + (s.advance 0).governs Obj.advMinPeriodUs * 3600 ≤ (s.advance 0).advStamp) ∧
    63 < 64 ∧ ((State.reset.advance 0).rst.restored = false ∧ (State.reset.advance 0).inReset = false) ∧
    (let s := { up with time := { up.time with advSeen := true, lastAdv := 10, tb := 20 } };
      (s.advance 0).time.advSeen = true ∧
        (s.advance 0).advStamp < (s.advance 0).time.lastAdv + (s.advance 0).governs Obj.advMinPeriodUs * 3600) := by
  decide +kernel

/-- The line with a take open at TB_COUNT `tb`, anchored at 0, with `pulses` pulses since. -/
def lineAt (state pulses tb : Nat) (last : Option Nat) : State :=
  let s := (up.setObj Obj.takeState state).setObj Obj.takeControl 1
  { s with time := { s.time with tb := tb, advSinceAnchor := pulses, advSeen := true, lastAdv := tb, lastSlate := last } }

/-- What a slate of this instant is judged on (R35). -/
def judged (s : State) : State := (s.advance 0).applyWaitingAdv (s.advance 0).slateStamp

/-- Slates: none open and STOP; held off in a take and under RUN without one; EARLY_PENDING; early; late after a
self-slate. -/
theorem witness_slates :
    ((up.advance 0).linePaused = false ∧ up.obj Obj.sourceInForce ≠ 1 ∧ up.obj Obj.takeState = 0 ∧
      up.obj Obj.takeControl = 0 ∧ up.inReset = false) ∧
    (∀ state ∈ [0, 1], let s := lineAt state 5 1000 (some 1000);
      (s.advance 0).linePaused = false ∧ s.obj Obj.sourceInForce ≠ 1 ∧
        (s.obj Obj.takeState ≠ 0 ∨ s.obj Obj.takeControl ≠ 0) ∧ (s.advance 0).heldOff (s.advance 0).slateStamp = true) ∧
    (lineAt 2 5 1000 none).obj Obj.takeState = 2 ∧
    (let s := lineAt 1 22 1000 none; let u := judged s; let ts := (s.advance 0).slateStamp;
      s.obj Obj.takeState = 1 ∧ (s.advance 0).heldOff ts = false ∧
        ¬(u.lengthL ≤ u.positionAt ts + u.earlyE ∧ u.positionAt ts ≤ u.lengthL + u.lateD) ∧ s.take.selfSlated = false) ∧
    (let s0 := lineAt 1 1 1000 none; let s := { s0 with take := { s0.take with selfSlated := true } };
      let u := judged s; let ts := (s.advance 0).slateStamp;
      s.obj Obj.takeState = 1 ∧ s.take.selfSlated = true ∧ s.take.slates = 0 ∧ u.positionAt ts < u.lateD ∧
        ¬(u.lengthL ≤ u.positionAt ts + u.earlyE ∧ u.positionAt ts ≤ u.lengthL + u.lateD)) := by decide +kernel

/-- TakeBoundary: a slate at both ends of the window and one that opens a take under RUN, an early close and a self-slate,
each at its first instant. -/
theorem witness_take_boundary :
    (∀ pulses ∈ [23, 27], let s := lineAt 1 pulses 1000 none; let u := judged s; let ts := (s.advance 0).slateStamp;
      (s.advance 0).linePaused = false ∧ s.obj Obj.sourceInForce ≠ 1 ∧ s.obj Obj.takeState = 1 ∧
        (s.advance 0).heldOff ts = false ∧ u.lengthL ≤ u.positionAt ts + u.earlyE ∧ u.positionAt ts ≤ u.lengthL + u.lateD) ∧
    (let s := lineAt 0 0 1000 none;
      (s.advance 0).linePaused = false ∧ s.obj Obj.sourceInForce ≠ 1 ∧ s.obj Obj.takeState = 0 ∧ s.obj Obj.takeControl ≠ 0 ∧
        (s.advance 0).heldOff (s.advance 0).slateStamp = false) ∧
    (let s := lineAt 2 23 1000 none;
      s.obj Obj.takeState = 2 ∧ (s.advance 0).lengthL = (s.advance 0).position + (s.advance 0).earlyE) ∧
    (let s := lineAt 1 27 1000 none;
      s.obj Obj.takeState = 1 ∧ (s.advance 0).lengthL + (s.advance 0).lateD = (s.advance 0).position ∧
        (s.advance 0).slateWaits (s.advance 0).time.tb = false) := by decide +kernel

/-- AdvPulses: an accepted pulse after which the forecast meets its deadline at level 0, and one after which no level does. -/
theorem witness_governor :
    (let s0 := lineAt 1 4 (2 ^ 40) none
      let s := { s0 with time := { s0.time with lastAdv := 0 } }
      (match exec (.advPulse 0 64) s with
        | .next t =>
          let u := ({ (s.advance 0).incObj Obj.advAccepted with time := t.time } : State).fireDueAt (s.advance 0).advStamp
          decide (u.obj Obj.takeState ≠ 0 ∧ max (u.obj Obj.shedLevel) (u.governs Obj.shedFloor) = 0 ∧
            u.governs Obj.shedCeiling = 3 ∧ (u.forecastAt 0 : Int) ≤ u.deadline ∧ t.obj Obj.shedLevel = 0)
        | _ => false) = true) ∧
    (let u := lineAt 1 25 (2 ^ 40) none;
      u.obj Obj.takeState ≠ 0 ∧ max (u.obj Obj.shedLevel) (u.governs Obj.shedFloor) = 0 ∧ u.governs Obj.shedCeiling = 3 ∧
        [0, 1, 2, 3].all (fun level => decide (u.deadline < (u.forecastAt level : Int))) = true) := by decide +kernel

/-- TakeBoundary: a tile with a place, no GOVERNOR cue armed, and a margin at RELAX_MARGIN, below it and none. -/
theorem witness_levels :
    (let s := (lineAt 1 23 1000 none).setLt 0 { LogTile.fresh with phys := some 0 };
      (s.lt 0).phys ≠ none ∧ (∀ a ∈ (judged s).take.cues, cueAction a.entry < 5) ∧ (judged s).take.margin = none ∧
      (let v := { s with take := { s.take with margin := some (s.obj Obj.relaxMargin : Int) } };
        (judged v).take.margin = some ((judged v).obj Obj.relaxMargin : Int)) ∧
      (let v := { s with take := { s.take with margin := some (-1) } };
        (judged v).take.margin = some (-1) ∧ ¬ ((judged v).obj Obj.relaxMargin : Int) ≤ -1)) := by decide +kernel

/-- A MOVE of one FP32 element from 0x1000 to 0x2000. -/
def moveRec : Nat := 0x01 + 1 <<< 80 + 0o76543210 <<< 96

/-- The part with that MOVE queued; the descriptors name INT32, a raw type. -/
def moveState : State :=
  tileWith moveRec (bytesAt 0 (descBytes 0x0D 0xFFF 0x1000 1) ++ bytesAt 64 (descBytes 0x0D 0xFFF 0x2000 1))

/-- The entry at the front of the queue of logical tile 0, which stands on tile 0, works on what its unit does. -/
def WorksNow (s : State) (eff : State → Nat → Nat → QEntry → Done) (mine : Nat → Bool) (x : Nat) : Prop :=
  ReadyAt s 0 mine 0 (entryOf x) ∧ ∃ d, Works s 0 0 (entryOf x) eff d

/-- TileCommandCompletes, TileStoreFrame and TileCommandFrame, for MOVE. -/
theorem witness_move :
    RunsUnit (.move 0 0) 0 0 (fun x => recOpcode x == opMove) moveEff ∧
    WorksNow moveState moveEff (fun x => recOpcode x == opMove) moveRec ∧
    inDestination moveState 0 moveRec 0x1FFF = false ∧ inDestination moveState 0 moveRec 0x2000 = true :=
  ⟨.move 0 0, ⟨⟨by decide +kernel, by decide +kernel, by decide +kernel⟩, _, .move (by decide +kernel) (by decide +kernel)⟩,
    by decide +kernel, by decide +kernel⟩

/-- MoveMovesBits. -/
theorem witness_move_raw :
    isRawType (moveState.desc 0 (recOp (entryOf moveRec).x 64)).elemType = true ∧
      noData (moveState.moveRead 0 (entryOf moveRec).x (moveState.desc 0 (recOp (entryOf moveRec).x 64))
        (moveState.desc 0 (recOp (entryOf moveRec).x 80))).2 = false := by decide +kernel

/-- A RAND of USE 1 on descriptor 0. -/
def randRec : Nat := 0x50 + 1 <<< 96

/-- TileCommandWaitsOrStops: no entry; a RAND that waits for the table; a record that is malformed. -/
theorem witness_waits_or_stops :
    up.startable 0 (isRand 1) = none ∧
    (let s0 := tileWith randRec (bytesAt 0 (descBytes 1 0xFFF 0x1000 1));
      let s := s0.setPt 0 { s0.pt 0 with filling := true };
      s.startable 0 (isRand 1) = some (0, entryOf randRec) ∧ s.preStatus 0 (entryOf randRec) = none ∧
        s.canStart 0 0 (entryOf randRec) = false) ∧
    (let s := tileWith (moveRec + 1 <<< 500) [];
      s.startable 0 (fun x => recOpcode x == opMove) = some (0, entryOf (moveRec + 1 <<< 500)) ∧
        s.preStatus 0 (entryOf (moveRec + 1 <<< 500)) = some .malformed) := by decide +kernel

/-- The first test that stops a fabric-port command: a PUT whose PHASE is sheddable at its level. -/
theorem witness_port_stops :
    RunsPort (.put 0 0) 0 0 (fun x => recOpcode x == opPut && !(putSignal x)) planPut ∧
    (let x := 0x70 + 2 <<< 10;
      (tileWith x []).startable 0 (fun x => recOpcode x == opPut && !(putSignal x)) = some (0, entryOf x) ∧
        (tileWith x []).preStatus 0 (entryOf x) = some .zeroWork) := ⟨.put 0 0, by decide +kernel⟩

/-- An ADD of two FP32 elements. -/
def addRec : Nat := 0x20 + 1 <<< 64 + 1 <<< 96 + 0xFFFF <<< 112 + 2 <<< 128 + 0xFFFF <<< 144

/-- The part with that ADD queued. -/
def addState : State :=
  tileWith addRec (bytesAt 0 (descBytes 1 0xFFF 0x1000 1) ++ bytesAt 64 (descBytes 1 0xFFF 0x1010 1) ++
    bytesAt 128 (descBytes 1 0xFFF 0x2000 1))

/-- VectorElementwise, for ADD. -/
theorem witness_add :
    (addState.vecOps 0 (entryOf addRec).x).out0 = some (addState.desc 0 2) ∧
      ((addState.desc 0 2).headOk && (addState.desc 0 2).isEmpty) = false ∧
      firstFault ((addState.vecOps 0 (entryOf addRec).x).all.map (fun o => addState.descFault o.1 o.2 [0])) = none ∧
      (addState.vecOps 0 (entryOf addRec).x).dense = true ∧ elementwiseOk (addState.vecOps 0 (entryOf addRec).x) = true := by decide +kernel

/-- VectorElementwise: the ADD is ready. -/
theorem witness_add_ready :
    ReadyAt addState 0 (fun x => isVec 0x0001 x || (recOpcode x == opVec && !(listedRoutines.contains (recRoutine x)))) 0
      (entryOf addRec) := ⟨by decide +kernel, by decide +kernel, by decide +kernel⟩

/-- A GATHER of two rows, one of them out of range. -/
def gatherRec : Nat := 0x20 + 0x0701 <<< 64 + 1 <<< 96 + 0xFFFF <<< 112 + 2 <<< 128 + 0xFFFF <<< 144

/-- IN0 has two rows of one element; the indices are 1 and 2. -/
def gatherState : State :=
  tileWith gatherRec (bytesAt 0 (descBytes2 1 0xFFF 0x1000 1 2 4) ++ bytesAt 64 (descBytes 0x0B 0xFFF 0x1010 2) ++
    bytesAt 128 (descBytes2 1 0xFFF 0x2000 1 2 4) ++ bytesAt 0x1010 (leBytes 4 1 ++ leBytes 4 2))

/-- GatherCountsOutOfRange. -/
theorem witness_gather :
    ReadyAt gatherState 0 (isVec 0x0701) 0 (entryOf gatherRec) ∧
    (let o := gatherState.vecOps 0 (entryOf gatherRec).x;
      o.out0 = some (gatherState.desc 0 2) ∧ o.in1 = some (gatherState.desc 0 1) ∧
      ((gatherState.desc 0 2).headOk && (gatherState.desc 0 2).isEmpty) = false ∧
      firstFault (o.all.map (fun o => gatherState.descFault o.1 o.2 [0])) = none ∧ o.dense = true ∧
      gatherRoutine.shape (entryOf gatherRec).x o = true ∧ isRawType o.in0.elemType = false) ∧
    (gatherState.codes 0 (gatherState.desc 0 1)) = [1, 2] :=
  ⟨⟨by decide +kernel, by decide +kernel, by decide +kernel⟩, by decide +kernel, by decide +kernel⟩

/-- Quires: metadata with one bit in each row and column is accepted whole, in Q2 and in Q1. -/
theorem witness_quire :
    (0x8421 < 2 ^ 16 ∧ (readQuire 1 0x8421).rejected = 0 ∧ (readQuire 2 0x8421).rejected = 0) ∧
      (0, 0) ∈ (readQuire 2 0x8421).accepted := by decide +kernel

/-- An MMA of one row, one column and one K position in INT8. -/
def mmaRec : Nat :=
  0x10 + 1 <<< 80 + 0xFFFF <<< 112 + 0xFFFF <<< 128 + 0xFFFF <<< 144 + 0xFFFF <<< 160 + 0xFFFF <<< 192

/-- The part with that MMA queued. -/
def mmaState : State :=
  tileWith mmaRec (bytesAt 0 (descBytes2 9 0xFFF 0x1000 1 1 1) ++ bytesAt 64 (descBytes2 9 0xFFF 0x1010 1 1 1))

/-- The same with the array's run at a stage. -/
def mmaRun (run : Option (List Nat)) (st : EntryState) : State :=
  mmaState.setLt 0 { mmaState.lt 0 with run := run, queue := [{ entryOf mmaRec with st := st }] }

/-- What the array reports of a product without findings. -/
def arrayOk : ArrayDone := { status := .ok, count0 := 0, count1 := 0, rejected := 0, oor := 0 }

/-- ArrayRun: a run to form and one to stage, a product to form, a head without work, a run to complete with one staged
behind it. -/
theorem witness_array :
    ((mmaState.lt 0).phys = some 0 ∧ mmaState.runHead 0 = some (0, entryOf mmaRec, false) ∧
      mmaState.productEnd 0 0 (entryOf mmaRec) = none ∧ mmaState.canStart 0 0 (entryOf mmaRec) = true) ∧
    (let behind := { entryOf (mmaRec + 1 <<< 96) with id := 1, pos := 1 }
      let t := mmaState.lt 0
      let s := mmaState.setLt 0 { t with
        run := some [0], queue := [{ entryOf mmaRec with st := .inRun none }, behind], hist := t.hist ++ t.hist }
      s.runHead 0 = some (0, behind, true) ∧ s.productEnd 0 0 behind = none ∧ s.canStart 0 0 behind = true) ∧
    (let s := mmaRun (some [0]) (.inRun none); let e := { entryOf mmaRec with st := .inRun none };
      (s.lt 0).run.isSome = true ∧ (s.lt 0).queue.find? (fun q => q.st == .inRun none) = some e ∧
      recOpcode e.x = opMma ∧ s.productFault 0 e.x (s.product 0 e.x e.sigmas) = none) ∧
    (let s := tileWith mmaRec (bytesAt 0 (descBytes2 9 0xFFF 0x1000 0 1 1) ++ bytesAt 64 (descBytes2 9 0xFFF 0x1010 1 0 1));
      (s.lt 0).run = none ∧ s.startable 0 (fun x => recOpcode x == opMma) = some (0, entryOf mmaRec) ∧
      s.productEnd 0 0 (entryOf mmaRec) = some .zeroWork) ∧
    (let s := mmaRun (some [0]) (.inRun (some arrayOk)); let e := { entryOf mmaRec with st := .inRun (some arrayOk) };
      let b := s.setLt 0 { s.lt 0 with staged := some [1] };
      (s.lt 0).runDone = some [(e, arrayOk)] ∧ (s.lt 0).staged = none ∧
      (b.lt 0).runDone = some [(e, arrayOk)] ∧ (b.lt 0).staged = some [1] ∧ e.id ∉ [1]) := by decide +kernel

/-- StackCountsLeaves: an empty slot, and one whose first level is occupied. -/
theorem witness_stack :
    (Tab.read PhysTile.fresh.occupied 0 0 = 0 ∧ PhysTile.fresh.leaves 0 < 128) ∧
    (let t := { PhysTile.fresh with occupied := [(0, 1)] };
      t.levelOccupied 0 0 = true ∧ t.leaves 0 < 128) := by decide +kernel

/-- A DRAIN of FUNC 0 with CLEAR from slot 0. -/
def drainRec : Nat := 0x12 + 1 <<< 69 + 0xFFFF <<< 112 + 0xFFFF <<< 128 + 0xFFFF <<< 144

/-- The part with that DRAIN queued and its DST. -/
def drainState (dst : List Byte) : State := tileWith drainRec (bytesAt 0 dst)

/-- DrainPairLayout: a DST in pair layout and one that is converted. -/
theorem witness_drain :
    (∀ dst ∈ [descBytes2 1 0xFFF 0x1000 128 1 512, descBytes2 1 0xFFF 0x1000 2 2 8],
      let s := drainState dst; let e := entryOf drainRec;
      recFunc e.x = 0 ∧ s.slotExists e.x = true ∧ ((s.desc 0 (recOp e.x 80)).headOk && (s.desc 0 (recOp e.x 80)).isEmpty) = false ∧
      s.drainFault 0 e.x (s.desc 0 (recOp e.x 80)) = none ∧
      s.startable 0 (fun x => isDrain 0 x || (recOpcode x == opDrain && !(listedFuncs.contains (recFunc x)))) = some (0, e) ∧
      s.preStatus 0 e = none ∧ s.canStart 0 0 e = true) ∧
    ((drainState (descBytes2 1 0xFFF 0x1000 128 1 512)).desc 0 0).isPairForm = true ∧
    ((drainState (descBytes2 1 0xFFF 0x1000 2 2 8)).desc 0 0).isPairForm = false := by decide +kernel

/-- RegrowKeepsLimits: a candidate in a quire that keeps its limits. -/
theorem witness_regrow :
    (∀ c ∈ ([{ mag := 0, quire := 0, bit := 15, index := 15 }] : List Candidate),
      c.bit < 16 ∧ c.quire < (#[0x0001] : Array Nat).size) ∧ 0 < (#[0x0001] : Array Nat).size ∧
      bitAt ((#[0x0001] : Array Nat).getD 0 0) 0 = true ∧
      (∀ r, r < 4 → ((List.range 4).filter (fun c => bitAt ((#[0x0001] : Array Nat).getD 0 0) (4 * r + c))).length ≤ 1) := by
  decide +kernel

/-- CapacityHolds: tokens whose choices lie in range. -/
theorem witness_capacity :
    (∀ t ∈ [token 0 1, token 1 0], ∀ e, e < 3 → (t.first = some e ∨ t.second = some e) → e < 2) ∧
      ∀ t ∈ [token 0 1, token 1 0], ∀ e, (t.first = some e ∨ t.second = some e) → e < 2 := by
  refine ⟨by decide, ?_⟩
  intro t ht e he
  simp only [List.mem_cons, List.not_mem_nil, or_false] at ht
  rcases ht with rfl | rfl <;> simp [token] at he <;> omega

/-- A WAIT on flag 3 for 2, with CONSUME and the given TIMEOUT. -/
def waitRec (timeout : Nat) : Nat := 0x61 + 3 <<< 68 + 2 <<< 80 + timeout <<< 112 + 1 <<< 144

/-- The part with that WAIT queued and its flag at a value. -/
def waitState (timeout value : Nat) : State :=
  let s := tileWith (waitRec timeout) []
  s.setLt 0 { s.lt 0 with flags := [(3, value)] }

/-- SyncCommands: a fill that runs, an addition on its way to a tile whose WAIT has not started, a WAIT that is met, one that
may wait. -/
theorem witness_sync :
    (let s := up.setPt 5 { up.pt 5 with filling := true }; (s.pt 5).filling = true) ∧
    (let s0 := tileWith (waitRec 9) []; let s := { s0 with mem := { s0.mem with snQueue := [(0, 3, 1)] } };
      s.mem.snQueue.findIdx? (fun q => s.hubOf q.1 == some 0) = some 0 ∧ s.mem.snQueue[0]? = some (0, 3, 1) ∧
        ∀ q ∈ (s.lt 0).queue, recOpcode q.x = opWait → q.st ≠ .issued) ∧
    (∀ v ∈ [2, 1], let s := waitState 9 v; let e := entryOf (waitRec 9);
      s.startable 0 isWait = some (0, e) ∧ s.preStatus 0 e = none ∧ waitThreshold e.x ≠ 0 ∧ sigFlag e.x < 1024 ∧
        waitConsumed e = false ∧ waitTimeoutOf e.x ≠ 0 ∧ (decide (waitThreshold e.x ≤ (s.lt 0).flag (sigFlag e.x)) = (v == 2))) ∧
    (let s := (waitState 9 1).setLt 0 { (waitState 9 1).lt 0 with queue := [{ entryOf (waitRec 9) with st := .issued }] };
      (s.lt 0).phys = some 0 ∧ (s.lt 0).timedOut 9 = some { entryOf (waitRec 9) with st := .issued }) := by decide +kernel

/-- SyncCommands: a WAIT whose hub is out of service. -/
theorem witness_hub_down :
    (let s0 := waitState 9 2; let s := { s0 with rst := { s0.rst with fencedBlocks := [.network 0] } }; let e := entryOf (waitRec 9);
      s.startable 0 isWait = some (0, e) ∧ s.preStatus 0 e = none ∧ waitThreshold e.x ≠ 0 ∧ sigFlag e.x < 1024 ∧
        waitConsumed e = false ∧ s.hubDown 0 = true ∧ s0.hubDown 0 = false) := by decide +kernel

/-- SyncCommands: WAITs that complete at once: THRESHOLD 0, FLAG 1,024, a threshold that a replay finds consumed, TIMEOUT 0. -/
theorem witness_wait_at_once :
    (∀ x ∈ [waitRec 9 - 2 <<< 80, waitRec 9 + 1021 <<< 68, waitRec 0],
      (tileWith x []).startable 0 isWait = some (0, entryOf x) ∧ (tileWith x []).preStatus 0 (entryOf x) = none) ∧
    waitThreshold (entryOf (waitRec 9 - 2 <<< 80)).x = 0 ∧ 1024 ≤ sigFlag (entryOf (waitRec 9 + 1021 <<< 68)).x ∧
    waitTimeoutOf (entryOf (waitRec 0)).x = 0 ∧ ¬ waitThreshold (entryOf (waitRec 0)).x ≤ ((tileWith (waitRec 0) []).lt 0).flag 3 ∧
    (let e := { entryOf (waitRec 9) with isReplay := true, applied := some .ok }
      let s0 := tileWith (waitRec 9) []
      let s := s0.setLt 0 { s0.lt 0 with queue := [e] }
      s.startable 0 isWait = some (0, e) ∧ s.preStatus 0 e = none ∧ waitConsumed e = true) := by decide +kernel

/-- A reel of one phase (code 1, of which tile 0 has `n` records at 0x1000 of the image) and `budget` tiles. -/
def phaseReel (budget n : Nat) : Reel :=
  { emptyReel budget 1 with phases := [{ code := 1, reserved := 0, slack := 0 }], streams := [(0x1000, n)] }

/-- Tile 0 with that reel active, one started stream, and commands to repeat. -/
def streamState (replays : List HistEntry) : State :=
  { up.setLt 0 { LogTile.fresh with phys := some 0, streams := [{ phase := 0, next := 0, count := 1 }], replays := replays } with
    reels := { ReelSt.reset with active := some (phaseReel 1 1) } }

/-- QueueFillsInOrder: a full queue, a tile without a place, one that does not work, room with a command to repeat and with a
started stream, a replay pending that may start. -/
theorem witness_queue :
    (let s := up.setLt 0 { LogTile.fresh with phys := some 0, queue := List.replicate 64 (entryOf 1) };
      64 ≤ (s.lt 0).queue.length ∧ (s.lt 0).queue.length ≤ 64) ∧ (up.lt 0).phys = none ∧
    (let s := (streamState []).setPt 0 { PhysTile.fresh with fenced := true };
      (s.lt 0).phys = some 0 ∧ s.tileWorks 0 = false) ∧
    (let h : HistEntry := { phase := 0, idx := 0, record := 1, step := none, status := none, done := false };
      ((streamState [h]).lt 0).replays = h :: [] ∧ ((streamState [h]).lt 0).queue.length < 64 ∧
      (streamState [h]).tileWorks 0 = true ∧ ((streamState [h]).lt 0).replayPending = none) ∧
    (((streamState []).lt 0).replays = [] ∧ ((streamState []).lt 0).streams = { phase := 0, next := 0, count := 1 } :: [] ∧
      (streamState []).reels.active = some (phaseReel 1 1) ∧ 0 < 1) ∧
    (let s := up.setLt 0 { LogTile.fresh with phys := some 0, replayPending := some 0 };
      (s.lt 0).replayPending = some 0 ∧ (s.lt 0).ops = [] ∧
        (s.lt 0).queue.all (fun e => e.st == .queued) = true) := by decide +kernel

/-- A PUT of four bytes to flag-free HBM address 0 of package 0 on rack 0. -/
def putRec : Nat := 0x70

/-- The part with that PUT queued. -/
def putState : State := tileWith putRec (bytesAt 0 (descBytes 1 0xFFF 0x1000 1) ++ bytesAt 0x1000 [1, 2, 3, 4])

/-- RemoteRefusedAtSource: a PUT that its plan lets through, and one whose LOCAL is empty. -/
theorem witness_put :
    ReadyAt putState 0 (fun x => recOpcode x == opPut && !(putSignal x)) 0 (entryOf putRec) ∧ (putState.lt 0).portOpen = true ∧
    (planPut putState 0 0 (entryOf putRec)).done = none ∧
    (planPut (tileWith putRec (bytesAt 0 (descBytes 1 0xFFF 0x1000 0))) 0 0 (entryOf putRec)).done = some .zeroWork :=
  ⟨⟨by decide +kernel, by decide +kernel, by decide +kernel⟩, by decide +kernel, by decide +kernel, by decide +kernel⟩

/-- A cue at POSITION 0 for tile 0: START_PHASE, PREFETCH or SET_FLAG. -/
def cueOf (action : Nat) : ArmedCue :=
  { entry := BitVec.ofNat 128 (action <<< 32 + 1 <<< 48 + 1 <<< 80), order := 0, ofNewReel := false }

/-- An open take with that cue alone armed, and the reel of one phase. -/
def cueState (action : Nat) : State :=
  let s := lineAt 1 0 1000 none
  { s with take := { s.take with cues := [cueOf action] }, reels := { ReelSt.reset with active := some (phaseReel 1 1) } }

/-- LineCommands: a silence, an open take, a cue of each action, a frozen set, and a reel whose predecessor is done, with
tiles enough and too few. -/
theorem witness_line :
    (let s := { up with time := { up.time with advSeen := true, lastAdv := 0, tb := 2 ^ 50 } };
      (s.advance 0).silent = true ∧ s.inReset = false) ∧
    ((lineAt 1 0 0 none).advance 0).takeOpen = true ∧
    (∀ action ∈ [1, 2, 3], let s := cueState action;
      (s.advance 0).takeOpen = true ∧ (s.advance 0).dueCues (s.advance 0).time.tb = [cueOf action] ∧
        (cueOf action).ofNewReel = false ∧ s.cueStatus (cueOf action).entry = .ok ∧ cueAction (cueOf action).entry = action) ∧
    (phaseReel 1 1).phaseIndex (cuePhase (cueOf 1).entry) = some 0 ∧
    (let s := { up with dailies := [[(0x300002, 7)]] };
      s.dailies = [(0x300002, 7)] :: [] ∧ Tab.wf [(0x300002, 7)] = true ∧ ∀ x ∈ [((0x300002 : Nat), 7)], dailiesKey x.1 = true ∧
      s.withinRequest = false) ∧
    (let a : Access := { write := false, describe := false, complete := false, index := 0x3000, sub := 2, data := [] }
      let j : Job := { path := .pcie, tag := 0, todo := [], answers := [(a, .ok, [])] }
      ({ up with server := { up.server with jobs := [j] } } : State).withinRequest = true) ∧
    (∀ n ∈ [1, 193], let s := { lineAt 0 0 1 none with reels := { up.reels with activating := some (emptyReel n 1) } };
      (s.advance 0).fireDue.reels.activating = some (emptyReel n 1) ∧ (s.advance 0).fireDue.reelDone = true ∧
        (s.advance 0).time.tb ≠ 0 ∧ decide ((s.advance 0).fireDue.enabledTiles < n) = (n == 193)) := by decide +kernel

/-- SyncAndProcessData: a running timebase at both sides of the limit, process data in SAFEOP and in OP. -/
theorem witness_process_data :
    (up.ecat.released = true ∧ (up.advance 0).time.running = true) ∧
    (((10000 * 18 / 5 : Nat) : Int) - ((up.advance 0).time.tb : Int)).natAbs = 36000 ∧
    (((10001 * 18 / 5 : Nat) : Int) - ((up.advance 0).time.tb : Int)).natAbs = 36003 ∧
    (List.replicate (up.assignedBytes 0x1C12) (0 : Byte)).length = up.assignedBytes 0x1C12 ∧ up.ecat.al = alOp ∧
    ({ up with ecat := { up.ecat with al := alSafeop } } : State).ecat.al = alSafeop ∧
    ({ up with ecat := { up.ecat with txImage := [1] } } : State).ecat.txImage ≠ [] := by decide +kernel

/-- The controller in a state. -/
def inAl (al : Nat) : State := { up with ecat := { up.ecat with al := al } }

/-- AlTransitions: each starting state with its check passed and failed, a fall, and OP. -/
theorem witness_al :
    (inAl 1).ecat.released = true ∧ (inAl 1).ecat.al = alInit ∧ (inAl 1).obj Obj.journalState = 0 ∧
    ((inAl 1).setObj Obj.journalState 1).obj Obj.journalState = 1 ∧ (inAl 2).ecat.al = alPreop ∧ (inAl 4).ecat.al = alSafeop ∧
    (inAl 4).ecat.sm2Valid = false ∧ ({ inAl 4 with ecat := { (inAl 4).ecat with sm2Valid := true } } : State).ecat.sm2Valid = true ∧
    (inAl 1).obj Obj.takeState = 0 ∧ (inAl 1).obj Obj.takeControl = 0 ∧ (lineAt 1 0 0 none).obj Obj.takeState = 1 ∧
    ¬ (3 < (inAl 2).obj Obj.syncMode ∨ ((inAl 2).obj Obj.positionSource = 1 ∧ (inAl 2).obj Obj.syncMode < 2)) ∧
    ¬ (125000 < 125000 ∨ 100000000 < 125000) ∧ alLower 8 4 = true ∧ alLower 1 4 = false ∧ up.ecat.al = alOp := by decide +kernel

/-- FoeAndSii: INIT, BOOT with each kind of request, a write under way, and the alias. -/
theorem witness_foe :
    (inAl 1).ecat.al = alInit ∧ (inAl 2).ecat.al ≠ alInit ∧ (inAl 2).ecat.al ≠ alBoot ∧ (inAl 3).ecat.al = alBoot ∧
    ([] : List Byte) ≠ foeName ∧ (inAl 3).ecat.foe = none ∧ (inAl 3).foeLive = true ∧
    (let s := { inAl 3 with ecat := { (inAl 3).ecat with foe := some 0 } };
      s.ecat.foe.isSome = true ∧ s.ecat.foe = some 0 ∧ 0 + ([1] : List Byte).length ≤ slotBytes ∧ s.foeLive = true ∧
        s.ecat.al = alBoot) ∧ up.rst.restored = true ∧ (0 : Nat) ≠ 4 ∧
    (let s := { inAl 3 with ecat := { (inAl 3).ecat with foe := some slotBytes } };
      s.ecat.foe = some slotBytes ∧ s.ecat.al = alBoot ∧ slotBytes < slotBytes + ([1] : List Byte).length ∧ s.foeLive = true) := by
  decide +kernel

/-- A part with logical tile 0 as the only participant, in step 1. -/
def stepState (sat : List Nat) : State :=
  { up.setLt 0 { LogTile.fresh with phys := some 0, stepCtr := 1 } with
    steps := { StepSt.reset with participants := [0], saturated := sat } }

/-- The part whose group has member 1 of rack 0. -/
def groupState : State :=
  { up.setObj Obj.groupMembers 2 with steps := { StepSt.reset with ownSentTb := [(0, 0)] }, time := { up.time with tb := 2 ^ 50 } }

/-- The default of every GROUP_MEMBERS word is 0 (R199). -/
theorem test_members_default : ∀ i, i < 128 → objDefault (Obj.groupMembers + i) = 0 := by decide +kernel

/-- A package whose GROUP_MEMBERS objects are at their default has no other member. -/
theorem no_members (s : State) (h : ∀ i, i < 128 → Tab.look s.objs (Obj.groupMembers + i) = none) : s.groupMembers = [] := by
  unfold State.groupMembers
  rw [List.filter_eq_nil_iff]
  intro m hm
  have hm' := List.mem_range.mp hm
  have h1 : s.obj (Obj.groupMembers + m / 32) = 0 := by
    unfold State.obj
    rw [h _ (by omega)]
    exact test_members_default _ (by omega)
  rw [h1]
  simp [bitAt]

/-- A part at the first update drain of step 1 with the verdict of step 0 formed, skipping of saturated steps in force, and
class-2 saturations in the given steps. -/
def verdictState (sat : List Nat) : State :=
  let s := stepState sat
  { s.setLt 0 { s.lt 0 with queue := [entryOf (0x12 + 0x10 <<< 96 + 0xFFFF <<< 112)] } with
    take := { s.take with inForce := [(Obj.saturationAction, 1)] }, steps := { s.steps with skips := [(0, 0)] } }

/-- StepsBecomeFinal: a final step with and without saturation, one that is not final in a package without other members,
a package in a group with a record still out, a verdict to form with and without saturation. -/
theorem witness_steps :
    (∀ sat ∈ [[], [0]], (stepState sat).ownFinal (stepState sat).steps.nextFinal = true) ∧ (stepState []).groupMembers = [] ∧
    (stepState [0]).groupMembers = [] ∧ (stepState [0]).verdictSaturated 0 = true ∧
    (up.stepIsFinal up.steps.nextFinal = false ∧ up.groupMembers = []) ∧
    (groupState.advance 0).overdueStep (64 * 0 + 1) = some 0 ∧
    (∀ sat ∈ [[], [1]], (verdictState sat).verdictStep = some 1 ∧ (verdictState sat).verdictDue 1 = true ∧
      (verdictState sat).governs Obj.saturationAction = 1 ∧ (verdictState sat).steps.saturated.contains 1 = !sat.isEmpty) ∧
    (verdictState []).groupMembers = [] ∧ (verdictState [1]).groupMembers = [] :=
  ⟨by decide +kernel, no_members _ (by decide +kernel), no_members _ (by decide +kernel), by decide +kernel,
    ⟨by decide +kernel, no_members _ (by decide +kernel)⟩, by decide +kernel, by decide +kernel, no_members _ (by decide +kernel),
    no_members _ (by decide +kernel)⟩

/-- A part whose tile 0 has ended steps 0 and 1, while tile 1, without STEP_END, still runs a command of step 0. -/
def aheadState : State :=
  { up with
    steps := { StepSt.reset with participants := [0] }
    tiles := [(0, { LogTile.fresh with phys := some 0, stepCtr := 2 }),
      (1, { LogTile.fresh with phys := some 1, queue := [{ entryOf 0 with st := .issued }] })] }

/-- StepsBecomeFinal: a step ahead whose own part is final while the next one is not. -/
theorem witness_step_ahead :
    aheadState.stepIsFinal aheadState.steps.nextFinal = false ∧ aheadState.steps.nextFinal ≤ 1 ∧
      aheadState.ownFinal 1 = true := by decide +kernel

/-- StepsBecomeFinal: member 1 of rack 0 belongs to the group. -/
theorem witness_step_member : (groupState.advance 0).groupMembers.contains (64 * 0 + 1) = true := by
  rw [List.contains_iff_mem]
  unfold State.groupMembers
  exact List.mem_filter.mpr ⟨by simp, by decide +kernel⟩

/-- MemoryFaults: a correctable and an uncorrectable burst, a clean one, the first beyond the last, one of a lost stack; stacks,
segments and lane groups present, absent, failed and in reset; a commit at its instant and before it. -/
theorem witness_memory :
    (∀ n ∈ [1, 2], let s := { up with mem := { up.mem with badBursts := [(0, n)] } };
      0 < s.part.variant.hbmEnd / 32 ∧ s.burstState 0 = n ∧ s.stackIsLost (hbmStack s.part.variant (32 * 0)) = false) ∧
    up.burstState 0 = 0 ∧ (up.setObj Obj.stacksLost 1).stackIsLost (hbmStack up.part.variant (32 * 0)) = true ∧
    (let s := { up with rst := { up.rst with fencedBlocks := [.stack 0] } }; 2 < s.burstState 0) ∧
    (up.inReset = false ∧ 7 < up.part.variant.stacks ∧ up.stackIsLost 7 = false) ∧
    ({ State.reset with rst := { ResetSt.powerUp with asserted := 1 } } : State).inReset = true ∧
    1 < up.part.variant.dies ∧ (let s := { up with mem := { up.mem with failedSegments := [12 * 1 + 11] } };
      12 * 1 + 11 ∈ s.mem.failedSegments) ∧
    (up.part.variant.hasBridge = true ∧ up.mem.closedGroups.contains (2 * 7 + 1) = false ∧ up.mem.sparedLanes.contains 15 = false) ∧
    (let s := { up with mem := { up.mem with sparedLanes := [15], closedGroups := [14] } };
      s.mem.sparedLanes.contains 15 = true ∧ s.mem.closedGroups.contains 15 = false ∧ s.mem.closedGroups.contains (2 * 7 + 0) = true) ∧
    (∀ tb ∈ [7200, 7199], let s := { up with
        mem := { up.mem with commitAt := some 7200, commitValues := up.shadowValues }, time := { up.time with tb := tb } };
      s.mem.commitAt = some 7200 ∧ s.mem.commitValues = shadowKeys.map (fun k => (k, up.obj k)) ∧
        decide (7200 ≤ (s.advance 0).time.tb) = (tb == 7200)) := by decide +kernel

/-- A reel with one logical tile on tile 0, and work in its queue. -/
def reelState : State :=
  let s := tileWith moveRec []
  { s with reels := { s.reels with active := some (emptyReel 1 1) } }

/-- TileFence: the tile of a logical number, for a first and a second fence, with a reserve tile on its die. -/
theorem witness_tile_fence :
    (∀ n ∈ [0, 1], let s := reelState.setPt 0 { reelState.pt 0 with fences := n };
      s.inReset = false ∧ s.logicalOf 0 = some 0 ∧ (s.lt 0).phys = some 0 ∧ 0 < s.part.variant.tiles ∧ (s.pt 0).fenced = false ∧
        (s.lt 0).queue ≠ [] ∧ 0 < (s.advance 0).budget ∧ (s.lt 0).ops = [] ∧ ((s.pt 0).fences = n) ∧
        s.reserve.find? (fun q => tileDie q == tileDie 0) = some 1) := by decide +kernel

/-- BlockFences: fitted blocks of each kind, blocks fenced already, a fenced tile with a logical tile that needs its place, a
fenced core. -/
theorem witness_block_fence :
    (∀ b ∈ [Block.stack 7, .segment 1 11, .laneGroup 7, .port 31, .network 1, .hostPort, .ecatController],
      up.inReset = false ∧ up.blockFitted b = true ∧ up.rst.fencedBlocks.contains b = false) ∧
    (∀ q, Block.stack 7 ≠ .tile q) ∧ (∀ q, Block.stack 7 ≠ .core q) ∧
    (let s := { up with rst := { up.rst with laneFences := [(blockKey (.stack 7), 1)], fencedBlocks := [.port 31] } };
      Tab.read s.rst.laneFences 0 (blockKey (.stack 7)) ≠ 0 ∧ s.rst.fencedBlocks.contains (.stack 7) = false) ∧
    (let s := { up with rst := { up.rst with fencedBlocks := [.stack 7] } };
      s.rst.fencedBlocks.contains (.stack 7) = true ∧ s.rst.unusableBlocks.contains (.stack 7) = false) ∧
    (let s := up.setPt 3 { up.pt 3 with fenced := true }; (s.pt 3).fenced = true ∧ (s.pt 3).unusable = false) ∧
    (let s := up.setCore 2 { up.core 2 with condition := 1 }; (s.core 2).condition = 1) := by
  refine ⟨by decide +kernel, (by intro q h; cases h), (by intro q h; cases h), by decide +kernel, by decide +kernel, by decide +kernel,
    by decide +kernel⟩

/-- BlockFences: the only tile of the part that works is fenced, and logical tile 0 waits for a place. -/
theorem witness_tile_returns :
    (let s := { up with
        reels := { ReelSt.reset with active := some (emptyReel 1 1) }
        phys := [(3, { PhysTile.fresh with fenced := true })]
        rst := { up.rst with bistInForce := { BistFinding.clean with failedTiles := (List.range 192).filter (fun p => p != 3) } } };
      (s.pt 3).fenced = true ∧ (s.pt 3).unusable = false ∧ (List.range s.budget).find? s.needsPlace = some 0 ∧ s.reserve = [] ∧
        3 < s.part.variant.tiles ∧ s.rst.bistInForce.failedTiles.contains 3 = false ∧ s.logicalOf 3 = none) := by decide +kernel

/-- CoreMigration: a healthy core with a spare and without one, a halted core, no healthy core, no source asserted. -/
theorem witness_core :
    (up.rst.fwRunning = true ∧ up.coreHealthy 0 = true ∧ (up.core 0).halted = false ∧ up.rst.asserted = 0 ∧ up.healthyCores ≠ []) ∧
    (let s := up.setCore 7 { up.core 7 with condition := 1 };
      s.coreHealthy 0 = true ∧ ((List.range 8).filter (fun q => q != 0 && s.coreHealthy q)).find? (fun q => (s.core q).roles.isEmpty) = none) ∧
    (let s := up.setCore 0 { up.core 0 with halted := true }; (s.core 0).halted = true ∧ s.anyHalted = true) ∧
    (let s := (List.range 8).foldl (fun t c => t.setCore c { t.core c with condition := 2 }) up;
      s.rst.fwRunning = true ∧ s.healthyCores = [] ∧ s.anyHalted = false) := by decide +kernel

/-- Interrupts: listed sources and ones that are not, a group whose raise is due with its vector open and
masked, a pending vector, a core with a stack, one interrupted again at once, and one without a stack. -/
theorem witness_interrupts :
    (sourceListed 0x1C0 = true ∧ sourceListed 0x0C2 = true ∧ 0x0C2 / 32 ≠ 14 ∧ up.inReset = false ∧ sourceListed 480 = false ∧
      sourceListed 0x01F = false) ∧
    (let s := { up with intr := { up.intr with counts := [(15, 1)] } };
      15 < 16 ∧ (s.advance 0).releaseDue 15 = true ∧ (s.advance 0).vectorOpen 15 = false ∧
      (let u := { s with host := { s.host with unmaskedVectors := [15] } };
        (u.advance 0).releaseDue 15 = true ∧ (u.advance 0).vectorOpen 15 = true)) ∧
    (up.advance 0).releaseDue 15 = false ∧
    (let s := { up with host := { up.host with msixPending := [15], unmaskedVectors := [15] } };
      15 ∈ s.host.msixPending ∧ 15 ∈ s.host.unmaskedVectors ∧ s.host.functionMask = false ∧ s.dmaOpen = true) ∧
    15 ∉ up.host.msixPending ∧
    (let s := up.setCore 7 { up.core 7 with stack := [0], running := 3 };
      (s.core 7).condition = 0 ∧ (s.core 7).stack = [] ++ [0] ∧ (s.core 7).stack.length ≤ 8 ∧ ¬ 0 < s.topPriority 7) ∧
    (let s0 := up.setCore 7 { up.core 7 with stack := [0], running := 3 };
      let s := { s0 with intr := { s0.intr with srcCfg := [(3, 2 + 128 <<< 8)], pend := [(0, 8)] } };
      (s.core 7).stack = [] ++ [0] ∧ 0 < s.topPriority 7) ∧
    (up.core 7).stack = [] ∧ up.rst.restored = true := by decide +kernel

/-- HostPort: the link alive and not, the part ready and not, values that a field has and has not, D3hot with a vector pending
and unmasked, with the conditions of Standby met and not. -/
theorem witness_host_port :
    (up.linkAlive = true ∧ up.rst.ready = true ∧ up.rst.asserted = 0) ∧ State.reset.linkAlive = false ∧
    ({ up with rst := { up.rst with ready := false } } : State).rst.ready = false ∧
    ({ up with rst := { up.rst with ready := false } } : State).linkAlive = true ∧
    (2 ≤ 2 ∧ ¬ 3 ≤ 2 ∧ 5 ≤ 5 ∧ ¬ 6 ≤ 5) ∧ ((10 ≤ 10 ∧ 10 ≤ 16) ∧ (10 ≤ 16 ∧ 16 ≤ 16) ∧ ¬(10 ≤ 9 ∧ 9 ≤ 16) ∧ ¬(10 ≤ 17 ∧ 17 ≤ 16)) ∧
    (bitAt (2 ^ 14) 14 = true ∧ bitAt 0 14 = false) ∧ (8 ∈ [0, 1, 2, 4, 8] ∧ 0 < 8 ∧ 8 < up.host.linkWidth) ∧ up.host.d3hot = false ∧
    (up.obj Obj.takeState = 0 ∧ up.obj Obj.takeControl = 0 ∧ up.obj Obj.deviceState = 0) ∧
    (let s := { up with host := { up.host with d3hot := true, msixPending := [15], unmaskedVectors := [15] } };
      s.host.d3hot = true ∧ 15 ∈ s.host.msixPending ∧ 15 ∈ s.host.unmaskedVectors ∧ s.host.functionMask = false ∧
        s.linkAlive = true) := by decide +kernel

/-- A window of HBM from 1 GiB on. -/
def windowState : State := { up with host := { up.host with windowBase := 2 ^ 30 } }

/-- HostAccesses: the last aligned word of BAR0 and of BAR4, the last bytes of the window, a read outside every BAR, writes. -/
theorem witness_host_accesses :
    (up.barTakes 0 (0x4000000 - 8) 8 = true ∧ barAligned (0x4000000 - 8) 8 = true) ∧
    (up.barTakes 4 (0x100000 - 4) 4 = true ∧ barAligned (0x100000 - 4) 4 = true) ∧ barAligned 2 4 = false ∧
    up.barTakes 0 2 4 = true ∧ windowState.barTakes 2 (2 ^ 30 - 4) 4 = true ∧
    windowState.loadRange (windowState.host.windowBase + (2 ^ 30 - 4)) 4 = none ∧ windowState.hbmClean = true ∧
    (let s := { up with host := { up.host with windowBase := 2 ^ 40 } };
      s.barTakes 2 0 4 = true ∧ s.loadRange (s.host.windowBase + 0) 4 = some .unmapped) ∧
    windowState.barTakes 2 (2 ^ 30 - 3) 4 = false ∧
    (up.ringUnreached 0 (0x4000000 - 8) = false ∧ up.ringUnreached 4 (0x100000 - 4) = false) ∧
    windowState.writeFault 1 (windowState.host.windowBase + 0) 4 = none ∧ windowState.firstCopy (windowState.host.windowBase + 0) = true ∧
    (({ up with host := { up.host with windowBase := 2 ^ 40 } } : State).writeFault 1 (2 ^ 40 + 0) 4).isSome = true := by
  decide +kernel

/-- A part whose ring 0 is enabled with one descriptor published. -/
def ringState (flight : List InFlight) : State :=
  { up with host := { up.host with rings := [(0, { Ring.reset with base := 0x1000, enable := true, tail := 1, inFlight := flight })] } }

/-- A descriptor in flight that failed a check, or that is good. -/
def flightOf (st : Status) : InFlight := { desc := 0, index := 0, verdict := st }

/-- IngestRings: writes while the BARs are open, TAIL at the ring's size and one beyond, a ring that may start, a descriptor in flight. -/
theorem witness_ingest :
    up.barOpen = true ∧ 7 < 8 ∧ ¬ 2 ^ (up.ring 7).sizeLog2 < indexDistance (up.ring 7).head (16 % 2 ^ 32) ∧
    2 ^ (up.ring 7).sizeLog2 < indexDistance (up.ring 7).head (17 % 2 ^ 32) ∧
    (ringState []).ringReady ((ringState []).ring 0) = true ∧ up.ringReady (up.ring 0) = false ∧
    ((ringState [flightOf .malformed]).ring 0).inFlight = flightOf .malformed :: [] ∧
    (ringState [flightOf .malformed]).dmaOpen = true ∧ State.reset.dmaOpen = false ∧
    ((ringState [flightOf .ok]).setObj Obj.takeState 1).takeOpen = true ∧ ingKind (flightOf .ok).desc = 0 ∧
    (ringState [flightOf .ok]).hbmClean = true ∧
    hbmInRange (ringState [flightOf .ok]).part.variant (ingHbmAddr (flightOf .ok).desc) ([] : List Byte).length = true ∧
    (ringState [flightOf .ok]).meetsDuplexCopy (ingHbmAddr (flightOf .ok).desc) ([] : List Byte).length = false ∧
    ([] : List Byte).length = ingLength (flightOf .ok).desc := by decide +kernel

/-- IngestRings: data for the second copy of the duplex area, set up after the descriptor was taken. -/
theorem witness_ingest_copy :
    (let d : InFlight := { flightOf .ok with desc := hbmPartner up.part.variant 0 * 2 ^ 64 }
      let s := (ringState [d]).setObj Obj.duplexSize 1
      d.verdict = .ok ∧ s.meetsDuplexCopy (ingHbmAddr d.desc) ([0] : List Byte).length = true) := by decide +kernel

/-- A take with one wafer to publish. -/
def answerState (w : Nat) : State :=
  { up with take := { up.take with answers := [{
      take := 0, wafers := [w], toPublish := [w], selfSlated := false, lateAnchored := false, closed := false, valid := true,
      faultMasked := false }] } }

/-- AnswersArePublished: nothing to publish, wafers 0, 255 and 256, an answer ring with room and one without. -/
theorem witness_answers :
    (up.advance 0).nextAnswer = none ∧
    (∀ w ∈ [0, 255, 256], ((answerState w).advance 0).nextAnswer.isSome = true) ∧
    (({ answerState 0 with host := { up.host with answers := { AnswerRing.reset with enable := true } } } : State).answerRoom = true) ∧
    (answerState 0).answerRoom = false := by decide +kernel

/-- FailedHostReads: no read, a ring's read, a MOVE from SPACE 2, a waiting host command. -/
theorem witness_failed_reads :
    up.abortRead (.ring 0) = none ∧ ((ringState [flightOf .ok]).ring 0).inFlight = flightOf .ok :: [] ∧
    (flightOf .ok).verdict = .ok ∧ (ringState [flightOf .ok]).dmaOpen = true ∧
    (let s := ringState [flightOf .ok]; let t := { s with host := { s.host with d3hot := true } };
      (t.ring 0).inFlight = flightOf .ok :: [] ∧ t.dmaOpen = false) ∧
    (let s := { up with host := { up.host with cmd := { up.host.cmd with busy := true, waiting := some (3, 0, 64) } } };
      s.host.cmd.waiting.isSome = true) ∧ up.linkAlive = true := by decide +kernel

/-- A MOVE from SPACE 2 that waits for the host's data. -/
def hostMoveState : State :=
  let s := tileWith moveRec (bytesAt 0 (leBytes 64 (0x0D + 1 <<< 8 + 2 <<< 12 + 0xFFF <<< 24 + 1 <<< 192)) ++
    bytesAt 64 (descBytes 0x0D 0xFFF 0x2000 1))
  { s with host := { s.host with segmentsInForce := [(0, 1), (1, 1)] } }

/-- FailedHostReads: the MOVE is found. -/
theorem witness_failed_move : (hostMoveState.hostMove 0).isSome = true := by decide +kernel

/-- The host command block at work. -/
def cmdState (c : CmdBlock) : State := { up with host := { up.host with cmd := c } }

/-- HostCommandProtocol: busy, BARs closed, refused at once, reading the host, carried out, completing. -/
theorem witness_host_command :
    ((cmdState { CmdBlock.reset with busy := true }).barOpen = true ∧ (cmdState { CmdBlock.reset with busy := true }).host.cmd.busy = true) ∧
    State.reset.barOpen = false ∧
    ((cmdState { CmdBlock.reset with space := 0 }).cmdRefusal 1).isSome = true ∧
    (let s := cmdState { CmdBlock.reset with space := 2, length := 64 }; s.barOpen = true ∧ s.host.cmd.busy = false ∧ s.cmdRefusal 3 = none ∧
      cmdReadsHost 3 s.host.cmd.space = true) ∧
    (let s := cmdState CmdBlock.reset; s.host.cmd.busy = false ∧ s.cmdRefusal 6 = none ∧ cmdReadsHost 6 s.host.cmd.space = false) ∧
    (let s := cmdState { CmdBlock.reset with busy := true, result := some (.ok, 0) };
      s.host.cmd.waiting = none ∧ s.host.cmd.result = some (.ok, 0) ∧ s.rst.restored = true ∧ s.inReset = false) ∧
    (let s := cmdState { CmdBlock.reset with busy := true, waiting := some (3, 0, 64) };
      s.host.cmd.busy = true ∧ s.host.cmd.waiting = some (3, 0, 64) ∧ s.dmaOpen = true ∧
        (let t := { s with host := { s.host with d3hot := true } }; t.host.cmd.waiting.isSome = true ∧ t.dmaOpen = false)) ∧
    ((cmdState CmdBlock.reset).host.cmd.busy = false ∧ (cmdState CmdBlock.reset).host.cmd.waiting = none) := by decide +kernel

/-- HostCommandEffects: each command accepted, with room and without. -/
theorem witness_host_effects :
    (let s := cmdState CmdBlock.reset; s.barOpen = true ∧ s.host.cmd.busy = false ∧ s.host.cmd.space = 1 ∧ s.cmdRefusal 1 = none ∧
      s.cmdRefusal 6 = none ∧ s.cmdRefusal 2 = none ∧ s.cmdRefusal 5 = none ∧ s.host.cmd.length < 9248 ∧
      s.host.cmd.length < s.contextBytes.length ∧ (s.pt 191).storeErrors = [] ∧ s.phys = []) ∧
    (let s := cmdState { CmdBlock.reset with addr := 2 ^ 30, length := 65536 };
      s.cmdRefusal 3 = none ∧ s.reels.active = none ∧ s.cmdRefusal 4 = none ∧ 0 < s.host.cmd.length ∧
      s.host.cmd.length ≤ slotBytes ∧ (hbmInRange s.part.variant s.host.cmd.addr s.host.cmd.length &&
        !(meetsReserved s.part.variant s.host.cmd.addr s.host.cmd.length)) = true ∧ s.hbmClean = true ∧
      s.contextBytes.length ≤ s.host.cmd.length ∧ s.writeFault 1 s.host.cmd.addr s.contextBytes.length = none ∧
      9248 ≤ s.host.cmd.length ∧ s.sec.zeroised = false ∧ (hbmInRange s.part.variant s.host.cmd.addr 32 && !(meetsReserved s.part.variant s.host.cmd.addr 32)) = true ∧
      s.writeFault 1 s.host.cmd.addr 9248 = none ∧ ({ s with sec := { s.sec with zeroised := true } } : State).sec.zeroised = true) :=
  by decide +kernel

/-- SHA3-384 of the empty message (FIPS 202). -/
theorem test_sha3_empty : (sha3384 []).take 8 = [0x0C, 0x63, 0xA7, 0x5B, 0x84, 0x5E, 0x4F, 0x7D] := by decide +kernel

/-- A part whose active reel has no logical tile, and the context of that reel in HBM at 1 GiB. -/
def contextState : State :=
  let s := { cmdState { CmdBlock.reset with addr := 2 ^ 30, length := 72 } with
    reels := { ReelSt.reset with active := some (emptyReel 0 1) } }
  let body := s.contextHeader
  { s with mem := { s.mem with hbm := bytesAt (2 ^ 30) (body ++ sha3384 body) } }

/-- HostCommandEffects: a context that RESTORE_CONTEXT takes. -/
theorem witness_restore :
    contextState.cmdRefusal 3 = none ∧ (let s := contextState; (hbmInRange s.part.variant s.host.cmd.addr s.host.cmd.length &&
      !(meetsReserved s.part.variant s.host.cmd.addr s.host.cmd.length)) = true) ∧
    contextState.hbmClean = true ∧
    (let c := (List.range 72).map (fun i => contextState.hbmRaw (2 ^ 30 + i));
      contextHeaderBytes + digestBytes ≤ 72 ∧ sha3384 (c.take 24) = c.drop 24 ∧ contextState.contextMatches c = true ∧
      contextState.budget + 1 ≤ contextState.enabledTiles ∧
      (contextState.placeForContext.putTiles (List.range contextState.budget) ((c.take 24).drop contextHeaderBytes)).isSome = true) := by
  decide +kernel

/-- MailboxRequests: BARs closed, BUSY, an empty request, reserved bits, entries beyond the buffer, one read. -/
theorem witness_mailbox :
    State.reset.barOpen = false ∧ up.barOpen = true ∧ up.mailbox.busy = false ∧
    ({ up with mailbox := { up.mailbox with busy := true } } : State).mailbox.busy = true ∧
    leNat (bufferBytes up.mailbox.request 0 8) = 0 ∧
    (let m := bytesAt 0 (leBytes 8 (2 ^ 16)); zeroAt (leNat (bufferBytes m 0 8)) 63 16 = false) ∧
    (let m := bytesAt 0 (leBytes 8 1 ++ leBytes 8 (2 ^ 52 + 2)); zeroAt (leNat (bufferBytes m 0 8)) 63 16 = true ∧
      bitsOf (leNat (bufferBytes m 0 8)) 15 0 = 1 ∧ requestEntries m 1 8 = none) ∧
    (let m := bytesAt 0 (leBytes 8 1 ++ leBytes 8 0x22000101); zeroAt (leNat (bufferBytes m 0 8)) 63 16 = true ∧
      0 < leNat (bufferBytes m 0 8) ∧ (requestEntries m 1 8).isSome = true ∧
      ∀ as ∈ requestEntries m 1 8, ∀ a ∈ as, a.write = false) ∧
    up.server.jobs = [] ∧ up.server.kWrite = none ∧ up.server.halted = false := by decide +kernel

/-- Both paths reach an idle server. -/
theorem reaches_up (path : Path) : Reaches up path := by
  cases path
  · exact ⟨by decide +kernel, by decide, by decide⟩
  · exact ⟨by decide +kernel, by decide, by decide⟩

/-- With no block idle, the block of a path is at work already. -/
theorem woken_up (path : Path) : up.woken path = up := by cases path <;> rfl

/-- Whether a check answers these values. -/
def answersOk (r : Except Refused (List (Nat × Nat))) (vs : List (Nat × Nat)) : Bool :=
  match r with
  | .ok v => decide (v = vs)
  | .error _ => false

/-- A check that answers the values is that answer. -/
theorem answers_ok : ∀ (r : Except Refused (List (Nat × Nat))) (vs : List (Nat × Nat)), answersOk r vs = true → r = .ok vs
  | .ok _, _, h => by rw [of_decide_eq_true h]
  | .error _, _, h => by cases h

/-- HostEventsClear: the last group. -/
theorem witness_host_events :
    Reaches up .pcie ∧ Reaches up .coe ∧ up.checkWrite (writeAccess 0x2801 (15 + 1) (2 ^ 32 - 1)) = .ok [(15 + 1, 2 ^ 32 - 1)] :=
  ⟨reaches_up _, reaches_up _, answers_ok _ _ (by decide +kernel)⟩

/-- DictionaryCommands and KeptWrites: each write passes its checks on the part as it has come up (R326). -/
theorem witness_writes_pass :
    ([(0x2200, 1, 1), (0x2002, 1, 1), (0x2500, 2, 1), (0x2500, 2, 2), (0x2500, 6, 0), (0x2500, 7, 0),
      (0x2F00, 1, 0x5A5A0001), (0x2F00, 3, 1), (0x2700, 2, 1), (0x2700, 2, 2), (0x2003, 8, 1), (0x2A00, 1, 1),
      (0x2003, 8, 0xE5), (0x2100, 1, 1), (0x2A20, 2, 1), (0x2C00, 1, 1), (0x2600, 1, 63), (0x2600, 2, 63),
      (0x2601, 0x20, 0)] : List (Nat × Nat × Nat)).map (fun q =>
        match up.checkWrite (writeAccess q.1 q.2.1 q.2.2) with
        | .ok vs => decide (vs = [(q.2.1, q.2.2)])
        | .error _ => false) = List.replicate 19 true := by decide +kernel

/-- DictionaryRefusals: each write fails a check, on some value or in some state; with the mailbox closed nothing is carried. -/
theorem witness_writes_fail :
    (([(0x2200, 1, 2), (0x2002, 1, 2), (0x2F00, 1, 0), (0x2A00, 1, 2 ^ 32), (0x2100, 1, 2), (0x2600, 1, 64), (0x2A20, 2, 2 ^ 20),
      (0x2C00, 1, 2 ^ 9), (0x2500, 9, 0)] : List (Nat × Nat × Nat)).all (fun q =>
        match up.checkWrite (writeAccess q.1 q.2.1 q.2.2) with
        | .ok _ => false
        | .error _ => true)) = true ∧ (inAl 1).coeOpen = false := by decide +kernel

/-- KeptWrites: values in force already, other values with room and without, and a write that waits for its record. -/
theorem witness_kept :
    up.unchanged (writtenValues 0x2100 [(1, 0)]) = true ∧ up.unchanged (writtenValues 0x2100 [(1, 1)]) = false ∧
    up.journalBusy = true ∧
    (let s := (up.setObj Obj.journalState 1).setObj Obj.activeRegion 0;
      s.journalBusy = false ∧ s.journalFull (kValues (writtenValues 0x2100 [(1, 1)])).length = false ∧
      ({ s with journal := { s.journal with nextSlot := 2 ^ 30 } } : State).journalFull
        (kValues (writtenValues 0x2100 [(1, 1)])).length = true ∧
      (let a := writeAccess 0x2100 1 1
        let j : Job := { path := .coe, tag := 0, todo := [a], answers := [] }
        let t := { s with server := { s.server with kWrite := some (writtenValues 0x2100 [(1, 1)]), jobs := [j] } }
        t.server.jobs = [j] ∧ j.todo = [a] ∧ j.answers = [] ∧ a.write = true ∧ t.server.halted = false ∧ t.journalBusy = false ∧
          t.journalFull (kValues (writtenValues 0x2100 [(1, 1)])).length = false)) := by decide +kernel

/-- KeptWrites: read-backs that match, and three that do not. -/
theorem witness_kept_attempts :
    (let ws := writtenValues 0x2100 [(1, 1)]
      let s0 := (up.setObj Obj.journalState 1).setObj Obj.activeRegion 0
      let s := { s0 with server := { s0.server with kWrite := some ws } }
      (State.programAll (groupOf (kValues ws)) [] (s.advance 0)).2 = true ∧
      (State.programAll (groupOf (kValues ws)) [0, 0, 0] (s.advance 0)).2 = false ∧
      kValues ws = [(objKey 0x2100 1, 1)] ∧ s.journal.nextSlot + 3 ≤ regionSlots ∧
      (0 : BitVec 256) ≠ journalRecord (objKey 0x2100 1) (groupKind 0 1) (valueBytes (objKey 0x2100 1)) 1
        ((s.journal.lastSeq + 1) % 2 ^ 32)) := by decide +kernel

/-- DictionaryServices: the last segment of a download that passes its checks and of one that fails them, and an index that
exists and one that does not. -/
theorem witness_segments :
    (let a := writeAccess 0x2200 1 0
      let b : Access := { a with data := [] }
      let s := { up with ecat := { up.ecat with segment := some b } }
      s.ecat.segment = some b ∧ b.write = true ∧ b.describe = false ∧ b.data ++ a.data = a.data ∧
      (match (s.woken .coe).checkWrite { a with write := true, describe := false } with
        | .ok vs => decide (vs = [(1, 0)]) && (s.woken .coe).unchanged (writtenValues 0x2200 vs)
        | .error _ => false) = true ∧
      (match (s.woken .coe).checkWrite { b with data := b.data ++ [2] } with
        | .ok _ => false
        | .error _ => true) = true) ∧
    objIndexMapped 0x2200 = true ∧ objIndexMapped 0x1FFF = false ∧ (objRow 0x2200 1).isSome = true ∧
    (objRow 0x2200 200).isSome = false := by decide +kernel

/-- DictionaryServices: a readable object, a download that changes nothing, a segment under way, the window, the request buffer. -/
theorem witness_services :
    Reaches up .coe ∧
    (match up.checkWrite { writeAccess 0x2200 1 0 with write := true, describe := false } with
      | .ok vs => decide (vs = [(1, 0)]) && up.unchanged (writtenValues 0x2200 vs)
      | .error _ => false) = true ∧ isErase { writeAccess 0x2200 1 0 with write := true, describe := false } = false ∧
    up.coeOpen = true ∧ up.ecat.segment = none ∧ up.ecat.al ≠ alInit ∧ (inAl 1).coeOpen = false ∧
    (up.barTakes 4 requestStart 8 = true ∧ barAligned requestStart 8 = true ∧ requestStart + 8 ≤ responseStart) :=
  ⟨reaches_up _, by decide +kernel, by decide +kernel, by decide +kernel, by decide +kernel, by decide +kernel, by decide +kernel,
    by decide +kernel⟩

/-- JournalCommands: a compaction wanted, with the other region erased or not. -/
theorem witness_journal :
    (let s := { up with journal := { up.journal with compacting := true } };
      s.journal.compacting = true ∧ s.journal.erased s.targetRegion = true) ∧ up.journal.compacting = false ∧
    up.rst.restored = true ∧ State.reset.rst.restored = false ∧
    (let s := (up.setObj Obj.journalState 1).setObj Obj.activeRegion 0; s.regionValid = true ∧ s.activeRegion ≤ 1) := by
  decide +kernel

/-- Port 31 of a part in a state, with rack 0, package 0 as the own package. -/
def portState (st : Nat) : State := up.setPort 31 { up.port 31 with state := st }

/-- A packet from package 1 to the own package with its HCRC: one byte for HBM address 0, an addition of 1 to flag 0 of tile
0, or another kind. -/
def packetOf (op : Nat) : Packet :=
  sealPacket { packet0 with
    op := op
    length := if op = pktPut then 1 else 0
    payload := if op = pktPut then [7] else []
    addr := if op = pktSignal then 2 ^ 46 else 0
    addend := if op = pktSignal then 1 else 0
    channel := if op = pktControl then chControl else 0 }

/-- The part with port 31 up and tile 0 in use. -/
def linkedState : State :=
  { (portState portUp).setObj Obj.remoteHbmSize 4096 with
    tiles := [(0, { LogTile.fresh with phys := some 0 })], reels := { ReelSt.reset with active := some (emptyReel 1 1) } }

/-- FabricPackets: a port that is up and one that is not, a packet out of order and one with a wrong HCRC. -/
theorem witness_packets :
    ((portState portUp).port 31).state = portUp ∧ (up.port 31).state ≠ portUp ∧
    (let q := sealPacket { packetOf pktPut with linkSeq := 1 };
      q.hcrc = packetCrc q ∧ q.linkNak = false ∧ q.linkSeq ≠ ((portState portUp).port 31).rxSeq) ∧
    ({ packetOf pktPut with hcrc := 0 } : Packet).hcrc ≠ packetCrc { packetOf pktPut with hcrc := 0 } ∧
    ((portState portUp).port 31).txQueue = [] ∧ (packetOf pktIdle).hcrc = packetCrc (packetOf pktIdle) ∧
    (packetOf pktIdle).linkNak = false := by decide +kernel

/-- PortsQuiet and PortsAwait hold without tiles and with an idle one. -/
theorem witness_ports_quiet :
    PortsQuiet (portState portUp) ∧ PortsAwait (portState portUp) ∧ PortsQuiet linkedState := by
  refine ⟨(by intro e he; cases he), (by intro e he; cases he), ?_⟩
  intro e he
  rw [List.mem_singleton.mp he]
  exact ⟨rfl, by intro q hq; cases hq⟩

/-- FabricPackets: a PUT to HBM and a SIGNAL, each next on its link and in its stream, that pass their checks. -/
theorem witness_packet_next :
    (∀ op ∈ [pktPut, pktSignal], let p := withOp op (packetOf op); let s := linkedState; let r := s.rxOf (pktSrc p);
      ((s.port 31).state = portUp ∧ p.hcrc = packetCrc p ∧ p.linkNak = false ∧ p.linkSeq = (s.port 31).rxSeq) ∧
      pktDst p = s.ownId ∧ pktSrcId p ≠ s.ownId ∧ p.channel = chRequest ∧ p.first = true ∧ p.last = true ∧
      r.next = p.e2eSeq ∧ r.held = [] ∧ r.cur.inOp = false ∧ s.packetFault false r.cur p = none) ∧
    regionOf (packetOf pktPut).addr = 0 ∧ linkedState.hbmClean = true ∧
    (packetOf pktPut).payload.length = (packetOf pktPut).length ∧
    (∀ e ∈ (linkedState.lt (tilePart (packetOf pktSignal).addr)).queue, recOpcode e.x ≠ opWait) := by decide +kernel

/-- FabricPackets: CONTROL that is next on its link, an identity with a wrong HCRC, one of a matching peer, a step record. -/
theorem witness_control :
    (let q : Packet := { packetOf pktControl with op := pktControl }; let s := portState portUp;
      ((s.port 31).state = portUp ∧ q.hcrc = packetCrc q ∧ q.linkNak = false ∧ q.linkSeq = (s.port 31).rxSeq) ∧
      pktWellFormed q = true ∧ pktDst q = s.ownId ∧ q.first = true ∧ q.last = true ∧ s.steps.nextFinal ≤ 0 ∧
      s.steps.lapsed.contains (64 * 0 + 1, 0) = false ∧
      s.steps.records.any (fun x => x.member == 64 * 0 + 1 && x.step == 0) = false) ∧
    ({ packetOf pktControl with hcrc := 0 } : Packet).hcrc ≠ packetCrc { packetOf pktControl with hcrc := 0 } ∧
    (let s0 := portState portTraining
      let s := { s0 with rst := { s0.rst with domains := s0.rst.domains ++ [Domain.opticalRx 31] } }
      (s.port 31).state = portTraining ∧ s.rst.domains.contains (.opticalRx 31) = true ∧ 64 * 0 + 1 ≠ s.ownId) := by decide +kernel

/-- FabricPackets: an identity whose CHANNEL does not carry CONTROL. -/
theorem witness_identity_malformed :
    (let q := sealPacket { packetOf pktControl with channel := 0 };
      q.hcrc = packetCrc q ∧ pktWellFormed q = false ∧ ((portState portTraining).port 31).state = portTraining) := by decide +kernel

/-- A remote operation of logical tile 0 toward package 1 that has left its port: a PUT, or a GET into descriptor 0. -/
def opOut (reissuing : Bool) (getLocal : Option Nat) : RemoteOp :=
  { entry := 0, pos := 0, dst := 1, own := false, channel := 0, firstSeq := 0, lastSeq := 0,
    packets := [{ packet0 with op := pktPut, dstPackage := 1, srcPackage := 0, length := 1, payload := [7] }],
    issuedTb := 0, sent := true, left := 1, base := .ok, answer := none, reissuing := reissuing, isDispatch := false,
    getLocal := getLocal }

/-- The part at a TB_COUNT with that operation under way, port 31 up toward package 1. -/
def opState (tb : Nat) (o : RemoteOp) : State :=
  let s := tileWith putRec []
  let u := s.setLt 0 { s.lt 0 with ops := [o], queue := [{ entryOf putRec with st := .issued }] }
  let v := (u.setObj (Obj.packageRoute + 1) (31 + 1 <<< 5)).setObj (Obj.portRole + 31) 1
  { v.setPort 31 { v.port 31 with state := portUp } with time := { v.time with tb := tb } }

/-- FabricAnswers: the operation, its RESPONSE or the data of a GET, the time-out, and a re-issue out of time. -/
theorem witness_fabric_answers :
    (∀ o ∈ [opOut false none, opOut true none, opOut false (some 0)], let s := opState 0 o;
      (s.lt 0).phys = some 0 ∧ (s.lt 0).ops = [o] ∧ ((s.lt 0).queue.find? (fun x => x.id == o.entry)).isSome = true ∧
      ((s.lt 0).hist[0]?).isSome = true ∧ o.sent = true ∧ o.own = false ∧ o.answer = none ∧
      (∀ x ∈ s.tiles, (x.1 ≠ 0 → x.2.ops = []) ∧ ∀ q ∈ x.2.queue, q.st = .issued → isFence q.x = false) ∧
      (s.advance 0).opTimedOut o = false ∧ ((opState (2 ^ 40) o).advance 0).opTimedOut o = true) ∧
    (∀ op ∈ [pktResponse, pktGetData], let a : Packet := { packetOf op with op := op }; let s := opState 0 (opOut false none);
      ((s.port 31).state = portUp ∧ a.hcrc = packetCrc a ∧ a.linkNak = false ∧ a.linkSeq = (s.port 31).rxSeq) ∧
      pktDst a = s.ownId ∧ a.srcTile = 0 ∧ (opOut false none).dst = pktSrcId a ∧ (opOut false none).lastSeq = a.e2eSeq ∧
      statusOfCode a.status = some .ok ∧ Status.ok ≠ .isolated) ∧
    (let a := sealPacket { packetOf pktResponse with status := 0x20 };
      a.op = pktResponse ∧ a.hcrc = packetCrc a ∧ statusOfCode a.status = some .isolated) := by decide +kernel

/-- FabricAnswers: no operation is answered and no fence waits. -/
theorem witness_ports_await : PortsAwait (opState 0 (opOut false (some 0))) := by
  intro e he
  have h : ∀ e ∈ (opState 0 (opOut false (some 0))).tiles, (e.2.ops ≠ [] →
      ((opState 0 (opOut false (some 0))).lt e.1).phys.isSome = true) ∧
      (∀ o ∈ e.2.ops, o.sent = true ∧ o.answer = none ∧ o.packets.length ≤ o.left) ∧
      ∀ q ∈ e.2.queue, q.st = .issued → isFence q.x = false := by decide +kernel
  exact h e he

/-- FabricAnswers: a packet to send again, with a route to package 1, room in the replay buffer and a credit. -/
theorem witness_reissue :
    (let o := opOut true none; let s := opState 0 o;
      let q : Packet := { packet0 with op := pktPut, dstPackage := 1, srcPackage := 0, length := 1, payload := [7] };
      o.packets = [q] ∧ 1 ≤ o.left ∧ neverRefused q = false ∧ s.trackOf q = none ∧ pktWellFormed q = true ∧
      s.routeFault q = none ∧ s.routePort q.dstRack q.dstPackage = some 31 ∧ (s.port 31).txQueue = [] ∧
      (s.port 31).replayBuffer.length < 2048 ∧ 0 < (s.port 31).credits.getD q.channel 0 ∧ q.channel < 4) := by decide +kernel

/-- RoundsAndReordering: a complete round, none, and a stream with one packet behind a gap, held long enough and not. -/
theorem witness_rounds :
    (let s0 := tileWith putRec []; let s := { s0 with fabric := { s0.fabric with ready := [(0, 64)] } };
      s.fabric.ready.find? (fun r => r.1 == 0) = some (0, 64) ∧ (s.lt 0).phys = some 0) ∧
    up.fabric.ready.find? (fun r => r.1 == 0) = none ∧
    (∀ tb ∈ [0, 2 ^ 40],
      let src : SrcId := { rack := 0, package := 1, tile := 0, channel := 0 }
      let q : Arrived := { pkt := { packetOf pktPut with e2eSeq := 1 }, via := portVia 31 }
      let s := { up with
        fabric := { up.fabric with rx := [{ RxStream.fresh src with held := [q], holdTb := some 0 }] }
        time := { up.time with tb := tb } }
      (s.rxOf src).held = [q] ∧ (s.rxOf src).holdTb = some 0 ∧ q.pkt.e2eSeq < 2 ^ 16 ∧ (s.rxOf src).next < 2 ^ 16 ∧
        decide (0 + s.obj Obj.reorderHoldUs * tbPerUs ≤ (s.advance 0).time.tb) = (tb == 2 ^ 40)) := by decide +kernel

/-- FabricPorts: λ0 and λ7 of an up port that can send, a spare in use, a laser input at both ends, low in a part out of reset
with the fabric enabled, training, and bring-up at and before its end. -/
theorem witness_ports :
    (((portState portUp).port 31).state = portUp ∧ ((portState portUp).port 31).rxSpare = none ∧
      ((portState portUp).port 31).txQueue = [] ∧ ((portState portUp).port 31).replayBuffer.length < 2048 ∧
      0 < ((portState portUp).port 31).credits.getD chControl 0) ∧
    (let s := up.setPort 31 { up.port 31 with state := portUp, rxSpare := some 7 };
      (s.port 31).state = portUp ∧ (s.port 31).rxSpare = some 7 ∧ (0 : Nat) ≠ 7 ∧ (8 : Nat) ≠ 7 ∧ 8 ≤ 8) ∧
    (up.inReset = false ∧ 3 < up.laserInputs ∧ ¬ 4 < up.laserInputs) ∧ bitAt (up.obj Obj.laserLow) 3 = false ∧
    (let s0 := (up.setObj Obj.laserLow 8).setObj (Obj.portRole + 31) 1
      let s := { s0 with fabric := { s0.fabric with enabled := true } }
      bitAt (s.obj Obj.laserLow) 3 = true ∧ 31 ∈ inputPorts 3 ∧ s.fabric.enabled = true ∧ s.portRole 31 ≠ 0 ∧
        (s.port 31).unusable = false ∧ s.blockDown (.port 31) = false) ∧
    (∀ tb ∈ [200000 * 3600, 200000 * 3600 - 1],
      let s0 := (up.setObj Obj.fabricState fabricBringup).setPort 31 { up.port 31 with state := portTraining }
      let s := { s0 with fabric := { s0.fabric with enabled := true }, time := { s0.time with tb := tb } }
      s.fabric.enabled = true ∧ (s.port 31).state = portTraining ∧ s.obj Obj.fabricState = fabricBringup ∧
        decide (s.fabric.enabledTb + 200000 * tbPerUs ≤ (s.advance 0).time.tb) = (tb == 200000 * 3600)) := by decide +kernel

/-- StartUpOrderKept: the state after reset and the part that has come up are in order. -/
theorem witness_start_order : StartUpOrder State.reset ∧ StartUpOrder up := by
  constructor <;> exact ⟨by decide, by decide, by decide, by decide⟩

/-- ResetSources: each pin high and low, with a source asserted and with none. -/
theorem witness_resets :
    (up.rst.pwrGood = true ∧ up.rst.rstN = true ∧ up.rst.perstN = true ∧ up.rst.asserted = 0) ∧
    (let r := { ResetSt.powerUp with rstN := false, asserted := causeRst }; r.asserted ≠ 0 ∧ r.rstN = false ∧ r.pwrGood = true) := by
  decide

/-- The part after a reset with the given domains released, and with CFG_SENSE sampled. -/
def clockedState (ds : List Domain) : State :=
  { State.reset with rst := { ResetSt.powerUp with cfgSampled := true, domains := ds } }

/-- StartUp: domains that wait before and after the restore, and those the boot ROM and BIST need. -/
theorem witness_clocks :
    (State.reset.inReset = false ∧ State.reset.rst.cfgSampled = false) ∧
    (∀ d ∈ [Domain.timebase, .ecat, .pcie 1, .tile 191], State.reset.domainWaits d = true) ∧
    (∀ d ∈ [Domain.tile 191, .hbmController 7, .hbmPhy 7, .opticalTx 31, .cnSn 1],
      up.domainWaits d = true ∧ Domain.ofDie d = true ∧ up.rst.restored = true ∧ State.reset.domainWaits d = true ∧
        State.reset.rst.restored = false) ∧
    (let s := clockedState [.timebase, .security, .control, .ecat];
      s.inReset = false ∧ s.rst.fwRunning = false ∧ s.rst.recovery = false ∧ s.rst.cfgSampled = true ∧ s.bootClocks = true ∧
        s.rst.domains.contains .ecat = true ∧ s.ecatOff = false ∧ s.blockDown .ecatController = false) := by decide +kernel

/-- The clocks of the dies have settled where every one of their domains has passed its time. -/
theorem settled_of_failed (s : State) (h : s.rst.failedDomains = dieDomains s.part.variant) : s.clocksSettled = true := by
  unfold State.clocksSettled
  rw [List.all_eq_true]
  intro d hd
  rw [h, List.contains_iff_mem.mpr hd, Bool.or_true, Bool.true_or]

/-- The part before BIST with its clocks settled. -/
def bistState : State :=
  { clockedState [] with rst := { (clockedState []).rst with fwRunning := true, failedDomains := dieDomains .tmn5800 } }

/-- StartUp: BIST may complete. -/
theorem witness_bist :
    bistState.inReset = false ∧ bistState.rst.fwRunning = true ∧ bistState.rst.bistDone = false ∧ bistState.clocksSettled = true :=
  ⟨rfl, rfl, rfl, settled_of_failed _ rfl⟩

/-- StartUp: hot and cool samples, the first hot one and the second, and blocks that go idle. -/
theorem witness_start_up :
    up.part.hot (List.replicate 16 1680) = true ∧ up.part.hot (List.replicate 16 1679) = false ∧ up.rst.hotSample = false ∧
    (let s := { up with rst := { up.rst with hotSample := true } }; s.rst.hotSample = true ∧ s.rst.thermTrip = false) ∧
    (let s := { up with rst := { up.rst with thermTrip := true } };
      s.rst.thermTrip = true ∧ s.part.cool (List.replicate 16 1000) = true) ∧
    191 < up.part.variant.tiles ∧ (up.pt 191).sleeping = false ∧ up.blockFitted (.stack 7) = true ∧
    up.blockAsleep (.stack 7) = false ∧ up.blockFitted .hostPort = true ∧ up.blockAsleep .hostPort = false := by decide +kernel

/-- TestPort: a challenge that a response uses up, debug level 2 and another one, debug open and closed, and both ends of the
failing steps. -/
theorem witness_test_port :
    (let f : Fuses := { deviceSecret := 0, keyDigests := [0, 0, 0, 0], keyRevoked := 0, svnFloor := 0, debugDigest := 0, debugDisable := false }
      let s := { up with sec := { up.sec with fuses := some f, challenge := some 5, debugLevel := 2, trstN := true } }
      s.sec.trstN = true ∧ s.sec.challenge = some 5 ∧ s.sec.debugLevel = 2 ∧ s.debugDisabled = false ∧ ¬ 3 ≤ s.sec.debugFailures ∧
        (3 ≠ 1 ∧ 3 ≠ 2)) ∧ up.sec.challenge = none ∧
    up.debugDisabled = true ∧ up.sec.debugLevel ≠ 2 ∧ up.sec.trstN = false ∧ (1 ≤ 1 ∧ 5 ≤ 5) := by decide +kernel

/-- TimedDictionaryEffects: a load that ends and one that starts again, a halted server at its instant and before, entries
into Standby. -/
theorem witness_timed :
    (let s := { up with route := { up.route with loading := some (.ok, []) } };
      s.route.loading = some (.ok, []) ∧ s.route.restart = false ∧
      ({ s with route := { s.route with restart := true } } : State).route.restart = true) ∧
    (∀ st ∈ [Status.malformed, .eccRecovered],
      let s := { up with route := { up.route with loading := some (st, []) } }; s.route.loading = some (st, [])) ∧
    (∀ tb ∈ [3600000, 3599999],
      let s := { up with server := { up.server with halted := true }, time := { up.time with tb := tb } }
      s.server.halted = true ∧ s.rst.asserted = 0 ∧
        decide (s.server.haltedTb + 3600000 ≤ (s.advance 0).time.tb) = (tb == 3600000)) ∧
    (let s := up.setObj Obj.deviceState 1; s.obj Obj.deviceState = 1 ∧ s.quiet = true) := by decide +kernel

/-- A part that leaves Standby with a reel active and its clocks settled. -/
def leavingState : State :=
  { up.setObj Obj.deviceState 3 with
    reels := { ReelSt.reset with active := some (emptyReel 1 1) }, rst := { up.rst with failedDomains := dieDomains .tmn5800 } }

/-- TimedDictionaryEffects: the exit from Standby. -/
theorem witness_leaving :
    leavingState.obj Obj.deviceState = 3 ∧ leavingState.clocksSettled = true ∧
      leavingState.reels.active = some (emptyReel 1 1) ∧ leavingState.hbmClean = true :=
  ⟨by decide +kernel, settled_of_failed _ rfl, rfl, by decide +kernel⟩

/-! ## TileCommandCompletes: an entry of each kind that works -/

/-- The descriptors of a tile, from index 0 on. -/
def descTable (ds : List (List Byte)) : Tab Byte := ds.zipIdx.flatMap (fun q => bytesAt (64 * q.2) q.1)

/-- FOLD from descriptors 0 and 1 to 2 and 3. -/
def foldRec : Nat := 0x02 + 2 <<< 80

/-- TRIM of descriptor 0 with META 1, QMODE 1 and the whole fraction. -/
def trimRec : Nat := 0x30 + 1 <<< 80 + 0xFFFFFFFFFFFFFFFF <<< 96 + 0xFFFF <<< 160 + 1 <<< 177

/-- TIPIN of descriptor 0 with META 1 and candidates 2. -/
def tipinRec : Nat := 0x31 + 1 <<< 80 + 2 <<< 96 + 0xFFFFFFFFFFFF <<< 112 + 0xFFFF <<< 160 + 1 <<< 177

/-- SCAN of META 1 into candidates 2, of G from 3 and 4, with PER_QUIRE 1. -/
def scanRec : Nat :=
  0x32 + 0xFFFF <<< 64 + 1 <<< 80 + 2 <<< 96 + 3 <<< 112 + 4 <<< 128 + 0xFFFF <<< 144 + 1 <<< 177 + 1 <<< 192

/-- CHECK of META 1 into descriptor 5. -/
def checkRec : Nat := 0x33 + 0xFFFF <<< 64 + 1 <<< 80 + 0xFFFFFFFFFFFF <<< 96 + 5 <<< 144 + 1 <<< 177

/-- A quire matrix of one quire (Q2, INT8), its metadata, one candidate, two rows of G, a result block, and the same matrix
and metadata again. -/
def quireTable : Tab Byte :=
  descTable [descBytes2 (9 + 1 <<< 14) 0xFFF 0x1000 4 4 8, descBytes2 0x0C 0xFFF 0x1100 1 1 2, descBytes2 0x0B 0xFFF 0x1200 2 1 8,
    descBytes2 9 0xFFF 0x1300 4 1 4, descBytes2 9 0xFFF 0x1400 4 1 4, descBytes 0x0B 0xFFF 0x1500 8]

/-- The part with a mask command queued. -/
def maskState (x : Nat) : State := tileWith x quireTable

/-- The part with the FOLD queued. -/
def foldState : State :=
  tileWith foldRec (descTable [descBytes2 (9 + 1 <<< 14) 0xFFF 0x1000 4 4 8, descBytes2 0x0C 0xFFF 0x1100 1 1 2,
    descBytes2 (9 + 1 <<< 14) 0xFFF 0x1200 4 4 8, descBytes2 0x0C 0xFFF 0x1300 1 1 2])

/-- FOLD, TRIM, TIPIN, SCAN and CHECK. -/
theorem witness_works_masks :
    WorksNow foldState foldEff (fun x => recOpcode x == opFold) foldRec ∧
    WorksNow (maskState trimRec) trimEff (fun x => recOpcode x == opTrim) trimRec ∧
    WorksNow (maskState tipinRec) tipinEff (fun x => recOpcode x == opTipin) tipinRec ∧
    WorksNow (maskState scanRec) scanEff (fun x => recOpcode x == opScan) scanRec ∧
    WorksNow (maskState checkRec) checkEff (fun x => recOpcode x == opCheck) checkRec :=
  ⟨⟨⟨by decide +kernel, by decide +kernel, by decide +kernel⟩, _, .fold (by decide +kernel) (by decide +kernel)⟩,
    ⟨⟨by decide +kernel, by decide +kernel, by decide +kernel⟩, _, .trim (by decide +kernel) (by decide +kernel)⟩,
    ⟨⟨by decide +kernel, by decide +kernel, by decide +kernel⟩, _, .tipin (.inl (by decide +kernel)) (by decide +kernel)
      (by decide +kernel) (by decide +kernel)⟩,
    ⟨⟨by decide +kernel, by decide +kernel, by decide +kernel⟩, _, .scan (by decide +kernel) (by decide +kernel) (by decide +kernel)
      (by decide +kernel)⟩,
    ⟨⟨by decide +kernel, by decide +kernel, by decide +kernel⟩, _, .check (by decide +kernel) (by decide +kernel)⟩⟩

/-- DRAIN FUNC 0x10 of slot 0 into descriptors 0 and 1 with state 2 and hyperparameters 3. -/
def updateRec : Nat := 0x12 + 0x10 <<< 96 + 0xFFFF <<< 112 + 2 <<< 128 + 3 <<< 144

/-- The part with that DRAIN queued, its state in the duplex region and its values all 0 but epsilon, which is 1. -/
def updateState : State :=
  let s := tileWith updateRec (descTable [descBytes2 (9 + 1 <<< 14) 0xFFF 0x1000 4 4 8, descBytes2 0x0C 0xFFF 0x1100 1 1 2,
    descBytes (0x0B + 1 <<< 12) 0xFFF 0 12432, descBytes 0x0B 0xFFF 0x1200 16] ++
    bytesAt 0x1200 (leBytes 64 (0x3F800000 <<< 96)))
  { s.setObj Obj.duplexSize 1 with steps := { s.steps with versions := [{ step := 0, lossScale := 0, sigma := [] }] } }

/-- A converting DRAIN, an update drain and ADD. -/
theorem witness_works_drains :
    WorksNow (drainState (descBytes2 1 0xFFF 0x1000 2 2 8)) drainEff
      (fun x => isDrain 0 x || (recOpcode x == opDrain && !(listedFuncs.contains (recFunc x)))) drainRec ∧
    WorksNow updateState updateEff (isDrain 0x10) updateRec ∧
    WorksNow addState (vecEff (elementwise (fun _ a b _ => Val.add a b)))
      (fun x => isVec 0x0001 x || (recOpcode x == opVec && !(listedRoutines.contains (recRoutine x)))) addRec :=
  ⟨⟨⟨by decide +kernel, by decide +kernel, by decide +kernel⟩, _, .drain (by decide +kernel) (by decide +kernel) (by decide +kernel)⟩,
    ⟨⟨by decide +kernel, by decide +kernel, by decide +kernel⟩, _, .update (by decide +kernel) (by decide +kernel) (by decide +kernel)⟩,
    ⟨⟨by decide +kernel, by decide +kernel, by decide +kernel⟩, _, .vec _ (by decide +kernel) (by decide +kernel)⟩⟩

/-- ROUTE SELECT of one token over two experts with CAPACITY 1. -/
def selectRec : Nat := 0x40 + 0xFFFF <<< 96 + 1 <<< 112 + 0xFFFF <<< 128 + 1 <<< 144 + 2 <<< 172 + 0xFFFF <<< 208

/-- ROUTE COMBINE of one token over two experts with CAPACITY 1. -/
def combineRec : Nat := 0x40 + 2 <<< 64 + 0xFFFF <<< 80 + 1 <<< 112 + 2 <<< 128 + 1 <<< 144 + 2 <<< 172 + 0xFFFF <<< 208

/-- The part with SELECT queued: two scores, one row of assignments. -/
def selectState : State :=
  tileWith selectRec (descTable [descBytes2 1 0xFFF 0x1000 2 1 8, descBytes2 0x0B 0xFFF 0x1100 8 1 32])

/-- The part with COMBINE queued: two rows of one feature, one row of assignments (both choices none), one output. -/
def combineState : State :=
  tileWith combineRec (descTable [descBytes2 1 0xFFF 0x1000 1 2 4, descBytes2 0x0B 0xFFF 0x1100 8 1 32, descBytes2 1 0xFFF 0x1200 1 1 4] ++
    bytesAt 0x1100 (leBytes 32 (2 + 2 <<< 128)))

/-- SIGNAL of KIND 0 adding 1 to flag 3, and of KIND 3 arming a PREFETCH cue. -/
def signalRec : Nat := 0x60 + 3 <<< 68 + 1 <<< 80
def armRec : Nat := 0x60 + 3 <<< 64 + 2 <<< 224

/-- The part with a RAND of USE 1 queued. -/
def randState : State := tileWith randRec (bytesAt 0 (descBytes 1 0xFFF 0x1000 1))

/-- SELECT, COMBINE, RAND and SIGNAL. -/
theorem witness_works_others :
    WorksNow selectState selectEff (fun x => recOpcode x == opRoute && (routeOp x == 0 || routeOp x == 3)) selectRec ∧
    WorksNow combineState combineEff (fun x => recOpcode x == opRoute && routeOp x == 2) combineRec ∧
    WorksNow randState randEff (isRand 1) randRec ∧
    WorksNow (tileWith signalRec []) signalAddEff (fun x => !(listedOpcodes.contains (recOpcode x)) ||
      (recOpcode x == opSignal && (sigKind x == 0 || decide (3 < sigKind x)))) signalRec ∧
    WorksNow (tileWith armRec []) armCueEff (fun x => recOpcode x == opSignal && sigKind x == 3) armRec :=
  ⟨⟨⟨by decide +kernel, by decide +kernel, by decide +kernel⟩, _, .select (by decide +kernel)⟩,
    ⟨⟨by decide +kernel, by decide +kernel, by decide +kernel⟩, _, .combine (by decide +kernel)⟩,
    ⟨⟨by decide +kernel, by decide +kernel, by decide +kernel⟩, _, .rand (by decide +kernel) (by decide +kernel)⟩,
    ⟨⟨by decide +kernel, by decide +kernel, by decide +kernel⟩, _, .signalAdd (by decide +kernel) (by decide +kernel) (by decide +kernel)⟩,
    ⟨⟨by decide +kernel, by decide +kernel, by decide +kernel⟩, _, .armCue (by decide +kernel) (by decide +kernel)⟩⟩

end Sys2Proof.Tests
end

section
/-!
The status space (R18): the proofs about `statusCode` and `statusOfCode`. The rows of R18's table end at 0x3F, the model's
extended codes run from 0x40 to 0x47.
-/

namespace Sys2Proof.Machine

open Sys2Proof

/-- The statuses that R18's own table lists; the others are of its extension (R414). -/
def tableStatuses : List Status :=
  [.ok, .zeroWork, .outOfRange, .quireViolation, .unmapped, .forbidden, .absentUnit, .eccRecovered, .eccLost, .isolated,
   .notReady, .malformed]

theorem statusCode_le (st : Status) : statusCode st ≤ 0x47 := by
  cases st <;> simp [statusCode]

theorem le_statusCode_of_not_mem_tableStatuses {st : Status} (h : st ∉ tableStatuses) : 0x40 ≤ statusCode st := by
  cases st <;> simp [tableStatuses, statusCode] at h ⊢

/-- No status before it in `allStatuses` has the code of `st`, so the search ends at `st` itself. -/
theorem statusOfCode_statusCode (st : Status) : statusOfCode (statusCode st) = some st := by
  cases st <;> rfl

/-- Settles O60: the codes of the table by definition, those of the extension by their two bounds, and each code its own
status because `statusOfCode` is a left inverse. -/
theorem statusCodes : Obligations.StatusCodes := by
  unfold Obligations.StatusCodes
  have in_byte (st : Status) : statusCode st < 2 ^ 8 := Nat.lt_of_le_of_lt (statusCode_le st) (by decide)
  have in_extension (st : Status) (h : st ∉ tableStatuses) : 0x40 ≤ statusCode st ∧ statusCode st ≤ 0x7F :=
    ⟨le_statusCode_of_not_mem_tableStatuses h, Nat.le_trans (statusCode_le st) (by decide)⟩
  exact ⟨rfl, rfl, rfl, rfl, rfl, rfl, rfl, rfl, rfl, rfl, rfl, rfl,
    fun st => ⟨in_byte st, statusOfCode_statusCode st⟩, in_extension⟩

end Sys2Proof.Machine
end

section
/-!
HOST_EVENTS (R358): the proofs about a write of it. The write takes its bits off the pending set of its group before it is
answered; on the mailbox path the completion of the request then raises its own source and logs it (R339, R417).
-/

namespace Sys2Proof.Machine

open Sys2Proof

/-! ## The bits that stay -/

theorem bitAt_eq_testBit (x i : Nat) : bitAt x i = x.testBit i := by
  rw [bitAt, Nat.shiftRight_eq_div_pow, Nat.testBit_eq_decide_div_mod_eq]

/-- The subtraction in `clearBits` does not borrow: bit 0 of what is taken off is at most that of the number. -/
theorem clearBits_div_two (x m : Nat) : clearBits x m / 2 = clearBits (x / 2) (m / 2) := by
  have hdiv : (x &&& m) / 2 = x / 2 &&& m / 2 := Nat.and_div_two
  have hmod : (x &&& m) % 2 ≤ x % 2 := by
    have := Nat.and_mod_two_pow (a := x) (b := m) (n := 1)
    simp only [Nat.pow_one] at this
    exact this ▸ Nat.and_le_left
  have hle : x / 2 &&& m / 2 ≤ x / 2 := Nat.and_le_left
  unfold clearBits
  omega

theorem testBit_zero_clearBits (x m : Nat) : (clearBits x m).testBit 0 = (x.testBit 0 && !m.testBit 0) := by
  have hle : x &&& m ≤ x := Nat.and_le_left
  have hand : (x &&& m).testBit 0 = (x.testBit 0 && m.testBit 0) := Nat.testBit_and x m 0
  unfold clearBits
  rw [Bool.eq_iff_iff] at hand ⊢
  simp only [Nat.testBit_zero, Bool.and_eq_true, Bool.not_eq_true', decide_eq_true_eq, decide_eq_false_iff_not] at hand ⊢
  omega

theorem testBit_clearBits (x m i : Nat) : (clearBits x m).testBit i = (x.testBit i && !m.testBit i) := by
  induction i generalizing x m with
  | zero => exact testBit_zero_clearBits x m
  | succ i ih => rw [Nat.testBit_add_one, clearBits_div_two, ih, ← Nat.testBit_add_one, ← Nat.testBit_add_one]

theorem bitAt_clearBits (x m i : Nat) : bitAt (clearBits x m) i = (bitAt x i && !bitAt m i) := by
  simp only [bitAt_eq_testBit, testBit_clearBits]

theorem bitAt_or_two_pow_ne (x : Nat) {i j : Nat} (h : j ≠ i) : bitAt (x ||| 2 ^ j) i = bitAt x i := by
  rw [bitAt_eq_testBit, bitAt_eq_testBit, Nat.testBit_or, Nat.testBit_two_pow_of_ne h, Bool.or_false]

/-! ## What an event leaves of a pending set -/

/-- Bit `i` of HOST_EVENTS of group `g`. -/
def State.hostBit (s : State) (g i : Nat) : Bool := bitAt (s.obj (Obj.hostEvents + g)) i

/-- An object outside HOST_EVENTS, such as every key of the event log, leaves the pending sets alone. -/
theorem State.setObj_hostBit (s : State) {k : Nat} (v : Nat) {g : Nat} (i : Nat) (hk : Obj.hostEvents + g ≠ k) :
    (s.setObj k v).hostBit g i = s.hostBit g i := by
  rw [State.hostBit, State.setObj_obj_ne s v hk, State.hostBit]

theorem State.setPending_hostBit (s : State) {src g i : Nat} (h : src ≠ 32 * g + i) :
    (s.setPending src).hostBit g i = s.hostBit g i := by
  change (s.setObj (Obj.hostEvents + src / 32) (s.obj (Obj.hostEvents + src / 32) ||| 2 ^ (src % 32))).hostBit g i = _
  by_cases hg : src / 32 = g
  · rw [hg, State.hostBit, State.setObj_obj_self, bitAt_or_two_pow_ne _ (by omega), State.hostBit]
  · exact State.setObj_hostBit s _ i (by omega)

theorem State.testRelease_hostBit (s : State) {r g : Nat} (i : Nat) (hr : r < 16) (hg : g < 16) :
    (s.testRelease r).hostBit g i = s.hostBit g i := by
  unfold State.testRelease
  split
  · have hk : Obj.hostEvents + g ≠ Obj.releases + r := by simp only [Obj.hostEvents, Obj.releases]; omega
    refine (State.setObj_hostBit _ _ i hk).trans (congrArg (bitAt · i) (State.obj_congr ?_ _))
    exact State.sendVector_objs _ _
  · rfl

/-- Raising a source changes no bit but its own. -/
theorem State.raise_hostBit (s : State) {src g i : Nat} (hs : src < 512) (hg : g < 16) (h : src ≠ 32 * g + i) :
    (s.raise src).hostBit g i = s.hostBit g i := by
  unfold State.raise
  split
  · rfl
  · rw [State.testRelease_hostBit _ i (by omega) hg, State.hostBit, State.interruptCores_obj]
    exact State.setPending_hostBit s h

theorem State.setLog_hostBit (s : State) (seq v : Nat) {f g : Nat} (i : Nat) (hf : f < 256) (hg : g < 16) :
    (s.setObj (logKey seq f) v).hostBit g i = s.hostBit g i :=
  State.setObj_hostBit s v i (noGroup_log seq hf g hg).1.symm

/-- A bit of HOST_EVENTS whose source the event log itself does not raise (R417). -/
def NotLogSource (g i : Nat) : Prop := 32 * g + i ≠ 0x1C0 ∧ 32 * g + i ≠ 0x1C1

theorem State.newEntry_hostBit (s : State) (code unit st detail ts take rep : Nat) {g i : Nat} (hg : g < 16)
    (hi : NotLogSource g i) : (s.newEntry code unit st detail ts take rep).hostBit g i = s.hostBit g i := by
  have hseq : Obj.hostEvents + g ≠ Obj.nextSeq := (noGroup_nextSeq g hg).1.symm
  have hover : Obj.hostEvents + g ≠ Obj.logOverruns := by simp only [Obj.hostEvents, Obj.logOverruns]; omega
  have hentry : ∀ t : State, (t.raise 0x1C0).hostBit g i = t.hostBit g i := fun t =>
    State.raise_hostBit t (by decide) hg hi.1.symm
  have hfull : ∀ t : State, ((t.incObj Obj.logOverruns).raise 0x1C1).hostBit g i = t.hostBit g i := fun t =>
    (State.raise_hostBit _ (by decide) hg hi.2.symm).trans (State.setObj_hostBit t _ i hover)
  simp only [State.newEntry, State.addObj, apply_ite (State.hostBit · g i), hfull, hentry, ite_self,
    State.setObj_hostBit _ _ i hseq, State.setLog_hostBit, Nat.reduceLT, hg]

theorem State.log_hostBit (s : State) (code unit : Nat) (st : Status) (detail : Nat) {g i : Nat} (hg : g < 16)
    (hi : NotLogSource g i) : (s.log code unit st detail).hostBit g i = s.hostBit g i := by
  simp only [State.log]
  split
  · rfl
  · split
    · exact congrArg (bitAt · i) (State.earlyEvent_obj s _ _ _ _ _)
    · split
      · exact State.setLog_hostBit s _ _ i (by decide) hg
      · exact State.newEntry_hostBit s _ _ _ _ _ _ _ hg hi

/-- An event leaves the pending set alone but for its own source and the two of the event log. -/
theorem State.event_hostBit (s : State) {src : Nat} (unit : Nat) (st : Status) (detail : Nat) {g i : Nat} (hs : src < 512)
    (hg : g < 16) (h : src ≠ 32 * g + i) (hi : NotLogSource g i) :
    (s.event src unit st detail).hostBit g i = s.hostBit g i := by
  unfold State.event
  split
  · rw [State.raise_hostBit _ hs hg h, State.log_hostBit _ _ _ _ _ hg hi]
  · exact State.log_hostBit _ _ _ _ _ hg hi

/-! ## A single access at an idle server -/

/-- The server serves nothing and is not halted. -/
def ServerSt.Idle (v : ServerSt) : Prop := v.jobs = [] ∧ v.kWrite = none ∧ v.halted = false

/-- State `s` with one job at the server. -/
def State.serving (s : State) (j : Job) : State := { s with server := { s.server with jobs := [j] } }

/-- A job of one access after its answer. -/
def Job.answered (j : Job) (a : Access) (r : Reply) : Job :=
  { j with todo := [], answers := j.answers ++ [(a, r.status, r.data)] }

/-- An access that the server answers at once: the job's one access is served, answered, and the job finished (R328). -/
theorem State.enqueueJob_single {s u : State} {j : Job} {a : Access} {r : Reply} (hidle : s.server.Idle)
    (hj : j.todo = [a]) (hserve : (s.serving j).serveAccess j.path a = (u, some r)) (hu : u.server = (s.serving j).server) :
    s.enqueueJob j = (u.answerFront j a [] [] r).finishJob (j.answered a r) [] := by
  obtain ⟨hjobs, hk, hh⟩ := hidle
  have hq : s.enqueueJob j = (s.serving j).serve := by
    simp [State.enqueueJob, State.serving, hh, hjobs]
  have h1 : (s.serving j).serveOne = u.answerFront j a [] [] r := by
    simp [State.serveOne, hj, hk, hh, State.serving] at hserve ⊢
    simp [hserve]
  have h2 : (u.answerFront j a [] [] r).serveOne = (u.answerFront j a [] [] r).finishJob (j.answered a r) [] := by
    cases hp : j.path <;> simp [State.serveOne, State.answerFront, Job.answered, hp, hu, hk, State.serving]
  have hn : listSum ((s.serving j).server.jobs.map (fun j => j.todo.length + 1)) = 2 := by
    simp [State.serving, hj, listSum]
  rw [hq, State.serve, hn, State.serveTurns, State.serveTurns, State.serveTurns, h1, h2]

/-! ## The access that writes HOST_EVENTS -/

/-- The row of HOST_EVENTS in the object table (R360). -/
def hostEventsRow : ObjRow := ⟨0x2801, 0x2801, 0x01, 0x10, "HOST_EVENTS", .u32, .rw, 0, .v⟩

theorem objRow_hostEvents : ∀ g < 16, objRow 0x2801 (g + 1) = some hostEventsRow := by decide +kernel

theorem objIndexMapped_hostEvents : objIndexMapped 0x2801 = true := by decide +kernel

theorem objKey_hostEvents (g : Nat) : objKey 0x2801 (g + 1) = Obj.hostEvents + g := by
  simp only [objKey, Obj.hostEvents]
  omega

/-- The index and subindex of a key of HOST_EVENTS. -/
theorem hostEvents_parts {g : Nat} (hg : g < 16) :
    (Obj.hostEvents + g) / 256 = 0x2801 ∧ (Obj.hostEvents + g) % 256 = g + 1 := by
  simp only [Obj.hostEvents]
  omega

theorem State.absentObject_hostEvents (s : State) : s.absentObject 0x2801 = false := by simp [State.absentObject]

theorem State.needsAbsent_hostEvents (s : State) (sub v : Nat) : s.needsAbsent 0x2801 sub v = false := by
  simp [State.needsAbsent, s.absentObject_hostEvents]

/-- No value of HOST_EVENTS is out of range or refused in some state. -/
theorem State.valueFault_hostEvents (s t : State) (sub v : Nat) : s.valueFault t 0x2801 sub v = none := by
  have hrange : t.inRange 0x2801 sub v = true := by simp [State.inRange]
  have hnow : s.notNow 0x2801 sub v = false := by simp [State.notNow, pdoObject, stoppedOnly]
  simp [State.valueFault, s.needsAbsent_hostEvents, hrange, hnow, State.entryBad, pdoObject]

/-- The only checks of a write of HOST_EVENTS that can fail are the PDO mapping and the length. -/
theorem State.checkWrite_hostEvents (s : State) {g : Nat} (hg : g < 16) (bits : Nat) :
    s.checkWrite (writeAccess 0x2801 (g + 1) bits) = if s.mappedNow 0x2801 [g + 1] then .error mappedWrite
      else if (valueData 0x2801 (g + 1) bits).length ≠ 4 then .error badLength
      else .ok [(g + 1, leNat (valueData 0x2801 (g + 1) bits))] := by
  have hfault (vs : List (Nat × Nat)) : s.valuesFault 0x2801 vs = none := by
    simp [State.valuesFault, s.valueFault_hostEvents]
  have hpresent (vs : List (Nat × Nat)) : s.present 0x2801 vs = vs := by simp [State.present, s.needsAbsent_hostEvents]
  simp only [State.checkWrite, State.checkSingle, writeAccess, objIndexMapped_hostEvents, objRow_hostEvents g hg, hostEventsRow,
    hfault, hpresent, ObjType.bytes, ObjType.bits, Bool.not_true, Bool.false_eq_true, if_false, reduceCtorEq, false_and]

/-- Whether an object is mapped now is read from the controller's state and the objects of the mapping. -/
theorem State.mappedNow_congr {s t : State} (hobjs : t.objs = s.objs) (hecat : t.ecat = s.ecat) (index : Nat)
    (subs : List Nat) : t.mappedNow index subs = s.mappedNow index subs := by
  simp only [State.mappedNow, State.inRxPdo, State.pdoEntries, hecat, State.obj_congr hobjs]

/-- A write of HOST_EVENTS passes its checks wherever the objects and the controller are the same. -/
theorem State.checkWrite_hostEvents_congr {s t : State} (hobjs : t.objs = s.objs) (hecat : t.ecat = s.ecat) {g : Nat}
    (hg : g < 16) (bits : Nat) :
    t.checkWrite (writeAccess 0x2801 (g + 1) bits) = s.checkWrite (writeAccess 0x2801 (g + 1) bits) := by
  rw [State.checkWrite_hostEvents t hg, State.checkWrite_hostEvents s hg, State.mappedNow_congr hobjs hecat]

/-- State `s` with the bits of a write taken off HOST_EVENTS of a group (R358). -/
def State.clearHostEvents (s : State) (g bits : Nat) : State :=
  s.setObj (Obj.hostEvents + g) (clearBits (s.obj (Obj.hostEvents + g)) bits)

theorem State.clearHostEvents_objs_congr {s t : State} (h : t.objs = s.objs) (g bits : Nat) :
    (t.clearHostEvents g bits).objs = (s.clearHostEvents g bits).objs := by
  simp only [State.clearHostEvents, State.setObj, State.obj, h]

theorem State.clearHostEvents_server (s : State) (g bits : Nat) : (s.clearHostEvents g bits).server = s.server :=
  State.setObj_server s _ _

theorem State.applyValues_hostEvents (s : State) {g : Nat} (hg : g < 16) (bits : Nat) :
    s.applyValues [(Obj.hostEvents + g, bits)] = s.clearHostEvents g bits := by
  obtain ⟨hidx, hsub⟩ := hostEvents_parts hg
  have hid : identityKey (Obj.hostEvents + g) = false := by
    simp only [identityKey, Obj.hostEvents, Obj.ownRack, Obj.ownPackage, Bool.or_eq_false_iff, beq_eq_false_iff_ne]
    omega
  simp [State.applyValues, State.applyValue, hidx, hsub, hid, objKey_hostEvents, State.clearHostEvents]

theorem writtenValues_hostEvents {g : Nat} (hg : g < 16) (bits : Nat) :
    writtenValues 0x2801 [(g + 1, bits)] = [(Obj.hostEvents + g, bits)] := by
  have hmask : Obj.hostEvents + g ≠ Obj.resumeMask := by simp only [Obj.hostEvents, Obj.resumeMask]; omega
  simp [writtenValues, keptBits, objKey_hostEvents, (hostEvents_parts hg).1, hmask]

/-- HOST_EVENTS is not retained, so its write has no record to wait for (R324, R328). -/
theorem State.unchanged_hostEvents (s : State) {g : Nat} (hg : g < 16) (bits : Nat) :
    s.unchanged [(Obj.hostEvents + g, bits)] = true := by
  obtain ⟨hidx, hsub⟩ := hostEvents_parts hg
  simp [State.unchanged, kValues, keyClass, hidx, hsub, objRow_hostEvents g hg, hostEventsRow]

/-- A write of HOST_EVENTS that passes its checks is served at once. -/
theorem State.serveAccess_hostEvents (s : State) (path : Path) {g bits : Nat} (hg : g < 16) (hrec : s.rst.recovery = false)
    (hok : s.checkWrite (writeAccess 0x2801 (g + 1) bits) = .ok [(g + 1, bits)]) :
    s.serveAccess path (writeAccess 0x2801 (g + 1) bits) = (s.clearHostEvents g bits, some (Reply.good [])) := by
  have herase : isErase (writeAccess 0x2801 (g + 1) bits) = false := rfl
  have hcarry : s.carryOut path (writeAccess 0x2801 (g + 1) bits) [(Obj.hostEvents + g, bits)] =
      (s.clearHostEvents g bits, some (Reply.good [])) := by
    simp [State.carryOut, herase, s.unchanged_hostEvents hg, s.applyValues_hostEvents hg]
  unfold State.serveAccess
  rw [hok]
  simp only [hrec, writeAccess, Bool.false_and, Bool.and_false, Bool.not_true, Bool.false_eq_true, if_false,
    writtenValues_hostEvents hg]
  exact hcarry

/-! ## The command -/

/-- The objects of `t` are those of `u` after the reply to the one access that made it: an SDO reply keeps every object, and so
does the mailbox response until the request's own event follows it (R328, R339). -/
def RepliedTo (path : Path) (u t : State) : Prop :=
  match path with
  | .coe => t.objs = u.objs
  | .pcie => ∃ v : State, v.objs = u.objs ∧ t = v.event 0x02C (unitOf 0xA 1) .ok 0

theorem RepliedTo.congr {path : Path} {u v t : State} (h : RepliedTo path u t) (hv : v.objs = u.objs) :
    RepliedTo path v t := by
  cases path with
  | coe => exact h.trans hv.symm
  | pcie =>
    obtain ⟨w, hw, ht⟩ := h
    exact ⟨w, hw.trans hv.symm, ht⟩

theorem State.finishJob_repliedTo (u : State) (j : Job) (a : Access) (r : Reply) :
    RepliedTo j.path u ((u.answerFront j a [] [] r).finishJob (j.answered a r) []) := by
  cases hp : j.path with
  | coe => simp [RepliedTo, State.finishJob, Job.answered, State.answerFront, hp]
  | pcie =>
    simp only [RepliedTo, State.finishJob, State.completeRequest, Job.answered, State.answerFront, hp]
    exact ⟨_, by rfl, rfl⟩

/-- A write of HOST_EVENTS that reaches an idle server is applied there and answered. -/
theorem State.enqueueJob_hostEvents {s : State} {j : Job} {g bits : Nat} (hg : g < 16) (hidle : s.server.Idle)
    (hrec : s.rst.recovery = false) (hj : j.todo = [writeAccess 0x2801 (g + 1) bits])
    (hok : s.checkWrite (writeAccess 0x2801 (g + 1) bits) = .ok [(g + 1, bits)]) :
    RepliedTo j.path (s.clearHostEvents g bits) (s.enqueueJob j) := by
  have hcheck : (s.serving j).checkWrite (writeAccess 0x2801 (g + 1) bits) = .ok [(g + 1, bits)] :=
    (State.checkWrite_hostEvents_congr (s := s) (t := s.serving j) rfl rfl hg bits).trans hok
  have hserve := (s.serving j).serveAccess_hostEvents j.path hg hrec hcheck
  rw [State.enqueueJob_single hidle hj hserve (State.clearHostEvents_server (s.serving j) g bits)]
  exact (State.finishJob_repliedTo _ j _ _).congr
    (State.clearHostEvents_objs_congr (s := s.serving j) (t := s) rfl g bits)

theorem State.wakeBlock_recovery (s : State) (b : Block) : (s.wakeBlock b).rst.recovery = s.rst.recovery := by
  unfold State.wakeBlock
  split <;> rfl

/-- State `s` as a path leaves it before the server turns to its access: a block woken, the mailbox as it then stands. -/
def State.carrying (s : State) (b : Block) (m : MailboxSt) : State := { s.wakeBlock b with mailbox := m }

/-- The server applies the write whatever block was woken for it and whatever the mailbox shows. -/
theorem State.enqueueJob_hostEvents_woken {s : State} {g bits : Nat} (hg : g < 16) (hidle : s.server.Idle)
    (hrec : s.rst.recovery = false) (hok : s.checkWrite (writeAccess 0x2801 (g + 1) bits) = .ok [(g + 1, bits)])
    (b : Block) (m : MailboxSt) (path : Path) (tag : Nat) :
    RepliedTo path (s.clearHostEvents g bits) ((s.carrying b m).enqueueJob
      { path := path, tag := tag, todo := [writeAccess 0x2801 (g + 1) bits], answers := [] }) := by
  have hobjs : (s.carrying b m).objs = s.objs := s.wakeBlock_objs b
  have hecat : (s.carrying b m).ecat = s.ecat := s.wakeBlock_ecat b
  have hserver : (s.carrying b m).server = s.server := s.wakeBlock_server b
  have hnormal : (s.carrying b m).rst.recovery = false := (s.wakeBlock_recovery b).trans hrec
  have hcheck := (State.checkWrite_hostEvents_congr hobjs hecat hg bits).trans hok
  have hreply := State.enqueueJob_hostEvents (j := ⟨path, tag, [writeAccess 0x2801 (g + 1) bits], []⟩) hg
    (hserver ▸ hidle) hnormal rfl hcheck
  exact hreply.congr (State.clearHostEvents_objs_congr hobjs.symm g bits)

/-- On either path a write of HOST_EVENTS that the server accepts clears its bits and is answered. -/
theorem State.writeObject_hostEvents {s : State} {path : Path} {g bits : Nat} (hg : g < 16) (reach : Reaches s path)
    (hok : s.checkWrite (writeAccess 0x2801 (g + 1) bits) = .ok [(g + 1, bits)]) :
    RepliedTo path (s.clearHostEvents g bits) (s.writeObject path 0x2801 (g + 1) bits) := by
  obtain ⟨hcarried, hidle, hrec⟩ := reach
  have served := State.enqueueJob_hostEvents_woken hg hidle hrec hok
  cases path with
  | coe =>
    simp only [State.writeObject, State.access, State.coeAccess, hcarried, Bool.not_true, Bool.false_eq_true, if_false]
    exact served .ecatController (s.wakeBlock .ecatController).mailbox .coe 0
  | pcie =>
    obtain ⟨hopen, hbusy⟩ := hcarried
    simp only [State.writeObject, State.access, State.pcieAccess, hopen, hbusy, Bool.not_true, Bool.false_eq_true, if_false]
    exact served .hostPort _ .pcie _

theorem State.clearHostEvents_hostBit (s : State) (g bits i : Nat) :
    (s.clearHostEvents g bits).hostBit g i = (s.hostBit g i && !bitAt bits i) := by
  rw [State.hostBit, State.clearHostEvents, State.setObj_obj_self, bitAt_clearBits, State.hostBit]

theorem State.clearHostEvents_obj_ne (s : State) {g q : Nat} (bits : Nat) (h : q ≠ g) :
    (s.clearHostEvents g bits).obj (Obj.hostEvents + q) = s.obj (Obj.hostEvents + q) :=
  State.setObj_obj_ne s _ (by omega)

/-- The reply leaves each bit of the pending sets but those of the three sources that a mailbox completion raises. -/
theorem RepliedTo.hostBit {path : Path} {u t : State} (h : RepliedTo path u t) {g i : Nat} (hg : g < 16)
    (hi : path = .pcie → 32 * g + i ≠ 0x02C ∧ NotLogSource g i) : t.hostBit g i = u.hostBit g i := by
  cases path with
  | coe => exact congrArg (bitAt · i) (State.obj_congr h _)
  | pcie =>
    obtain ⟨v, hv, rfl⟩ := h
    obtain ⟨hown, hlog⟩ := hi rfl
    rw [State.event_hostBit v _ _ _ (by decide) hg hown.symm hlog]
    exact congrArg (bitAt · i) (State.obj_congr hv _)

/-- HOST_EVENTS is read from where it is stored (R323). -/
theorem State.view_hostEvents (s : State) (g : Nat) : s.view 0x2801 (g + 1) = s.obj (Obj.hostEvents + g) := by
  simp [State.view, State.viewOther, objKey_hostEvents]

/-- Settles O45: the write clears its bits before the reply, and the reply raises at most the sources that are left out. -/
theorem hostEventsClear : Obligations.HostEventsClear := by
  unfold Obligations.HostEventsClear
  intro s path g bits hg _ reach hok
  have reply := State.writeObject_hostEvents hg reach hok
  refine ⟨_, rfl, fun i hi _ => ?_, fun hp q _ hq => ?_, State.view_hostEvents _ g⟩
  · exact (reply.hostBit hg hi).trans (s.clearHostEvents_hostBit g bits i)
  · subst hp
    exact (State.obj_congr reply _).trans (s.clearHostEvents_obj_ne bits hq)

end Sys2Proof.Machine
end
